-- ==== Sys2Proof/Word.lean ====
section
/-!
DEFINITION. The word widths of the complex (spec R4 to R7) under short names.
-/
namespace Sys2Proof

abbrev Byte := BitVec 8
abbrev W16 := BitVec 16
abbrev W32 := BitVec 32
abbrev W64 := BitVec 64
/-- Step numbers are 48 bits wide (Table 0.3). -/
abbrev Step := BitVec 48
/-- Window versions are 32 bits wide (Table 0.3). -/
abbrev Version := BitVec 32
/-- Stream ids are 12 bits wide (Table 0.3). -/
abbrev StreamId := BitVec 12
/-- The numeric-flags byte of Table 2.4. -/
abbrev Flags := BitVec 8

/-- The two hub dies (Table 0.2); also the two PCIe ports. -/
inductive Side where
  | A | B
  deriving DecidableEq, Repr

/-- The other hub die. -/
def Side.twin : Side → Side
  | .A => .B
  | .B => .A

/-- 0 names hub die A, 1 names hub die B (HST_DIE.die). -/
def Side.num : Side → Nat
  | .A => 0
  | .B => 1

def Side.ofNum (n : Nat) : Side := if n % 2 = 0 then .A else .B

@[simp] theorem Side.twin_twin (d : Side) : d.twin.twin = d := by cases d <;> rfl

end Sys2Proof
end

