-- ==== Sys2Proof/Syntax.lean ====
section
/-!
DEFINITION. The commands the block takes: one constructor per row of spec/opcode_table.json, with the row's
operands. Stream commands name their stream only: their 64 bytes stand in the stream's fetch cache (R144, R145).
-/
namespace Sys2Proof

/-- A lane group working on a window's pass 2: the window and the group (R213). -/
structure LaneAt where
  window : BitVec 19
  group : Fin 32
  deriving DecidableEq, Repr

/-- The predicate bits [3:0] of a rule instruction (Table 9.2). -/
structure RPred where
  pe : Bool
  pn : Bool
  p : BitVec 2
  deriving DecidableEq, Repr

/-- A fabric frame as received: header (Table 13.2), payload and the CRC field (R333). -/
structure Frame where
  hdr : W64
  payload : List Byte
  crc : W32
  deriving DecidableEq, Repr

/-- A fabric message (Table 13.4). `fields` holds the op-specific contents whose packing the spec does not give,
in the order the spec lists them; `data` holds the message's bytes. -/
structure Msg where
  op : BitVec 6
  vc : BitVec 2
  dest : BitVec 17
  src : BitVec 17
  linkLocal : Bool
  hops : Nat
  tag : W16
  size : Nat
  addr : W64
  arg : W64
  fields : List Nat
  data : List Byte
  deriving DecidableEq, Repr

/-- The width and speed a fabric port trained at (R332). -/
structure LaneForm where
  width4 : Bool
  speed56 : Bool
  deriving DecidableEq, Repr

/-- What a margin measurement acts on (R309): a stack link's lane or a slow-tier lane. -/
inductive MarginUnit where
  | stack (s : Fin 20)
  | slow (die : Side)
  deriving DecidableEq, Repr

/-- The straps sampled at AON_RST_N release (Table 15.6) and the fused unique id. -/
structure Straps where
  smbAddr : BitVec 3
  imgAccept : Bool
  uid : W64
  deriving DecidableEq, Repr

/-- What trained at start-up (R400, R321): stacks with failed-lane counts, the slow tier, the UCIe modules. -/
structure Trained where
  primary : List (Fin 20 × Nat)
  standby : List (Fin 20 × Nat)
  badChannels : List (Fin 640)
  slowType : BitVec 2
  positions : BitVec 8
  gib : BitVec 8
  slowRate : BitVec 2
  modules : List (Fin 64)
  ms : Nat
  deriving DecidableEq, Repr

/-- The commands of the block: one constructor per row of the opcode table, in the table's order. -/
inductive Instr where
  /-- NOP (R145): Stream command that does nothing and only completes in command order. -/
  | nop (st : StreamId)
  /-- COPY (R66): Copies bytes between device addresses, local or remote, with optional format conversion. -/
  | copy (st : StreamId)
  /-- SIGNAL (R154): Sets a sync object to a value if it compares newer, as a complex-scope release. -/
  | signal (st : StreamId)
  /-- WAIT (R155): Waits until a sync object reaches its target, as a complex-scope acquire. -/
  | wait (st : StreamId)
  /-- SIGNAL_REMOTE (R355): Performs a fabric-scope release toward a node and then signals a sync object there. -/
  | signalRemote (st : StreamId)
  /-- FENCE (R176): Release and/or acquire at the selected scope. -/
  | fence (st : StreamId)
  /-- FLUSH_RANGE (R177): Writes back, and optionally invalidates, stack cache lines over a range. -/
  | flushRange (st : StreamId)
  /-- GATHER (R260): Reads a tensor run at a selected version into a destination. -/
  | gather (st : StreamId)
  /-- DRAIN (R197): Takes a cut for each window and drains the closing accumulation epoch into G. -/
  | drain (st : StreamId)
  /-- PASS1 (R200): Sets the G hold and computes sums of squares and factored partials for each window. -/
  | pass1 (st : StreamId)
  /-- UPDATE (R252): Runs pass 2 for windows in SPECULATE, DIRECT or ABANDON mode, up to commit. -/
  | update (st : StreamId)
  /-- EXPORT (R264): Writes the S16 window images of a selected version, optionally encrypted. -/
  | exportW (st : StreamId)
  /-- IMPORT (R265): Checks and stages window images, then commits all of them as a new version. -/
  | importW (st : StreamId)
  /-- REDUCE_SCATTER (R356): Reduces G across replicas at window owners and returns receipts. -/
  | reduceScatter (st : StreamId)
  /-- ALL_GATHER (R358): Gathers window images from listed nodes in a query phase and a data phase. -/
  | allGather (st : StreamId)
  /-- NORM (R205): Forms the global norm from window sums and shard sums and records the verdict. -/
  | norm (st : StreamId)
  /-- DIGEST_EXCHANGE (R270): Audits window digests across replicas, or repairs or accepts a fenced window. -/
  | digestExchange (st : StreamId)
  /-- QUEUE_PUSH (R156): Appends an entry to a local or remote micro-batch queue. -/
  | queuePush (st : StreamId)
  /-- QUEUE_POP (R156): Removes the head entry of a queue into a destination. -/
  | queuePop (st : StreamId)
  /-- OFFLOAD (R157): Removes the head entry of a local queue and writes it with a header to host or slow-tier memory. -/
  | offload (st : StreamId)
  /-- PREFETCH (R157): Reads an offloaded entry image back into a local queue. -/
  | prefetch (st : StreamId)
  /-- NEWT_MODE (R278): Enters or leaves newt mode on channels and sets or clears the newt window. -/
  | newtMode (st : StreamId)
  /-- NEWT_JOB (R293): Checks a descriptor list and submits its jobs to newts. -/
  | newtJob (st : StreamId)
  /-- STAGE_TENANT (R328): Checks quota, imports and decrypts a tenant's tensors, and binds them. -/
  | stageTenant (st : StreamId)
  /-- SCRUB_TENANT (R329): Fences, zeroes and recommits a tenant's windows, clears its keys and unbinds its tensors. -/
  | scrubTenant (st : StreamId)
  /-- GRAD_ADD (R184): Die-to-die gradient contribution checked and added into the accumulation buffer. -/
  | gradAdd (m : Fin 64) (hdr : BitVec 128) (vals : List W16)
  /-- GATHER_REQ (R262): Die-to-die gather of one run at a selected version, answered with header and data. -/
  | gatherReq (m : Fin 64) (hdr : BitVec 256)
  /-- DOORBELL (R143): 64-bit BAR2 write that makes commands of a stream valid. -/
  | doorbell (port : Side) (off : BitVec 15) (size : Nat) (write : Bool) (v : W64)
  /-- POLL_FLAG_READ (R142): Periodic read of a poll-mode stream's ready flag, served as a doorbell on change. -/
  | pollFlagRead (st : StreamId)
  /-- DESCRIPTOR_FETCH (R141): Completion of a stream descriptor fetch, which may halt the stream. -/
  | descriptorFetch (st : StreamId) (ok : Bool)
  /-- COMMAND_FETCH (R146): Completion of a 64-byte command fetch and its decode before start. -/
  | commandFetch (st : StreamId) (ok : Bool)
  /-- COMPLETION_WRITE (R149): Writes a completion record in command order once earlier records are written. -/
  | completionWrite (st : StreamId) (delayTicks : Nat) (ok : Bool)
  /-- COMMAND_TIMEOUT (R151): A command's timeout_us expires and the command completes RETRY_LATER. -/
  | commandTimeout (st : StreamId) (number : W32)
  /-- STREAM_PAUSE (R162): HUB_STREAM_CTRL.pause stops a stream starting commands. -/
  | streamPause (die : Side)
  /-- STREAM_REINIT (R162): HUB_STREAM_CTRL.reinit discards cached state and restarts numbering of a stream. -/
  | streamReinit (die : Side)
  /-- APERTURE_ACCESS (R94): BAR4 read or write of device memory, checked as a one-operand command. -/
  | apertureAccess (port : Side) (off : W32) (size : Nat) (write : Option (List Byte))
  /-- APERTURE_BASE_WRITE (R97): Write to HST_APERTURE_BASE; a non-zero low half is ignored. -/
  | apertureBaseWrite (port : Side) (high : Bool) (v : W32)
  /-- REGISTER_WRITE (R7): Write to a register with no behaviour of its own, including dropped accesses. -/
  | registerWrite (port : Side) (off : BitVec 25) (size : Nat) (v : W64)
  /-- READ_CLEAR (R9): Read of an RC field that returns and clears it. -/
  | readClear (port : Side) (off : BitVec 25) (size : Nat)
  /-- FUNCTION_LEVEL_RESET (R93): FLR of one port resets its PCIe, HST_ and EVT_ state and disables its event ring. -/
  | functionLevelReset (port : Side)
  /-- EVT_RING_HEAD_WRITE (R100): Software frees event ring entries, letting waiting records be written. -/
  | evtRingHeadWrite (port : Side) (v : W32)
  /-- EVT_RING_BASE_WRITE (R100): Write to the event ring base, ignored while enabled or misaligned. -/
  | evtRingBaseWrite (port : Side) (high : Bool) (v : W32)
  /-- EVT_RING_CTRL_WRITE (R100): Enables or disables an event ring and sets its size. -/
  | evtRingCtrlWrite (port : Side) (v : W32)
  /-- EVENT_ARRIVAL (R379): An event reaches the arbiter, is numbered and written to enabled rings. -/
  | eventArrival (n : Nat)
  /-- IRQ_HOLDOFF_EXPIRY (R90): The oldest unsignalled record reaches holdoff_us and vector 0 fires. -/
  | irqHoldoffExpiry (port : Side)
  /-- NAN_ARRIVAL (R56): A produced NaN reaches the arbiter and arms, fills or counts the first-NaN record. -/
  | nanArrival (n : Nat)
  /-- IMAGE_LOAD (R124): HUB_IMAGE_CTRL.load fetches a full or partial image into staging. -/
  | imageLoad (die : Side)
  /-- IMAGE_LOAD_DONE (R124): The image fetch ends and the state moves to LOADED or REFUSED. -/
  | imageLoadDone (ok : Bool)
  /-- IMAGE_ENABLE (R127): Writing enable 1 runs the consistency check. -/
  | imageEnable (die : Side)
  /-- IMAGE_INIT_DONE (R128): Stack initialisation ends and the image state reaches ENABLED. -/
  | imageInitDone
  /-- IMAGE_DISABLE (R129): Writing enable 0 stops streams, discards speculation and returns to EMPTY. -/
  | imageDisable (die : Side)
  /-- PARTIAL_APPLY (R131): HUB_IMAGE_PARTIAL.apply checks and applies a loaded partial image. -/
  | partialApply (die : Side)
  /-- TELEMETRY_SNAP (R106): Copies every live telemetry counter and flag into snapshots in one tick. -/
  | telemetrySnap (die : Side) (clear : Bool)
  /-- TELEMETRY_CLEAR (R106): Clears every live telemetry counter and flag. -/
  | telemetryClear (die : Side)
  /-- TELEMETRY_TICK (R105): Each always-on tick counts in one idle-or-busy counter. -/
  | telemetryTick (die : Side) (progress : Bool)
  /-- GET_ID (R107): SMBus command returning HST_ID and HST_IF_VERSION. -/
  | getId (die : Side) (pec : Bool)
  /-- GET_STATE (R107): SMBus command returning die, power and image state. -/
  | getState (die : Side) (pec : Bool)
  /-- GET_TEMP (R107): SMBus command returning stack and die temperatures. -/
  | getTemp (die : Side) (pec : Bool)
  /-- GET_POWER (R107): SMBus command returning tile power averaged over 1 ms. -/
  | getPower (die : Side) (pec : Bool)
  /-- GET_EVENT_SUMMARY (R107): SMBus command returning the last event sequence and severity-3 count. -/
  | getEventSummary (die : Side) (pec : Bool)
  /-- REQUEST_POWER_STATE (R387): SMBus request to move the die to a power state. -/
  | requestPowerState (die : Side) (pec : Bool) (target : Byte)
  /-- REG_READ (R108): SMBus read of a permitted BAR0 register. -/
  | regRead (die : Side) (pec : Bool) (off : W32)
  /-- REG_WRITE (R108): SMBus write of a PWR_ register or HUB_TELEM_CTRL. -/
  | regWrite (die : Side) (pec : Bool) (off : W32) (v : W32)
  /-- BYPASS (R109): IEEE 1149.1 BYPASS instruction. -/
  | bypass (die : Side)
  /-- IDCODE (R109): IEEE 1149.1 instruction returning the IDCODE. -/
  | idcode (die : Side)
  /-- SAMPLE_PRELOAD (R109): IEEE 1149.1 SAMPLE/PRELOAD instruction. -/
  | samplePreload (die : Side)
  /-- EXTEST (R110): IEEE 1149.1 EXTEST instruction, decoded as BYPASS while enabled. -/
  | extest (die : Side)
  /-- CLAMP (R110): IEEE 1149.1 CLAMP instruction. -/
  | clamp (die : Side)
  /-- HIGHZ (R110): IEEE 1149.1 HIGHZ instruction. -/
  | highz (die : Side)
  /-- WRAPPER_SELECT (R109): Selects the IEEE 1500 wrappers of the hub die and its base dies. -/
  | wrapperSelect (die : Side)
  /-- TEST_RAW_WRITE (R302): Wrapper raw write that bypasses ECC and marks codewords ECC-unknown. -/
  | testRawWrite (ch : Fin 640) (off : W32) (data : List Byte)
  /-- PASS2_START (R244): Device starts a speculative or verdict pass 2 on a held window once slot, verdict and statistics allow. -/
  | pass2Start (w : BitVec 19)
  /-- PASS2_END (R267): A window's pass 2 ends with its digest formed and moves to SPEC_READY or COMMITTING. -/
  | pass2End (w : BitVec 19)
  /-- COMMIT_REMAP (R254): Once the journal holds the commit record, the window map is remapped in one cycle. -/
  | commitRemap (w : BitVec 19)
  /-- STASH_COPY_DONE (R80): The retiring W array has been copied into its stash slot. -/
  | stashCopyDone (w : BitVec 19)
  /-- SLOT_RELEASE (R78): A state slot returns to the pool once its reads and stash references end. -/
  | slotRelease (stk : Fin 20) (slot : BitVec 20)
  /-- STATS_COMBINE (R201): Once every window has reported, row and column partials are combined and written to every stack. -/
  | statsCombine (tensor : BitVec 24)
  /-- WINDOW_DRAIN (R199): Drain of a window starts once every closing-epoch value has been applied. -/
  | windowDrain (w : BitVec 19)
  /-- UPD_REINIT (R238): UPD_CTRL.reinit stops the update engine and its commands. -/
  | updReinit (stk : Fin 20)
  /-- UPD_CLEAR_COUNTERS (R237): UPD_CTRL.clear_counters clears the engine counters. -/
  | updClearCounters (stk : Fin 20)
  /-- ADD (R221): Rule instruction d = a + b. -/
  | rAdd (at_ : LaneAt) (d : BitVec 4) (a : BitVec 6) (b : BitVec 6) (q : RPred)
  /-- SUB (R221): Rule instruction d = a - b. -/
  | rSub (at_ : LaneAt) (d : BitVec 4) (a : BitVec 6) (b : BitVec 6) (q : RPred)
  /-- MUL (R221): Rule instruction d = a × b. -/
  | rMul (at_ : LaneAt) (d : BitVec 4) (a : BitVec 6) (b : BitVec 6) (q : RPred)
  /-- FMA (R221): Rule instruction d = a × b + c with one rounding. -/
  | rFma (at_ : LaneAt) (d : BitVec 4) (a : BitVec 6) (b : BitVec 6) (c : BitVec 6) (q : RPred)
  /-- FNMA (R221): Rule instruction d = c - a × b with one rounding. -/
  | rFnma (at_ : LaneAt) (d : BitVec 4) (a : BitVec 6) (b : BitVec 6) (c : BitVec 6) (q : RPred)
  /-- DIV (R221): Rule instruction d = a / b. -/
  | rDiv (at_ : LaneAt) (d : BitVec 4) (a : BitVec 6) (b : BitVec 6) (q : RPred)
  /-- SQRT (R221): Rule instruction square root. -/
  | rSqrt (at_ : LaneAt) (d : BitVec 4) (a : BitVec 6) (q : RPred)
  /-- RSQRT (R221): Rule instruction reciprocal square root with one rounding. -/
  | rRsqrt (at_ : LaneAt) (d : BitVec 4) (a : BitVec 6) (q : RPred)
  /-- MAX (R221): Rule instruction larger of two operands. -/
  | rMax (at_ : LaneAt) (d : BitVec 4) (a : BitVec 6) (b : BitVec 6) (q : RPred)
  /-- MIN (R221): Rule instruction smaller of two operands. -/
  | rMin (at_ : LaneAt) (d : BitVec 4) (a : BitVec 6) (b : BitVec 6) (q : RPred)
  /-- ABS (R221): Rule instruction that clears the sign bit. -/
  | rAbs (at_ : LaneAt) (d : BitVec 4) (a : BitVec 6) (q : RPred)
  /-- NEG (R221): Rule instruction that inverts the sign bit. -/
  | rNeg (at_ : LaneAt) (d : BitVec 4) (a : BitVec 6) (q : RPred)
  /-- SIGN (R221): Rule instruction giving the sign of a value. -/
  | rSign (at_ : LaneAt) (d : BitVec 4) (a : BitVec 6) (q : RPred)
  /-- MOV (R221): Rule instruction that moves an operand into a register. -/
  | rMov (at_ : LaneAt) (d : BitVec 4) (a : BitVec 6) (q : RPred)
  /-- CLT (R221): Rule compare less-than into a predicate. -/
  | rClt (at_ : LaneAt) (d : BitVec 2) (a : BitVec 6) (b : BitVec 6) (q : RPred)
  /-- CLE (R221): Rule compare less-or-equal into a predicate. -/
  | rCle (at_ : LaneAt) (d : BitVec 2) (a : BitVec 6) (b : BitVec 6) (q : RPred)
  /-- CEQ (R221): Rule compare equal into a predicate. -/
  | rCeq (at_ : LaneAt) (d : BitVec 2) (a : BitVec 6) (b : BitVec 6) (q : RPred)
  /-- PAND (R221): Rule predicate AND. -/
  | rPand (at_ : LaneAt) (d : BitVec 2) (a : BitVec 2) (b : BitVec 2) (q : RPred)
  /-- POR (R221): Rule predicate OR. -/
  | rPor (at_ : LaneAt) (d : BitVec 2) (a : BitVec 2) (b : BitVec 2) (q : RPred)
  /-- PNOT (R221): Rule predicate NOT. -/
  | rPnot (at_ : LaneAt) (d : BitVec 2) (a : BitVec 2) (q : RPred)
  /-- LDW (R222): Rule load of W or the master. -/
  | rLdw (at_ : LaneAt) (d : BitVec 4) (mst : Bool) (q : RPred)
  /-- LDG (R222): Rule load of the gradient, +0 for blocks that are not current. -/
  | rLdg (at_ : LaneAt) (d : BitVec 4) (q : RPred)
  /-- LDM (R222): Rule load of the decoded M8 moment. -/
  | rLdm (at_ : LaneAt) (d : BitVec 4) (q : RPred)
  /-- LDB (R222): Rule load of the block's rule_byte. -/
  | rLdb (at_ : LaneAt) (d : BitVec 4) (q : RPred)
  /-- FAC (R232): Rule load of the factored second-moment estimate. -/
  | rFac (at_ : LaneAt) (d : BitVec 4) (q : RPred)
  /-- STW (R224): Rule store of W or the master under the state-store rule. -/
  | rStw (at_ : LaneAt) (a : BitVec 4) (srm : Bool) (q : RPred)
  /-- STM (R225): Rule store of the moments and the block scale. -/
  | rStm (at_ : LaneAt) (a : BitVec 4) (srm : Bool)
  /-- STB (R226): Rule store of the rule_byte. -/
  | rStb (at_ : LaneAt) (a : BitVec 4)
  /-- STE (R228): Rule store of the E8 mirror. -/
  | rSte (at_ : LaneAt) (a : BitVec 4) (f : BitVec 2)
  /-- FSTAT (R231): Statistics prologue that folds the step's sums into the speculative R and C buffers. -/
  | rFstat (w : BitVec 19) (a : BitVec 6) (b : BitVec 6) (c : BitVec 6)
  /-- NEWT_WINDOW_JOB_WRITE (R280): Hub-side write to the JOB entry of a newt window. -/
  | newtWindowJobWrite (ch : Fin 640) (off : Nat) (data : List Byte)
  /-- NEWT_WINDOW_GO (R282): Write to GO that checks and submits the staging descriptor. -/
  | newtWindowGo (ch : Fin 640) (size : Nat) (v : W64)
  /-- NEWT_WINDOW_SCRATCHPAD (R280): Hub-side access to the scratchpad view of a newt window. -/
  | newtWindowScratchpad (ch : Fin 640) (off : Nat) (size : Nat) (write : Option (List Byte))
  /-- NWT_GO (R294): BAR0 write that submits NWT_DESC as a job. -/
  | nwtGo (ch : Fin 640) (tag : W32)
  /-- NWT_REINIT (R303): NWT_CTRL.reinit ends a newt's jobs and empties its chain buffer. -/
  | nwtReinit (ch : Fin 640)
  /-- NWT_CLEAR_COUNTERS (R304): NWT_CTRL.clear_counters clears the newt counters. -/
  | nwtClearCounters (ch : Fin 640)
  /-- DOT_JOB (R287): Newt DOT job over rows with accumulator modes and the output stage. -/
  | dotJob (ch : Fin 640)
  /-- ATTEND_JOB (R289): Newt ATTEND job computing softmax attention over tiles. -/
  | attendJob (ch : Fin 640)
  /-- TADPOLE_JOB (R296): Newt job that runs a tadpole program. -/
  | tadpoleJob (ch : Fin 640)
  /-- CHAIN_RECORD (R295): A chain record arrives from the predecessor and is merged or received. -/
  | chainRecord (ch : Fin 640)
  /-- LDV (R296): Tadpole load of 64 elements. -/
  | tLdv (ch : Fin 640) (f1 : BitVec 3) (f2 : BitVec 3) (adv : Bool)
  /-- STV (R296): Tadpole store of 64 lanes through the output stage. -/
  | tStv (ch : Fin 640) (f1 : BitVec 3) (f2 : BitVec 3) (adv : Bool) (rto : Bool)
  /-- TADPOLE_DOT (R296): Tadpole R47 pass over 64 element pairs into one lane. -/
  | tDot (ch : Fin 640) (f1 : BitVec 3) (f2 : BitVec 3) (f3 : BitVec 3) (lane : BitVec 6) (adv : Bool)
  /-- VADD (R296): Tadpole lane-wise add. -/
  | tVadd (ch : Fin 640) (f1 : BitVec 3) (f2 : BitVec 3) (f3 : BitVec 3)
  /-- VSUB (R296): Tadpole lane-wise subtract. -/
  | tVsub (ch : Fin 640) (f1 : BitVec 3) (f2 : BitVec 3) (f3 : BitVec 3)
  /-- VMUL (R296): Tadpole lane-wise multiply. -/
  | tVmul (ch : Fin 640) (f1 : BitVec 3) (f2 : BitVec 3) (f3 : BitVec 3)
  /-- VFMA (R296): Tadpole lane-wise fused multiply-add. -/
  | tVfma (ch : Fin 640) (f1 : BitVec 3) (f2 : BitVec 3) (f3 : BitVec 3)
  /-- VDIV (R296): Tadpole lane-wise divide. -/
  | tVdiv (ch : Fin 640) (f1 : BitVec 3) (f2 : BitVec 3) (f3 : BitVec 3)
  /-- VMAX (R296): Tadpole lane-wise maximum. -/
  | tVmax (ch : Fin 640) (f1 : BitVec 3) (f2 : BitVec 3) (f3 : BitVec 3)
  /-- VMIN (R296): Tadpole lane-wise minimum. -/
  | tVmin (ch : Fin 640) (f1 : BitVec 3) (f2 : BitVec 3) (f3 : BitVec 3)
  /-- VEXP (R276): Tadpole exponential through the softmax helper. -/
  | tVexp (ch : Fin 640) (f1 : BitVec 3) (f2 : BitVec 3)
  /-- RMAX (R296): Tadpole reduction to the largest lane. -/
  | tRmax (ch : Fin 640) (f1 : BitVec 3) (f2 : BitVec 3)
  /-- RSUM (R296): Tadpole tree sum over lanes. -/
  | tRsum (ch : Fin 640) (f1 : BitVec 3) (f2 : BitVec 3)
  /-- BCAST (R296): Tadpole broadcast of one lane. -/
  | tBcast (ch : Fin 640) (f1 : BitVec 3) (f2 : BitVec 3) (lane : BitVec 6)
  /-- VRND (R296): Tadpole rounding to a format and widening back. -/
  | tVrnd (ch : Fin 640) (f1 : BitVec 3) (f2 : BitVec 3) (fmt : BitVec 3)
  /-- VKEEP (R297): Tadpole dropout masking against a threshold. -/
  | tVkeep (ch : Fin 640) (f1 : BitVec 3) (f2 : BitVec 3) (f3 : BitVec 3)
  /-- SETS (R296): Tadpole counter set. -/
  | tSets (ch : Fin 640) (f1 : BitVec 3) (imm : BitVec 17)
  /-- ADDA (R296): Tadpole pointer advance. -/
  | tAdda (ch : Fin 640) (f1 : BitVec 3) (imm : BitVec 17)
  /-- SETA (R296): Tadpole pointer copy. -/
  | tSeta (ch : Fin 640) (f1 : BitVec 3) (f2 : BitVec 3)
  /-- LOOP (R296): Tadpole counter decrement and branch. -/
  | tLoop (ch : Fin 640) (f1 : BitVec 3) (target : BitVec 8)
  /-- CSEND (R296): Tadpole send of a chain record. -/
  | tCsend (ch : Fin 640) (f1 : BitVec 3) (n : BitVec 7)
  /-- CRECV (R296): Tadpole receive of a chain record. -/
  | tCrecv (ch : Fin 640) (f1 : BitVec 3)
  /-- RAND (R296): Tadpole mist random slice per lane. -/
  | tRand (ch : Fin 640) (f1 : BitVec 3) (purpose : BitVec 4)
  /-- END (R297): Tadpole end of job. -/
  | tEnd (ch : Fin 640)
  /-- GRANT (R298): The admission unit gives a bank-compute grant to a waiting channel. -/
  | grant (stk : Fin 20)
  /-- GRANT_WINDOW_END (R298): A 1 µs bank-compute window runs out. -/
  | grantWindowEnd (ch : Fin 640)
  /-- REFRESH_DUE (R299): A refresh falls due and suspends a streaming newt at a granule boundary. -/
  | refreshDue (ch : Fin 640) (forced : Bool)
  /-- REFRESH_DONE (R299): Refreshes end and the suspended newt requests a grant and resumes. -/
  | refreshDone (ch : Fin 640)
  /-- TEMPERATURE_SAMPLE (R310): 16 µs sensor read that sets refresh interval and thermal limits. -/
  | temperatureSample (ch : Fin 640) (t : Byte)
  /-- ROW_SPARE (R312): Error-triggered copy of a DRAM row to a spare row. -/
  | rowSpare (ch : Fin 640) (bank : Nat) (row : Nat) (off : W32) (uncorrectable : Bool)
  /-- CHANNEL_RETIRE (R313): STK_CHAN_RETIRE.go retires a channel and starts its rebuild. -/
  | channelRetire (stk : Fin 20)
  /-- CHANNEL_REBUILD_DONE (R313): The retired channel's granules have been refilled and the stack leaves rebuild. -/
  | channelRebuildDone (stk : Fin 20)
  /-- PARITY_DELTA (R319): A parity delta arrives at the parity stack and is XORed into parity. -/
  | parityDelta (stk : Fin 20)
  /-- PARITY_LOG_REPLAY (R319): Logged deltas are applied in order when the parity stack returns. -/
  | parityLogReplay (stk : Fin 20)
  /-- STACK_REBUILD (R320): A stack that lost its contents is rebuilt from parity when it returns. -/
  | stackRebuild (stk : Fin 20)
  /-- LINK_RESET_EXPIRY (R320): A stack in link reset for more than 32 ms loses its contents. -/
  | linkResetExpiry (stk : Fin 20)
  /-- RETRAIN_PRIMARY (R307): STK_LINK_CTRL.retrain_primary retrains the primary link via the standby. -/
  | retrainPrimary (stk : Fin 20)
  /-- RETRAIN_STANDBY (R308): STK_LINK_CTRL.retrain_standby retrains the standby link. -/
  | retrainStandby (stk : Fin 20)
  /-- STACK_REPLAY_BURST (R307): More than 64 link replays within 1 ms trigger primary retraining. -/
  | stackReplayBurst (stk : Fin 20)
  /-- LANE_CHECK_FAILURE (R307): A lane fails its continuous check and the link retrains. -/
  | laneCheckFailure (stk : Fin 20) (standby : Bool)
  /-- RETRAIN_DONE (R307): Retraining ends and traffic returns to the primary link. -/
  | retrainDone (stk : Fin 20) (standby : Bool) (failed : Nat) (dur : Nat)
  /-- MARGIN (R309): STK_LINK_CTRL.margin starts a lane margin measurement. -/
  | margin (stk : Fin 20)
  /-- SLOW_MARGIN (R309): HUB_SLOW_MARGIN.go starts a slow-tier lane margin measurement. -/
  | slowMargin (die : Side)
  /-- MARGIN_DWELL_END (R309): The dwell ends, the lane returns to its trained point and done sets. -/
  | marginDwellEnd (unit : MarginUnit) (errors : Nat)
  /-- PROMOTION_DONE (R322): A window's slow-tier image has been read into a promotion slot and it becomes resident. -/
  | promotionDone (w : BitVec 19) (ok : Bool)
  /-- WRITE_BACK_START (R323): Device starts write-back of a promoted window once it is quiet and unread. -/
  | writeBackStart (w : BitVec 19)
  /-- WRITE_BACK_DONE (R323): Write-back ends, the window is no longer resident and the slot is freed. -/
  | writeBackDone (w : BitVec 19)
  /-- TENANT_KEY_WRITE (R326): Write of an XTS-AES key word to a tenant key slot. -/
  | tenantKeyWrite (slot : Fin 4) (word : Fin 16) (v : W32)
  /-- TENANT_SLOT_CLEAR (R326): HUB_TENANT_SLOT.clear erases both keys of a slot. -/
  | tenantSlotClear (slot : Fin 4)
  /-- NULL_FRAME (R338): Unsequenced frame carrying ack, nak and a credit total. -/
  | nullFrame (p : Fin 12) (f : Frame)
  /-- NULL_SEND_TIMER (R338): After 100 ns with an unreported ack or total, a NULL frame is sent. -/
  | nullSendTimer (p : Fin 12)
  /-- ACK_TIMEOUT (R341): 4 µs without a freeing ack starts a replay. -/
  | ackTimeout (p : Fin 12)
  /-- HELLO (R344): HELLO frame exchanged after lane training; the link goes UP. -/
  | hello (p : Fin 12) (f : Frame)
  /-- HELLO_TIMER (R344): HELLO resent every 10 µs until seen. -/
  | helloTimer (p : Fin 12)
  /-- RESET_FRAME (R342): RESET frame from the partner causes a link reset. -/
  | resetFrame (p : Fin 12) (f : Frame)
  /-- FAB_PORT_RESET (R342): FAB_PORT_CTRL.reset resets a fabric link. -/
  | fabPortReset (p : Fin 12)
  /-- LANE_ALIGNMENT_LOSS (R342): Loss of lane alignment causes a fabric link reset. -/
  | laneAlignmentLoss (p : Fin 12)
  /-- UNCORRECTED_BLOCK_BURST (R342): More than 1,000 uncorrectable blocks within 1 ms cause a link reset. -/
  | uncorrectedBlockBurst (p : Fin 12) (n : Nat)
  /-- LANE_TRAINING_DONE (R332): Fabric lane training ends in a permitted form or the port stays DOWN. -/
  | laneTrainingDone (p : Fin 12) (form : Option LaneForm)
  /-- LINK_UP_TIMEOUT (R343): A link not UP 4 ms after reset becomes FAILED. -/
  | linkUpTimeout (p : Fin 12)
  /-- DEPART_WAIT_EXPIRY (R346): At disable, after the replay buffer empties or 1 ms passes, DEPART is sent. -/
  | departWaitExpiry (p : Fin 12)
  /-- WRITE (R355): Fabric WRITE message applied at the destination. -/
  | write (p : Fin 13) (m : Msg)
  /-- READ (R355): Fabric READ message served at the destination. -/
  | read (p : Fin 13) (m : Msg)
  /-- WRITE_ACK (R355): Response carrying the status of a remote write. -/
  | writeAck (p : Fin 13) (m : Msg)
  /-- READ_DATA (R355): Response carrying status and data of a remote read. -/
  | readData (p : Fin 13) (m : Msg)
  /-- FENCE_REQ (R355): Destination does its complex-scope release work and answers. -/
  | fenceReq (p : Fin 13) (m : Msg)
  /-- FENCE_ACK (R355): Acknowledgement of a fabric fence request. -/
  | fenceAck (p : Fin 13) (m : Msg)
  /-- FAB_SIGNAL (R355): SIGNAL message that sets a sync object at the destination. -/
  | fabSignal (p : Fin 13) (m : Msg)
  /-- FAB_QUEUE_PUSH (R156): QUEUE_PUSH message appending an entry to a queue at the destination. -/
  | fabQueuePush (p : Fin 13) (m : Msg)
  /-- PUSH_ACK (R355): Response to a remote queue push. -/
  | pushAck (p : Fin 13) (m : Msg)
  /-- RS_BLOCKS (R356): Reduce-scatter contribution added at the owner unless its rank was already applied. -/
  | rsBlocks (p : Fin 13) (m : Msg)
  /-- RS_RECEIPT (R210): Reduced G received and written by a non-owner. -/
  | rsReceipt (p : Fin 13) (m : Msg)
  /-- NORM_SUM (R357): Shard sum received for a NORM. -/
  | normSum (p : Fin 13) (m : Msg)
  /-- DIGEST (R357): Digest entries received for an audit. -/
  | digest (p : Fin 13) (m : Msg)
  /-- LEAVES (R357): Part of a window's leaf list received. -/
  | leaves (p : Fin 13) (m : Msg)
  /-- AG_QUERY (R358): ALL_GATHER query; the node selects and holds versions. -/
  | agQuery (p : Fin 13) (m : Msg)
  /-- AG_REPLY (R358): ALL_GATHER reply to a query. -/
  | agReply (p : Fin 13) (m : Msg)
  /-- AG_DATA (R358): ALL_GATHER image data written to the destination. -/
  | agData (p : Fin 13) (m : Msg)
  /-- AG_RELEASE (R358): ALL_GATHER release of held slots without writing. -/
  | agRelease (p : Fin 13) (m : Msg)
  /-- AG_QUERY_TIMEOUT (R358): Slots held for a query unanswered by phase 2 within 20 ms are released. -/
  | agQueryTimeout (tag : W16)
  /-- FETCH (R357): Repair or rebuild read served at a peer. -/
  | fetch (p : Fin 13) (m : Msg)
  /-- FETCH_DATA (R271): Fetched slot data arrives for a repair or replica rebuild. -/
  | fetchData (p : Fin 13) (m : Msg)
  /-- ELECT (R347): Election message that may update the best key, distance and parent. -/
  | elect (p : Fin 13) (m : Msg)
  /-- ELECTION_SETTLE (R347): No ELECT change for 200 µs makes the best-key node root. -/
  | electionSettle
  /-- HEARTBEAT (R348): Root HEARTBEAT received, answered with TOPO. -/
  | heartbeat (p : Fin 13) (m : Msg)
  /-- HEARTBEAT_TIMER (R348): The root sends HEARTBEAT every 1 ms. -/
  | heartbeatTimer
  /-- HEARTBEAT_TIMEOUT (R349): No HEARTBEAT for 10 ms starts a new election. -/
  | heartbeatTimeout
  /-- TOPO (R348): Topology report forwarded toward and collected at the root. -/
  | topo (p : Fin 13) (m : Msg)
  /-- COLLECTION_CLOSE (R348): The root closes collection and assigns node ids. -/
  | collectionClose
  /-- ASSIGN (R349): Node id assignment from the root. -/
  | assign (p : Fin 13) (m : Msg)
  /-- TABLE (R349): Routing tables installed on both hub dies and acknowledged. -/
  | table (p : Fin 13) (m : Msg)
  /-- TABLE_ACK (R349): Acknowledgement of table installation at the root. -/
  | tableAck (p : Fin 13) (m : Msg)
  /-- LINK_CHANGE (R349): Port change report that makes the root collect again. -/
  | linkChange (p : Fin 13) (m : Msg)
  /-- SALVAGE (R353): Request to salvage held messages of a failed port. -/
  | salvage (p : Fin 13) (m : Msg)
  /-- SALVAGE_TIMEOUT (R353): No salvage reply within 2 ms discards held messages. -/
  | salvageTimeout (p : Fin 12)
  /-- REQUEST_TIMEOUT (R354): A request without response after 20 ms makes its node unreachable. -/
  | requestTimeout (tag : W16)
  /-- IMAGE_PUSH (R126): Link-local image push message loaded into staging. -/
  | imagePush (p : Fin 13) (m : Msg)
  /-- IMAGE_PUSH_ACK (R359): Response to an image push message. -/
  | imagePushAck (p : Fin 13) (m : Msg)
  /-- DEPART (R346): Departure notice that takes the port DOWN. -/
  | depart (p : Fin 13) (m : Msg)
  /-- FAB_PUSH_GO (R359): FAB_PUSH_CTRL.go starts an image push to the link partner. -/
  | fabPushGo (p : Fin 12)
  /-- MODULE_BRINGUP (R133): UCIe module bring-up with die-to-die version negotiation. -/
  | moduleBringup (m : Fin 64) (major : Byte) (minor : Byte)
  /-- CORE_ALIVE_FALL (R369): The twin's core_alive falls and the die suspects it. -/
  | coreAliveFall (die : Side)
  /-- BRIDGE_HEARTBEAT (R369): Heartbeat sent across the hub bridge every 10 µs. -/
  | bridgeHeartbeat (die : Side)
  /-- HEARTBEAT_MISS (R369): No bridge heartbeat for 1 ms: bridge loss or twin suspicion. -/
  | heartbeatMiss (die : Side)
  /-- BRIDGE_RESTORED (R17): The hub bridge retrains; shared marks clear and held events are forwarded. -/
  | bridgeRestored
  /-- WATCHDOG_EXPIRY (R369): The hub-core watchdog misses 1 ms and core_alive drops. -/
  | watchdogExpiry (die : Side)
  /-- SRAM_UNCORRECTABLE (R369): Uncorrectable error in hub SRAM control state drops core_alive. -/
  | sramUncorrectable (die : Side)
  /-- FENCE_TWIN (R370): HUB_TWIN_CTRL.fence_twin raises fence toward the twin. -/
  | fenceTwin (die : Side)
  /-- FENCE_RECEIVED (R370): The fence line is raised and the twin's always-on domain fences its core. -/
  | fenceReceived (die : Side)
  /-- FENCE_ANSWER_TIMEOUT (R370): No fence answer within 10 ms: the twin is treated as fenced without relay. -/
  | fenceAnswerTimeout (die : Side)
  /-- FAILOVER (R372): Survivor becomes master and arbiter and rebuilds the adopted stacks' state. -/
  | failover (die : Side)
  /-- OWNER_CHANGE_REQUEST (R371): A base die accepts or refuses a change of owner. -/
  | ownerChangeRequest (stk : Fin 20) (quiet : Bool)
  /-- RESET_TWIN (R382): HUB_TWIN_CTRL.reset_twin fences if needed and resets the twin's core. -/
  | resetTwin (die : Side)
  /-- REJOIN (R377): HUB_TWIN_CTRL.rejoin releases the fenced core and hands stacks back. -/
  | rejoin (die : Side) (selfTest : Bool) (bridge : Bool)
  /-- RESET_COMPLEX (R384): HUB_TWIN_CTRL.reset_complex with key 0xC5 performs rung 4. -/
  | resetComplex (die : Side) (key : Byte)
  /-- JOURNAL_RECORD (R366): A record reaches the journal master, is numbered, written and sent to the mirror. -/
  | journalRecord
  /-- MIRROR_ACK (R366): The mirror acknowledges a record and the change takes effect. -/
  | mirrorAck
  /-- PWR_CTRL_GO (R405): PWR_CTRL.go moves the die to its target power state. -/
  | pwrCtrlGo (die : Side)
  /-- DEW_IDLE_EXPIRY (R387): The die has been idle for dew_idle_us and enters Dew. -/
  | dewIdleExpiry (die : Side)
  /-- WAKE (R389): A wake cause in Dew holds the request and starts Thaw. -/
  | wake (die : Side) (cause : BitVec 4)
  /-- THAW_DONE (R387): Fast clocks and DRAM are up and the die reaches Run. -/
  | thawDone (die : Side) (us : W16)
  /-- GOVERNOR_SAMPLE (R394): 10 µs sample of rail currents into the running window. -/
  | governorSample (tile : Nat) (dieA : Nat) (dieB : Nat) (stks : List Nat)
  /-- GOVERNOR_STEP (R394): Every 100 µs the governor lowers or restores admission and throttle. -/
  | governorStep
  /-- HUB_TEMPERATURE (R395): Junction temperature crossing throttles or resets the hub core. -/
  | hubTemperature (die : Side) (t : Byte)
  /-- RAIL_WARNING (R397): A rail crosses warning, starting a throttled hold that holds commits. -/
  | railWarning (die : Side) (rail : Nat) (mv : Nat)
  /-- DIP_HOLD_END (R397): The 1 ms hold ends, PWR_SUPPLY_DIP is raised and held commits may be deferred. -/
  | dipHoldEnd (die : Side)
  /-- DEFERRED_COMMIT_RELEASE (R397): After 1 ms above warning, deferred commits apply. -/
  | deferredCommitRelease (die : Side)
  /-- RAIL_RESET (R398): A rail crosses its reset level with the effect listed for it. -/
  | railReset (die : Side) (rail : Nat) (mv : Nat)
  /-- PG_IN_RISE (R400): PG_IN rises and the die proceeds through Thaw to Run. -/
  | pgInRise (die : Side)
  /-- PG_IN_FALL (R398): PG_IN falls while PWR_REQ is high, acting as a reset of the second group. -/
  | pgInFall (die : Side)
  /-- AON_RST_N_RELEASE (R400): Always-on reset release: straps sampled, fuses loaded, PWR_REQ raised. -/
  | aonRstRelease (die : Side) (straps : Straps)
  /-- STARTUP_DONE (R400): Training ends and the die reaches Run at start-up or on leaving Frost. -/
  | startupDone (die : Side) (t : Trained)
  /-- TILE_RST_N (R402): TILE_RST_N low for at least 1 µs resets the complex. -/
  | tileRst
  /-- PERST_N (R401): PERST_N resets one PCIe endpoint and starts link training or leaves Frost. -/
  | perst (port : Side) (high : Bool)
  /-- SEQUENCED_FRAME (R339): A HEAD or CONT frame arrives and is accepted, discarded as a duplicate, or discarded out of order with a nak, while its ack, nak and credit total are taken. -/
  | sequencedFrame (p : Fin 12) (f : Frame)
  /-- RAIL_ABOVE_WARNING (R397): A rail that crossed its warning level rises back above it, releasing held commits within the hold or starting the 1 ms wait for deferred ones. -/
  | railAboveWarning (die : Side) (rail : Nat) (us : Nat)
  /-- STACK_REBUILD_DONE (R320): A parity rebuild of a stack ends and its windows are unfenced with STK_REBUILD_DONE. -/
  | stackRebuildDone (stk : Fin 20)
  /-- AON_RST_N_ASSERT (R402): AON_RST_N is driven low and performs a power-on reset of the whole hub die, always-on domain included. -/
  | aonRstAssert (die : Side)
  /-- MSIX_UNMASK (R90): Clearing a function or vector mask sends the message of a vector whose pending bit is set. -/
  | msixUnmask (port : Side) (vec : Option (Fin 64))
  /-- UCIE_MODULE_FAILURE (R133): A UCIe module link to a compute die fails, and it retrains or stays down. -/
  | ucieModuleFailure (m : Fin 64) (retrained : Bool)
  deriving DecidableEq, Repr

end Sys2Proof
end

