-- ==== Sys2Proof/WellFormed.lean ====
section
/-!
DEFINITION. Which commands are well formed: the operand codes of rule instructions (Table 9.3, R219), the immediate
fields of tadpole instructions (Table 11.7), and the sizes of data operands.
-/
namespace Sys2Proof

/-- An operand code that Table 9.3 does not reserve. -/
def rcodeOk (a : BitVec 6) : Bool := decide (a.toNat < 0x35)

/-- An operand code that names a constant c0 to c31. -/
def rconstOk (a : BitVec 6) : Bool := decide (0x10 ≤ a.toNat) && decide (a.toNat < 0x30)

/-- pn and p are zero whenever pe is 0 (R219). -/
def RPred.ok (q : RPred) : Bool := q.pe || (!q.pn && decide (q.p = 0#2))

/-- VRND takes formats 0 to 4 (Table 11.7). -/
def vrndOk (f : BitVec 3) : Bool := decide (f.toNat ≤ 4)

/-- CSEND sends at most the 64 lanes of a register (Table 11.7). -/
def csendOk (n : BitVec 7) : Bool := decide (n.toNat ≤ 64)

/-- Data of a write is as long as its size says. -/
def sizeOk (size : Nat) (d : Option (List Byte)) : Bool :=
  match d with
  | some l => decide (l.length = size)
  | none => true

/-- A frame carries at most the 256-byte payload of R333. -/
def frameOk (f : Frame) : Bool := decide (f.payload.length ≤ 256)

/-- A message's size field counts its data bytes. -/
def msgOk (m : Msg) : Bool := decide (m.data.length ≤ m.size)

/-- Rule operand lists are well formed. -/
def rule2 (a b : BitVec 6) (q : RPred) : Bool := rcodeOk a && rcodeOk b && q.ok

/-- Well-formed commands. -/
def Instr.wf : Instr → Bool
  | .rAdd _ _ a b q | .rSub _ _ a b q | .rMul _ _ a b q | .rDiv _ _ a b q | .rMax _ _ a b q | .rMin _ _ a b q
  | .rClt _ _ a b q | .rCle _ _ a b q | .rCeq _ _ a b q => rule2 a b q
  | .rFma _ _ a b c q | .rFnma _ _ a b c q => rule2 a b q && rcodeOk c
  | .rSqrt _ _ a q | .rRsqrt _ _ a q | .rAbs _ _ a q | .rNeg _ _ a q | .rSign _ _ a q | .rMov _ _ a q =>
      rcodeOk a && q.ok
  | .rPand _ _ _ _ q | .rPor _ _ _ _ q | .rPnot _ _ _ q | .rLdw _ _ _ q | .rLdg _ _ q | .rLdm _ _ q | .rLdb _ _ q
  | .rFac _ _ q | .rStw _ _ _ q => q.ok
  | .rFstat _ a b c => rconstOk a && rconstOk b && rconstOk c
  | .tVrnd _ _ _ f => vrndOk f
  | .tCsend _ _ n => csendOk n
  | .gradAdd _ _ vals => decide (vals.length ≤ 512)
  | .apertureAccess _ _ size w | .newtWindowScratchpad _ _ size w => sizeOk size w
  | .sequencedFrame _ f | .nullFrame _ f | .hello _ f | .resetFrame _ f => frameOk f
  | .write _ m | .readData _ m | .fabQueuePush _ m | .imagePush _ m | .agData _ m | .fetchData _ m => msgOk m
  | _ => true

end Sys2Proof
end

