-- ==== Sys2Proof/Decode.lean ====
section
/-!
DEFINITION. Decoding. The opcode table gives its rows no bits, so no word spells a command. The words that the spec
does encode, the rule-program words (Tables 9.2 to 9.4, R219) and the tadpole words (R296, Table 11.7), have their
decoders and encoders here.
-/
namespace Sys2Proof

/-- The command a word spells by the opcode table's bits: the table gives no row any bits. -/
def decodeTableWord (_nbits _w : Nat) : Option Instr := none

/-! ### Rule-program words -/

inductive Alu2 where
  | add | sub | mul | div | max | min
  deriving DecidableEq, Repr

inductive Alu3 where
  | fma | fnma
  deriving DecidableEq, Repr

inductive Alu1 where
  | sqrt | rsqrt | abs | neg | sign | mov
  deriving DecidableEq, Repr

inductive Cmp where
  | clt | cle | ceq
  deriving DecidableEq, Repr

/-- A decoded rule instruction (Table 9.4). -/
inductive RInstr where
  | alu2 (op : Alu2) (d : BitVec 4) (a b : BitVec 6) (q : RPred)
  | alu3 (op : Alu3) (d : BitVec 4) (a b c : BitVec 6) (q : RPred)
  | alu1 (op : Alu1) (d : BitVec 4) (a : BitVec 6) (q : RPred)
  | cmp (op : Cmp) (d : BitVec 2) (a b : BitVec 6) (q : RPred)
  | pand (d a b : BitVec 2) (q : RPred)
  | por (d a b : BitVec 2) (q : RPred)
  | pnot (d a : BitVec 2) (q : RPred)
  | ldw (d : BitVec 4) (mst : Bool) (q : RPred)
  | ldg (d : BitVec 4) (q : RPred)
  | ldm (d : BitVec 4) (q : RPred)
  | ldb (d : BitVec 4) (q : RPred)
  | fac (d : BitVec 4) (q : RPred)
  | stw (a : BitVec 4) (srm : Bool) (q : RPred)
  | stm (a : BitVec 4) (srm : Bool)
  | stb (a : BitVec 4)
  | ste (a : BitVec 4) (f : BitVec 2)
  | fstat (a b c : BitVec 6)
  deriving DecidableEq, Repr

/-- Operand codes and predicate bits are of the kind the opcode takes (R219). -/
def RInstr.wf : RInstr → Bool
  | .alu2 _ _ a b q | .cmp _ _ a b q => rule2 a b q
  | .alu3 _ _ a b c q => rule2 a b q && rcodeOk c
  | .alu1 _ _ a q => rcodeOk a && q.ok
  | .pand _ _ _ q | .por _ _ _ q | .pnot _ _ q | .ldw _ _ q | .ldg _ q | .ldm _ q | .ldb _ q | .fac _ q
  | .stw _ _ q => q.ok
  | .fstat a b c => rconstOk a && rconstOk b && rconstOk c
  | .stm _ _ | .stb _ | .ste _ _ => true

def Alu2.op : Alu2 → BitVec 6
  | .add => 0x01#6 | .sub => 0x02#6 | .mul => 0x03#6 | .div => 0x06#6 | .max => 0x09#6 | .min => 0x0A#6

def Alu3.op : Alu3 → BitVec 6
  | .fma => 0x04#6 | .fnma => 0x05#6

def Alu1.op : Alu1 → BitVec 6
  | .sqrt => 0x07#6 | .rsqrt => 0x08#6 | .abs => 0x0B#6 | .neg => 0x0C#6 | .sign => 0x0D#6 | .mov => 0x0E#6

def Cmp.op : Cmp → BitVec 6
  | .clt => 0x10#6 | .cle => 0x11#6 | .ceq => 0x12#6

/-- The word of Table 9.2 from its fields. -/
def ruleWord (op : BitVec 6) (d : BitVec 4) (a b c : BitVec 6) (q : RPred) : BitVec 32 :=
  op ++ d ++ a ++ b ++ c ++ BitVec.ofBool q.pe ++ BitVec.ofBool q.pn ++ q.p

def noPred : RPred := ⟨false, false, 0#2⟩

/-- The word of a rule instruction. -/
def encodeRule : RInstr → BitVec 32
  | .alu2 op d a b q => ruleWord op.op d a b 0#6 q
  | .alu3 op d a b c q => ruleWord op.op d a b c q
  | .alu1 op d a q => ruleWord op.op d a 0#6 0#6 q
  | .cmp op d a b q => ruleWord op.op (0#2 ++ d) a b 0#6 q
  | .pand d a b q => ruleWord 0x13#6 (0#2 ++ d) (0#4 ++ a) (0#4 ++ b) 0#6 q
  | .por d a b q => ruleWord 0x14#6 (0#2 ++ d) (0#4 ++ a) (0#4 ++ b) 0#6 q
  | .pnot d a q => ruleWord 0x15#6 (0#2 ++ d) (0#4 ++ a) 0#6 0#6 q
  | .ldw d m q => ruleWord 0x20#6 d 0#6 (0#5 ++ BitVec.ofBool m) 0#6 q
  | .ldg d q => ruleWord 0x21#6 d 0#6 0#6 0#6 q
  | .ldm d q => ruleWord 0x22#6 d 0#6 0#6 0#6 q
  | .ldb d q => ruleWord 0x23#6 d 0#6 0#6 0#6 q
  | .fac d q => ruleWord 0x24#6 d 0#6 0#6 0#6 q
  | .stw a r q => ruleWord 0x28#6 0#4 (0#2 ++ a) (0#5 ++ BitVec.ofBool r) 0#6 q
  | .stm a r => ruleWord 0x29#6 0#4 (0#2 ++ a) (0#5 ++ BitVec.ofBool r) 0#6 noPred
  | .stb a => ruleWord 0x2A#6 0#4 (0#2 ++ a) 0#6 0#6 noPred
  | .ste a f => ruleWord 0x2B#6 0#4 (0#2 ++ a) (0#4 ++ f) 0#6 noPred
  | .fstat a b c => ruleWord 0x30#6 0#4 a b c noPred

/-- Reading of the fields before R219's checks; fields the opcode does not use are left to the check. -/
def readRule (w : BitVec 32) : Option RInstr :=
  let d := w.extractLsb' 22 4
  let a := w.extractLsb' 16 6
  let b := w.extractLsb' 10 6
  let c := w.extractLsb' 4 6
  let q : RPred := ⟨w.getLsbD 3, w.getLsbD 2, w.extractLsb' 0 2⟩
  let d2 := w.extractLsb' 22 2
  let a2 := w.extractLsb' 16 2
  let b2 := w.extractLsb' 10 2
  let a4 := w.extractLsb' 16 4
  let b0 := w.getLsbD 10
  match (w.extractLsb' 26 6).toNat with
  | 0x01 => some (.alu2 .add d a b q)
  | 0x02 => some (.alu2 .sub d a b q)
  | 0x03 => some (.alu2 .mul d a b q)
  | 0x04 => some (.alu3 .fma d a b c q)
  | 0x05 => some (.alu3 .fnma d a b c q)
  | 0x06 => some (.alu2 .div d a b q)
  | 0x07 => some (.alu1 .sqrt d a q)
  | 0x08 => some (.alu1 .rsqrt d a q)
  | 0x09 => some (.alu2 .max d a b q)
  | 0x0A => some (.alu2 .min d a b q)
  | 0x0B => some (.alu1 .abs d a q)
  | 0x0C => some (.alu1 .neg d a q)
  | 0x0D => some (.alu1 .sign d a q)
  | 0x0E => some (.alu1 .mov d a q)
  | 0x10 => some (.cmp .clt d2 a b q)
  | 0x11 => some (.cmp .cle d2 a b q)
  | 0x12 => some (.cmp .ceq d2 a b q)
  | 0x13 => some (.pand d2 a2 b2 q)
  | 0x14 => some (.por d2 a2 b2 q)
  | 0x15 => some (.pnot d2 a2 q)
  | 0x20 => some (.ldw d b0 q)
  | 0x21 => some (.ldg d q)
  | 0x22 => some (.ldm d q)
  | 0x23 => some (.ldb d q)
  | 0x24 => some (.fac d q)
  | 0x28 => some (.stw a4 b0 q)
  | 0x29 => some (.stm a4 b0)
  | 0x2A => some (.stb a4)
  | 0x2B => some (.ste a4 b2)
  | 0x30 => some (.fstat a b c)
  | _ => none

/-- R219: a word decodes when its fields are of the kinds the opcode takes and every other bit is zero, that is when
it is the word of the instruction its fields name. -/
def decodeRule (w : BitVec 32) : Option RInstr :=
  match readRule w with
  | some i => if i.wf && encodeRule i == w then some i else none
  | none => none

/-! ### Tadpole words -/

inductive TVec where
  | vadd | vsub | vmul | vfma | vdiv | vmax | vmin
  deriving DecidableEq, Repr

/-- A decoded tadpole instruction (Table 11.7). -/
inductive TInstr where
  | ldv (f1 f2 : BitVec 3) (adv : Bool)
  | stv (f1 f2 : BitVec 3) (adv rto : Bool)
  | dot (f1 f2 f3 : BitVec 3) (lane : BitVec 6) (adv : Bool)
  | vec (op : TVec) (f1 f2 f3 : BitVec 3)
  | vexp (f1 f2 : BitVec 3)
  | rmax (f1 f2 : BitVec 3)
  | rsum (f1 f2 : BitVec 3)
  | bcast (f1 f2 : BitVec 3) (lane : BitVec 6)
  | vrnd (f1 f2 fmt : BitVec 3)
  | vkeep (f1 f2 f3 : BitVec 3)
  | sets (f1 : BitVec 3) (imm : BitVec 17)
  | adda (f1 : BitVec 3) (imm : BitVec 17)
  | seta (f1 f2 : BitVec 3)
  | loop (f1 : BitVec 3) (target : BitVec 8)
  | csend (f1 : BitVec 3) (n : BitVec 7)
  | crecv (f1 : BitVec 3)
  | rand (f1 : BitVec 3) (purpose : BitVec 4)
  | end_
  deriving DecidableEq, Repr

def TInstr.wf : TInstr → Bool
  | .vrnd _ _ f => vrndOk f
  | .csend _ n => csendOk n
  | _ => true

def TVec.op : TVec → BitVec 6
  | .vadd => 0x08#6 | .vsub => 0x09#6 | .vmul => 0x0A#6 | .vfma => 0x0B#6 | .vdiv => 0x0C#6 | .vmax => 0x0D#6
  | .vmin => 0x0E#6

/-- The word of R296 from its fields. -/
def tadWord (op : BitVec 6) (f1 f2 f3 : BitVec 3) (imm : BitVec 17) : BitVec 32 := op ++ f1 ++ f2 ++ f3 ++ imm

def encodeTad : TInstr → BitVec 32
  | .ldv f1 f2 adv => tadWord 0x01#6 f1 f2 0#3 (0#16 ++ BitVec.ofBool adv)
  | .stv f1 f2 adv rto => tadWord 0x02#6 f1 f2 0#3 (0#15 ++ BitVec.ofBool rto ++ BitVec.ofBool adv)
  | .dot f1 f2 f3 lane adv => tadWord 0x03#6 f1 f2 f3 (0#10 ++ BitVec.ofBool adv ++ lane)
  | .vec op f1 f2 f3 => tadWord op.op f1 f2 f3 0#17
  | .vexp f1 f2 => tadWord 0x10#6 f1 f2 0#3 0#17
  | .rmax f1 f2 => tadWord 0x11#6 f1 f2 0#3 0#17
  | .rsum f1 f2 => tadWord 0x12#6 f1 f2 0#3 0#17
  | .bcast f1 f2 lane => tadWord 0x13#6 f1 f2 0#3 (0#11 ++ lane)
  | .vrnd f1 f2 fmt => tadWord 0x14#6 f1 f2 0#3 (0#14 ++ fmt)
  | .vkeep f1 f2 f3 => tadWord 0x15#6 f1 f2 f3 0#17
  | .sets f1 imm => tadWord 0x18#6 f1 0#3 0#3 imm
  | .adda f1 imm => tadWord 0x19#6 f1 0#3 0#3 imm
  | .seta f1 f2 => tadWord 0x1A#6 f1 f2 0#3 0#17
  | .loop f1 t => tadWord 0x1B#6 f1 0#3 0#3 (0#9 ++ t)
  | .csend f1 n => tadWord 0x20#6 f1 0#3 0#3 (0#10 ++ n)
  | .crecv f1 => tadWord 0x21#6 f1 0#3 0#3 0#17
  | .rand f1 p => tadWord 0x22#6 f1 0#3 0#3 (0#13 ++ p)
  | .end_ => tadWord 0x3F#6 0#3 0#3 0#3 0#17

def readTad (w : BitVec 32) : Option TInstr :=
  let f1 := w.extractLsb' 23 3
  let f2 := w.extractLsb' 20 3
  let f3 := w.extractLsb' 17 3
  let imm := w.extractLsb' 0 17
  match (w.extractLsb' 26 6).toNat with
  | 0x01 => some (.ldv f1 f2 (w.getLsbD 0))
  | 0x02 => some (.stv f1 f2 (w.getLsbD 0) (w.getLsbD 1))
  | 0x03 => some (.dot f1 f2 f3 (w.extractLsb' 0 6) (w.getLsbD 6))
  | 0x08 => some (.vec .vadd f1 f2 f3)
  | 0x09 => some (.vec .vsub f1 f2 f3)
  | 0x0A => some (.vec .vmul f1 f2 f3)
  | 0x0B => some (.vec .vfma f1 f2 f3)
  | 0x0C => some (.vec .vdiv f1 f2 f3)
  | 0x0D => some (.vec .vmax f1 f2 f3)
  | 0x0E => some (.vec .vmin f1 f2 f3)
  | 0x10 => some (.vexp f1 f2)
  | 0x11 => some (.rmax f1 f2)
  | 0x12 => some (.rsum f1 f2)
  | 0x13 => some (.bcast f1 f2 (w.extractLsb' 0 6))
  | 0x14 => some (.vrnd f1 f2 (w.extractLsb' 0 3))
  | 0x15 => some (.vkeep f1 f2 f3)
  | 0x18 => some (.sets f1 imm)
  | 0x19 => some (.adda f1 imm)
  | 0x1A => some (.seta f1 f2)
  | 0x1B => some (.loop f1 (w.extractLsb' 0 8))
  | 0x20 => some (.csend f1 (w.extractLsb' 0 7))
  | 0x21 => some (.crecv f1)
  | 0x22 => some (.rand f1 (w.extractLsb' 0 4))
  | 0x3F => some .end_
  | _ => none

/-- A tadpole word decodes when its unused fields are zero (R296). -/
def decodeTad (w : BitVec 32) : Option TInstr :=
  match readTad w with
  | some i => if i.wf && encodeTad i == w then some i else none
  | none => none

/-! ### Whole rule programs (R219, R235) -/

def RInstr.isFstat : RInstr → Bool
  | .fstat _ _ _ => true
  | _ => false

/-- Kinds of which a program holds at most one (R219). -/
def RInstr.once : RInstr → Nat
  | .fstat _ _ _ => 1
  | .stw _ _ _ => 2
  | .stm _ _ => 3
  | .stb _ => 4
  | .ste _ _ => 5
  | _ => 0

/-- Index of the first word of a program that R219 refuses; `seen` holds the kinds met so far. -/
def firstBadRule : List (BitVec 32) → Nat → List Nat → Option Nat
  | [], _, _ => none
  | w :: r, n, seen =>
    match decodeRule w with
    | none => some n
    | some i =>
      if (i.once != 0 && seen.contains i.once) || (i.isFstat && n != 0) then some n
      else firstBadRule r (n + 1) (i.once :: seen)

/-- Instructions that Pyroimet mode admits (Table 9.4, R235). -/
def RInstr.pyroOk : RInstr → Bool
  | .alu2 .div _ _ _ _ => false
  | .alu1 .sqrt _ _ _ | .alu1 .rsqrt _ _ _ => false
  | .ldw _ true _ => false
  | .ldb _ _ | .fac _ _ | .stb _ | .ste _ _ | .fstat _ _ _ => false
  | _ => true

/-- Issue cycles of an instruction (Table 9.4). -/
def RInstr.cycles : RInstr → Nat
  | .alu2 .div _ _ _ _ => 2
  | .alu1 .sqrt _ _ _ | .alu1 .rsqrt _ _ _ => 2
  | .fstat _ _ _ => 0
  | _ => 1

end Sys2Proof
end

