-- ==== Sys2Proof/Machine/Numeric.lean ====
section
/-!
DEFINITION. Number formats, rounding and arithmetic (chapter 2: R27 to R52, R276).
Every value is unpacked to an exact integer times a power of two, computed exactly and rounded once.
-/
namespace Sys2Proof.Machine

/-! ### Formats (Tables 2.1 and 2.2) -/

/-- A float format: exponent width and fraction width. The bias is 2^(eb-1)-1 in every row of Table 2.2. -/
structure Fmt where
  eb : Nat
  fb : Nat
  deriving DecidableEq, Repr

def Fmt.s16 : Fmt := ⟨8, 7⟩
def Fmt.e8a : Fmt := ⟨4, 3⟩
def Fmt.e8b : Fmt := ⟨5, 2⟩
def Fmt.f32 : Fmt := ⟨8, 23⟩
def Fmt.f64 : Fmt := ⟨11, 52⟩
/-- The 24-bit master of R32 and R33: the upper 24 bits of a binary32 pattern. -/
def Fmt.master : Fmt := ⟨8, 15⟩

def Fmt.bias (f : Fmt) : Nat := 2 ^ (f.eb - 1) - 1
/-- Pattern of +infinity: the all-ones exponent with fraction zero. -/
def Fmt.inf (f : Fmt) : Nat := (2 ^ f.eb - 1) * 2 ^ f.fb
/-- Weight of the sign bit. -/
def Fmt.sgn (f : Fmt) : Nat := 2 ^ (f.eb + f.fb)
/-- The canonical NaN of R29 and R31: exponent all ones, top fraction bit set. -/
def Fmt.nan (f : Fmt) : Nat := f.inf + 2 ^ (f.fb - 1)

/-! ### Numeric flags (Table 2.4) -/

namespace Flag
def nv : Flags := 0x01#8
def of_ : Flags := 0x02#8
def uf : Flags := 0x04#8
def nx : Flags := 0x08#8
def clamp : Flags := 0x10#8
def nanZeroed : Flags := 0x20#8
def flushed : Flags := 0x40#8
def nanSeen : Flags := 0x80#8
end Flag

/-- The flag when the condition holds, no flag otherwise. -/
def flagIf (c : Bool) (f : Flags) : Flags := if c then f else 0#8

/-! ### Unpacked values -/

/-- A value: a NaN (signalling or quiet), an infinity, or a sign with magnitude m * 2^e. -/
inductive Num where
  | nan (signalling : Bool)
  | inf (neg : Bool)
  | fin (neg : Bool) (m : Nat) (e : Int)
  deriving DecidableEq, Repr

def Num.isNan : Num → Bool
  | .nan _ => true
  | _ => false

def Num.isSnan : Num → Bool
  | .nan s => s
  | _ => false

def Num.neg? : Num → Bool
  | .nan _ => false
  | .inf n => n
  | .fin n _ _ => n

def Num.isZero : Num → Bool
  | .fin _ m _ => m == 0
  | _ => false

/-- The value with its sign inverted. -/
def Num.negate : Num → Num
  | .nan s => .nan s
  | .inf n => .inf (!n)
  | .fin n m e => .fin (!n) m e

/-- R30, R31: the value of a pattern. -/
def Fmt.unpack (f : Fmt) (bits : Nat) : Num :=
  let neg := decide (bits / f.sgn % 2 = 1)
  let mag := bits % f.sgn
  let ex := mag / 2 ^ f.fb
  let fr := mag % 2 ^ f.fb
  if mag = f.inf then .inf neg
  else if f.inf < mag then .nan (decide (fr < 2 ^ (f.fb - 1)))
  else if ex = 0 then .fin neg fr (1 - (f.bias : Int) - f.fb)
  else .fin neg (2 ^ f.fb + fr) ((ex : Int) - f.bias - f.fb)

/-! ### Rounding (R39 to R42) -/

/-- The rounding modes of R39; stochastic rounding carries its random bits.
`sr k r` compares the k-bit number r with all discarded bits; `srTop r` is the comparison of Pyroimet mode
(Table 2.7), against the upper eight discarded bits only. -/
inductive Rnd where
  | rne
  | rto
  | sr (k : Nat) (r : Nat)
  | srTop (r : Nat)
  | up
  deriving DecidableEq, Repr

/-- Does the mode carry a kept part `hi` with discarded part `rem` of `d` bits one step up? (R40's pseudocode) -/
def Rnd.carries (mode : Rnd) (hi rem d : Nat) : Bool :=
  match mode with
  | .rne => decide (2 ^ d < 2 * rem) || (decide (2 * rem = 2 ^ d) && decide (hi % 2 = 1))
  | .rto => decide (rem ≠ 0) && decide (hi % 2 = 0)
  | .sr k r => decide (r * 2 ^ d < rem * 2 ^ k)
  | .srTop r => decide (r < rem / 2 ^ (d - 8))
  | .up => decide (rem ≠ 0)

/-- Number of bits of a natural number. -/
def bitLen (m : Nat) : Nat := if m = 0 then 0 else Nat.log2 m + 1

/-- The result of rounding one magnitude: its pattern without the sign, and the flags. -/
def Fmt.roundMag (f : Fmt) (mode : Rnd) (m : Nat) (e : Int) : Nat × Flags :=
  if m = 0 then (0, 0#8)
  else
    let top : Int := e + bitLen m - 1
    let emin : Int := 1 - (f.bias : Int)
    let q : Int := (if top < emin then emin else top) - f.fb
    let d : Nat := (q - e).toNat
    let hi0 := if q ≤ e then m * 2 ^ (e - q).toNat else m / 2 ^ d
    let rem := if q ≤ e then 0 else m % 2 ^ d
    let be : Nat := (q + f.fb + f.bias).toNat
    let hi := if mode.carries hi0 rem d then hi0 + 1 else hi0
    let mag := hi + (be - 1) * 2 ^ f.fb
    let mag0 := hi0 + (be - 1) * 2 ^ f.fb
    let inexact := decide (rem ≠ 0)
    let beyond := decide (f.inf ≤ mag) || (mode == .rto && inexact && decide (f.inf ≤ mag0 + 1))
    if beyond then (f.inf, Flag.of_ ||| Flag.nx)
    else
      (mag, flagIf inexact Flag.nx ||| flagIf (inexact && decide (mag < 2 ^ f.fb)) Flag.uf)

/-- R28, R29, R31: round an exact value to a format. A NaN becomes the canonical NaN; nv is set by the caller. -/
def Fmt.round (f : Fmt) (mode : Rnd) (x : Num) : Nat × Flags :=
  match x with
  | .nan s => (f.nan, Flag.nanSeen ||| flagIf s Flag.nv)
  | .inf n => (f.inf + (if n then f.sgn else 0), 0#8)
  | .fin n m e =>
    let r := f.roundMag mode m e
    (r.1 + (if n then f.sgn else 0), r.2)

/-- Flags of reading an operand: a NaN read sets nan_seen, a signalling one also nv (Table 2.4, R28). -/
def Num.readFlags : Num → Flags
  | .nan s => Flag.nanSeen ||| flagIf s Flag.nv
  | _ => 0#8

/-- Conversion of a pattern between two formats (Table 2.3): exact widening, then one rounding. -/
def convert (src dst : Fmt) (mode : Rnd) (bits : Nat) : Nat × Flags :=
  dst.round mode (src.unpack bits)

/-! ### Exact arithmetic -/

/-- Signed integer of a finite value scaled to exponent `e0 ≤ e`. -/
def scaled (neg : Bool) (m : Nat) (e e0 : Int) : Int :=
  let v : Int := (m * 2 ^ (e - e0).toNat : Nat)
  if neg then -v else v

/-- Sum of two values; a NaN result from non-NaN operands is reported by the second component (nv). -/
def Num.add (x y : Num) : Num × Bool :=
  match x, y with
  | .nan _, _ => (.nan false, false)
  | _, .nan _ => (.nan false, false)
  | .inf a, .inf b => if a = b then (.inf a, false) else (.nan false, true)
  | .inf a, .fin _ _ _ => (.inf a, false)
  | .fin _ _ _, .inf b => (.inf b, false)
  | .fin a m e, .fin b n g =>
    let e0 := if e < g then e else g
    let v := scaled a m e e0 + scaled b n g e0
    if v = 0 then (.fin (if m = 0 ∧ n = 0 then a && b else false) 0 e0, false)
    else (.fin (decide (v < 0)) v.natAbs e0, false)

/-- Product of two values. -/
def Num.mul (x y : Num) : Num × Bool :=
  match x, y with
  | .nan _, _ => (.nan false, false)
  | _, .nan _ => (.nan false, false)
  | .inf a, .inf b => (.inf (a != b), false)
  | .inf a, .fin b n _ => if n = 0 then (.nan false, true) else (.inf (a != b), false)
  | .fin a m _, .inf b => if m = 0 then (.nan false, true) else (.inf (a != b), false)
  | .fin a m e, .fin b n g => (.fin (a != b) (m * n) (e + g), false)

/-- Quotient of two values, kept to 130 bits with a sticky bit; an operand value of zero divided is ±∞ (R28). -/
def Num.div (x y : Num) : Num × Bool :=
  match x, y with
  | .nan _, _ => (.nan false, false)
  | _, .nan _ => (.nan false, false)
  | .inf _, .inf _ => (.nan false, true)
  | .inf a, .fin b _ _ => (.inf (a != b), false)
  | .fin a _ _, .inf b => (.fin (a != b) 0 0, false)
  | .fin a m e, .fin b n g =>
    if n = 0 then (if m = 0 then (.nan false, true) else (.inf (a != b), false))
    else
      let k := 130 + bitLen n
      let q := m * 2 ^ k / n
      let st := if m * 2 ^ k % n = 0 then 0 else 1
      (.fin (a != b) (2 * q + st) (e - g - k - 1), false)

/-- Integer square root by bits, from bit `k` down. -/
def isqrtFrom : Nat → Nat → Nat → Nat
  | 0, r, _ => r
  | k + 1, r, n =>
    let c := r + 2 ^ k
    if c * c ≤ n then isqrtFrom k c n else isqrtFrom k r n

/-- Floor of the square root. -/
def isqrt (n : Nat) : Nat := isqrtFrom (bitLen n / 2 + 1) 0 n

/-- Square root with a sticky bit; a negative non-zero operand is invalid. -/
def Num.sqrt (x : Num) : Num × Bool :=
  match x with
  | .nan _ => (.nan false, false)
  | .inf n => if n then (.nan false, true) else (.inf false, false)
  | .fin n m e =>
    if m = 0 then (.fin n 0 0, false)
    else if n then (.nan false, true)
    else
      let e' := if e % 2 = 0 then e else e - 1
      let m' := (if e % 2 = 0 then m else 2 * m) * 2 ^ 260
      let r := isqrt m'
      (.fin false (2 * r + (if r * r = m' then 0 else 1)) (e' / 2 - 131), false)

/-- Reciprocal square root, rounded by the caller once: ±0 gives ±∞, +∞ gives +0 (Table 9.4). -/
def Num.rsqrt (x : Num) : Num × Bool :=
  match x with
  | .nan _ => (.nan false, false)
  | .inf n => if n then (.nan false, true) else (.fin false 0 0, false)
  | .fin n m e =>
    if m = 0 then (.inf n, false)
    else if n then (.nan false, true)
    else
      let e' := if e % 2 = 0 then e else e - 1
      let m' := if e % 2 = 0 then m else 2 * m
      let k := 130 + bitLen m'
      let t := 2 ^ (2 * k) / m'
      let r := isqrt t
      (.fin false (2 * r + (if r * r * m' = 2 ^ (2 * k) then 0 else 1)) (-(e' / 2) - k - 1), false)

/-- Is x below y (numbers only; a NaN compares false)? -/
def Num.lt (x y : Num) : Bool :=
  match x, y with
  | .nan _, _ => false
  | _, .nan _ => false
  | .inf a, .inf b => a && !b
  | .inf a, .fin _ _ _ => a
  | .fin _ _ _, .inf b => !b
  | .fin a m e, .fin b n g =>
    let e0 := if e < g then e else g
    decide (scaled a m e e0 < scaled b n g e0)

def Num.eqv (x y : Num) : Bool := !x.isNan && !y.isNan && !x.lt y && !y.lt x

/-! ### Rounded operations -/

/-- Round an operation's exact result, adding the flags of its operands and of an invalid operation.
The 0 × ∞ + NaN choice of R28 falls out: a NaN operand gives a NaN that is not newly produced. -/
def finish (f : Fmt) (ops : List Num) (r : Num × Bool) : Nat × Flags :=
  let p := f.round .rne r.1
  (p.1, p.2 ||| flagIf r.2 Flag.nv ||| ops.foldl (fun a x => a ||| x.readFlags) 0#8)

def Fmt.add (f : Fmt) (a b : Nat) : Nat × Flags :=
  finish f [f.unpack a, f.unpack b] ((f.unpack a).add (f.unpack b))

def Fmt.sub (f : Fmt) (a b : Nat) : Nat × Flags :=
  finish f [f.unpack a, f.unpack b] ((f.unpack a).add (f.unpack b).negate)

def Fmt.mul (f : Fmt) (a b : Nat) : Nat × Flags :=
  finish f [f.unpack a, f.unpack b] ((f.unpack a).mul (f.unpack b))

def Fmt.div (f : Fmt) (a b : Nat) : Nat × Flags :=
  finish f [f.unpack a, f.unpack b] ((f.unpack a).div (f.unpack b))

def Fmt.sqrt (f : Fmt) (a : Nat) : Nat × Flags := finish f [f.unpack a] (f.unpack a).sqrt

def Fmt.rsqrt (f : Fmt) (a : Nat) : Nat × Flags := finish f [f.unpack a] (f.unpack a).rsqrt

/-- a × b + c with one rounding; `neg` negates the product (FNMA: c − a × b). -/
def Fmt.fma (f : Fmt) (neg : Bool) (a b c : Nat) : Nat × Flags :=
  let x := f.unpack a
  let y := f.unpack b
  let z := f.unpack c
  let p := x.mul y
  let p' := if neg then p.1.negate else p.1
  let r := p'.add z
  -- 0 × ∞ with a quiet NaN addend does not set nv (R28)
  finish f [x, y, z] (r.1, (p.2 && !z.isNan) || (r.2 && !p.2))

/-! ### binary32 on words -/

def w32 (p : Nat × Flags) : W32 × Flags := (BitVec.ofNat 32 p.1, p.2)

def f32Add (a b : W32) : W32 × Flags := w32 (Fmt.f32.add a.toNat b.toNat)
def f32Sub (a b : W32) : W32 × Flags := w32 (Fmt.f32.sub a.toNat b.toNat)
def f32Mul (a b : W32) : W32 × Flags := w32 (Fmt.f32.mul a.toNat b.toNat)
def f32Div (a b : W32) : W32 × Flags := w32 (Fmt.f32.div a.toNat b.toNat)
def f32Sqrt (a : W32) : W32 × Flags := w32 (Fmt.f32.sqrt a.toNat)
def f32Rsqrt (a : W32) : W32 × Flags := w32 (Fmt.f32.rsqrt a.toNat)
def f32Fma (a b c : W32) : W32 × Flags := w32 (Fmt.f32.fma false a.toNat b.toNat c.toNat)
def f32Fnma (a b c : W32) : W32 × Flags := w32 (Fmt.f32.fma true a.toNat b.toNat c.toNat)

def f32Num (a : W32) : Num := Fmt.f32.unpack a.toNat
def f32IsNan (a : W32) : Bool := (f32Num a).isNan
/-- Is the pattern an infinity or a NaN? -/
def f32NonFinite (a : W32) : Bool := decide (Fmt.f32.inf ≤ a.toNat % Fmt.f32.sgn)
def f32One : W32 := 0x3F800000#32
def f32Nan : W32 := 0x7FC00000#32
def f32NegInf : W32 := 0xFF800000#32

/-- MAX of Table 9.4: NaN if either is NaN; MAX(−0, +0) = +0. -/
def f32Max (a b : W32) : W32 × Flags :=
  let x := f32Num a
  let y := f32Num b
  let fl := flagIf (x.isSnan || y.isSnan) Flag.nv ||| flagIf (x.isNan || y.isNan) Flag.nanSeen
  if x.isNan || y.isNan then (f32Nan, fl)
  else if x.lt y then (b, fl) else if y.lt x then (a, fl)
  else (a &&& b, fl)

/-- MIN of Table 9.4: NaN if either is NaN; MIN(−0, +0) = −0. -/
def f32Min (a b : W32) : W32 × Flags :=
  let x := f32Num a
  let y := f32Num b
  let fl := flagIf (x.isSnan || y.isSnan) Flag.nv ||| flagIf (x.isNan || y.isNan) Flag.nanSeen
  if x.isNan || y.isNan then (f32Nan, fl)
  else if x.lt y then (a, fl) else if y.lt x then (b, fl)
  else (a ||| b, fl)

/-- S16 widens to binary32 by appending sixteen zero bits (chapter 2); a NaN becomes canonical (Table 2.3). -/
def s16ToF32 (a : W16) : W32 :=
  if (Fmt.s16.unpack a.toNat).isNan then f32Nan else a ++ 0#16

/-- Flags of widening an S16 value: a NaN is seen, a signalling one is invalid (R28). -/
def s16Flags (a : W16) : Flags := (Fmt.s16.unpack a.toNat).readFlags

def f32ToS16 (mode : Rnd) (a : W32) : W16 × Flags :=
  let p := convert .f32 .s16 mode a.toNat
  (BitVec.ofNat 16 p.1, p.2)

def e8Fmt (b : Bool) : Fmt := if b then .e8b else .e8a

/-- E8a (`false`) or E8b (`true`) widened exactly. -/
def e8ToF32 (b : Bool) (x : Byte) : W32 := BitVec.ofNat 32 (convert (e8Fmt b) .f32 .rne x.toNat).1

def f32ToE8 (b : Bool) (mode : Rnd) (a : W32) : Byte × Flags :=
  let p := convert .f32 (e8Fmt b) mode a.toNat
  (BitVec.ofNat 8 p.1, p.2)

/-- An unsigned integer as binary32, exact below 2^24 and rounded RNE above. -/
def natToF32 (n : Nat) : W32 := BitVec.ofNat 32 (Fmt.f32.round .rne (.fin false n 0)).1

/-- A signed integer as binary32. -/
def intToF32 (n : Int) : W32 := BitVec.ofNat 32 (Fmt.f32.round .rne (.fin (decide (n < 0)) n.natAbs 0)).1

/-- The nearest integer, ties to even, of a magnitude m * 2^e, and whether it is inexact. -/
def rneInt (m : Nat) (e : Int) : Nat × Bool :=
  if 0 ≤ e then (m * 2 ^ e.toNat, false)
  else
    let d := (-e).toNat
    let hi := m / 2 ^ d
    let rem := m % 2 ^ d
    (if Rnd.rne.carries hi rem d then hi + 1 else hi, decide (rem ≠ 0))

/-- binary32 to I8 (Table 2.3): RNE, saturating to the range of R38; a NaN gives 0 and nv. A non-zero source that gives 0 sets
uf (R42); an infinite source saturates with of and nx (DESIGN CHOICE, log entry 83). -/
def f32ToI8 (signed : Bool) (a : W32) : Byte × Flags :=
  let lo : Int := if signed then -128 else 0
  let hi : Int := if signed then 127 else 255
  match f32Num a with
  | .nan _ => (0#8, Flag.nv ||| Flag.nanSeen)
  | .inf n => (BitVec.ofInt 8 (if n then lo else hi), Flag.of_ ||| Flag.nx)
  | .fin n m e =>
    let r := rneInt m e
    let v : Int := if n then -(r.1 : Int) else r.1
    if v < lo then (BitVec.ofInt 8 lo, Flag.of_ ||| Flag.nx)
    else if hi < v then (BitVec.ofInt 8 hi, Flag.of_ ||| Flag.nx)
    else (BitVec.ofInt 8 v, flagIf r.2 Flag.nx ||| flagIf (r.2 && v == 0) Flag.uf)

/-- binary32 to rule_byte (R226): NaN gives 0 and nan_zeroed; RNE, then clamped to 0..255; nx whenever the
stored integer differs from the source. -/
def f32ToRuleByte (a : W32) : Byte × Flags :=
  match f32Num a with
  | .nan _ => (0#8, Flag.nanZeroed)
  | .inf n => (if n then 0#8 else 255#8, Flag.clamp ||| Flag.nx)
  | .fin n m e =>
    let r := rneInt m e
    if n && decide (r.1 ≠ 0) then (0#8, Flag.clamp ||| Flag.nx)
    else if 255 < r.1 then (255#8, Flag.clamp ||| Flag.nx)
    else (BitVec.ofNat 8 r.1, flagIf r.2 Flag.nx)

/-! ### The M8 code (R35 to R37, R225) -/

/-- Pyroimet mode flushes a subnormal S16 result to a zero of its sign, a tiny and inexact result (Table 2.7, R42). -/
def flushS16 (pyro : Bool) (r : W16 × Flags) : W16 × Flags :=
  let m := r.1.toNat % 2 ^ 15
  if pyro && m != 0 && decide (m < 2 ^ 7) then (r.1 &&& 0x8000#16, r.2 ||| Flag.uf ||| Flag.nx) else r

/-- R35: magnitude of code q, in units of 2^-10. -/
def m8Mag (q : Nat) : Nat := if q / 16 = 0 then q % 16 else (16 + q % 16) * 2 ^ (q / 16 - 1)

/-- R35, R37: the decoded moment, the exact product of magnitude and scale rounded with RNE. -/
def m8Decode (code : Byte) (scale : W16) : W32 × Flags :=
  let s := decide (code.toNat / 128 = 1)
  match Fmt.s16.unpack scale.toNat with
  | .fin _ m e => w32 (Fmt.f32.round .rne (.fin s (m8Mag (code.toNat % 128) * m) (e - 10)))
  | _ => (0#32, 0#8)

/-- The M8 element limit of R44. -/
def m8Limit : W32 := 0x7F7FC000#32

/-- R36, R44: the state-store rule for a moment element. Components: the element and the flags. A finite element above the
limit sets clamp and nx, as W does in the example of R43 (DEDUCED, log entry 83). -/
def m8Clamp (a : W32) : W32 × Flags :=
  if f32IsNan a then (0#32, Flag.nanZeroed ||| Flag.nanSeen)
  else if m8Limit.toNat < a.toNat % 2 ^ 31 then
    ((a &&& 0x80000000#32) ||| m8Limit, Flag.clamp ||| flagIf (!f32NonFinite a) Flag.nx)
  else (a, 0#8)

/-- R36: the block scale for the largest magnitude `amax` (a binary32 magnitude pattern): amax / 1.9375,
rounded toward +∞ in S16, and the flags of that rounding (R46). Pyroimet mode flushes a subnormal scale. -/
def m8Scale (pyro : Bool) (amax : Nat) : W16 × Flags :=
  flushS16 pyro (let r := Fmt.s16.round .up ((Fmt.f32.unpack amax).div (.fin false 31 (-4))).1
                 (BitVec.ofNat 16 r.1, r.2))

/-- R36, R225: the magnitude code of |x| / scale, rounded RNE on the grid, or stochastically by a 16-bit slice. A non-zero
element stored as 0x00 sets uf (R42). -/
def m8Code (x : W32) (scale : W16) (slice : Option Nat) : Byte × Flags :=
  match f32Num x, Fmt.s16.unpack scale.toNat with
  | .fin neg m e, .fin _ n g =>
    if m = 0 ∨ n = 0 then (0#8, 0#8)
    else
      -- u = m·2^e / (n·2^g) as a fraction num / den
      let num := m * 2 ^ (e - g).toNat
      let den := n * 2 ^ (g - e).toNat
      -- E with u in [2^(E-7), 2^(E-6)); E = 1 below 2^-5 shares the step 2^-10
      let big : Nat := (List.range 6).foldl (fun a i => if den * 2 ^ (i + 2) ≤ num * 2 ^ 7 then i + 2 else a) 1
      -- the grid step is 2^(big-11): count = u / step
      let cn := num * 2 ^ 11
      let cd := den * 2 ^ big
      let hi := cn / cd
      let rem := cn % cd
      let up := match slice with
        | none => decide (cd < 2 * rem) || (decide (2 * rem = cd) && decide (hi % 2 = 1))
        | some r => decide (r < 65536 * rem / cd)
      let c := if up then hi + 1 else hi
      -- code: below 16 it is itself; else (16+F)·2^(E-1) with F, E of R35
      let q := if big = 1 then c else if c = 32 then (big + 1) * 16 else big * 16 + (c - 16)
      let q' := if 0x7F < q then 0x7F else q
      (if q' = 0 then 0#8 else BitVec.ofNat 8 (q' + (if neg then 128 else 0)),
        flagIf (decide (rem ≠ 0)) Flag.nx ||| flagIf (q' == 0) Flag.uf)
  | _, _ => (0#8, 0#8)

/-! ### The state-store path (R33, R34, R44) -/

/-- Store of W in a tail-less region: S16 under the state-store rule. -/
def storeS16 (mode : Rnd) (a : W32) : W16 × Flags :=
  match f32Num a with
  | .nan _ => (0#16, Flag.nanZeroed ||| Flag.nanSeen)
  | .inf n => (if n then 0xFF7F#16 else 0x7F7F#16, Flag.clamp)
  | .fin n _ _ =>
    let p := convert .f32 .s16 mode a.toNat
    if p.1 % Fmt.s16.sgn = Fmt.s16.inf then
      (if n then 0xFF7F#16 else 0x7F7F#16, Flag.clamp ||| Flag.nx)
    else (BitVec.ofNat 16 p.1, p.2)

/-- Store of a master (R33): 24 bits, W in [23:8] and T in [7:0]; the largest finite is 0x7F7F with T 0xFF. -/
def storeMaster (mode : Rnd) (a : W32) : (W16 × Byte) × Flags :=
  match f32Num a with
  | .nan _ => ((0#16, 0#8), Flag.nanZeroed ||| Flag.nanSeen)
  | .inf n => ((if n then 0xFF7F#16 else 0x7F7F#16, 0xFF#8), Flag.clamp)
  | .fin n _ _ =>
    let p := convert .f32 .master mode a.toNat
    if p.1 % Fmt.master.sgn = Fmt.master.inf then
      ((if n then 0xFF7F#16 else 0x7F7F#16, 0xFF#8), Flag.clamp ||| Flag.nx)
    else ((BitVec.ofNat 16 (p.1 / 256), BitVec.ofNat 8 p.1), p.2)

/-- Store of an FP32 statistic (R44, R231). -/
def storeStat (a : W32) : W32 × Flags :=
  match f32Num a with
  | .nan _ => (0#32, Flag.nanZeroed)
  | .inf n => (if n then 0xFF7FFFFF#32 else 0x7F7FFFFF#32, Flag.clamp)
  | .fin _ _ _ => (a, 0#8)

/-! ### Trees (R204) -/

/-- Largest power of two below n, for n ≥ 2. -/
def powBelow (n : Nat) : Nat := 2 ^ Nat.log2 (n - 1)

/-- R204's pairwise tree over a list, with fuel for the recursion (its depth is below the length). -/
def treeFuel (f : Fmt) : Nat → List Nat → Nat × Flags
  | 0, v => (v.headD 0, 0#8)
  | k + 1, v =>
    match v with
    | [] => (0, 0#8)
    | [x] => (x, 0#8)
    | _ =>
      let m := powBelow v.length
      let l := treeFuel f k (v.take m)
      let r := treeFuel f k (v.drop m)
      let t := f.add l.1 r.1
      (t.1, t.2 ||| l.2 ||| r.2)

def tree (f : Fmt) (v : List Nat) : Nat × Flags := treeFuel f (bitLen v.length + 1) v

def tree32 (v : List W32) : W32 × Flags := w32 (tree .f32 (v.map BitVec.toNat))
def tree64 (v : List W64) : W64 × Flags :=
  let p := tree .f64 (v.map BitVec.toNat)
  (BitVec.ofNat 64 p.1, p.2)

def f32To64 (a : W32) : W64 := BitVec.ofNat 64 (convert .f32 .f64 .rne a.toNat).1
def f64To32 (a : W64) : W32 × Flags := w32 (convert .f64 .f32 .rne a.toNat)

/-! ### Newt arithmetic (R47 to R51, R276) -/

/-- R48: a subnormal becomes a zero of its sign, setting flushed and uf. -/
def flush (a : W32) : W32 × Flags :=
  if a.toNat % 2 ^ 31 ≠ 0 ∧ a.toNat % 2 ^ 31 < 2 ^ 23 then (a &&& 0x80000000#32, Flag.flushed ||| Flag.uf) else (a, 0#8)

/-- An operation under R48: operands flushed, result flushed. -/
def newtOp2 (op : W32 → W32 → W32 × Flags) (a b : W32) : W32 × Flags :=
  let x := flush a
  let y := flush b
  let r := op x.1 y.1
  let z := flush r.1
  (z.1, x.2 ||| y.2 ||| r.2 ||| z.2)

def newtOp3 (op : W32 → W32 → W32 → W32 × Flags) (a b c : W32) : W32 × Flags :=
  let x := flush a
  let y := flush b
  let w := flush c
  let r := op x.1 y.1 w.1
  let z := flush r.1
  (z.1, x.2 ||| y.2 ||| w.2 ||| r.2 ||| z.2)

/-- The exponent of a non-zero magnitude m * 2^e: that of its leading bit. R47 does not say whether a product's exponent is
that or the sum of its operands' (DESIGN CHOICE, log entry 83). -/
def leadExp (m : Nat) (e : Int) : Int := e + bitLen m - 1

/-- R47, R49: the sum of one group of 16 exact products, rounded to binary32 with RNE and flushed (R48). Bits dropped below
the window set nx (DESIGN CHOICE, log entry 83). -/
def groupSum (ps : List (Num × Bool)) : W32 × Flags :=
  let anyNan := ps.any (fun p => p.1.isNan)
  let inv := ps.any (fun p => p.2)
  let pos := ps.any (fun p => p.1 == .inf false)
  let neg := ps.any (fun p => p.1 == .inf true)
  if anyNan || (pos && neg) then (f32Nan, Flag.nanSeen ||| flagIf (inv || (!anyNan && pos && neg)) Flag.nv)
  else if pos then (0x7F800000#32, 0#8)
  else if neg then (f32NegInf, 0#8)
  else
    let emax : Option Int := ps.foldl (fun a p =>
      match p.1 with
      | .fin _ m e => if m = 0 then a else
          match a with
          | none => some (leadExp m e)
          | some x => some (if x < leadExp m e then leadExp m e else x)
      | _ => a) none
    match emax with
    | none => (0#32, 0#8)
    | some em =>
      -- bit 0 of the window weighs 2^(em-30)
      let base : Int := em - 30
      let sd := ps.foldl (fun (a : Int × Bool) p =>
        match p.1 with
        | .fin n m e =>
          let w : Nat := if base ≤ e then m * 2 ^ (e - base).toNat else m / 2 ^ (base - e).toNat
          let lost := decide (e < base) && decide (m % 2 ^ (base - e).toNat ≠ 0)
          (a.1 + (if n then -(w : Int) else w), a.2 || lost)
        | _ => a) ((0 : Int), false)
      let r := Fmt.f32.round .rne (.fin (decide (sd.1 < 0)) sd.1.natAbs base)
      let z := flush (BitVec.ofNat 32 r.1)
      (z.1, r.2 ||| flagIf sd.2 Flag.nx ||| z.2)

/-- R47: one pass of the dot-product unit over at most 64 products, padded with zero products, added to the
accumulator in group order. -/
def dotPass (acc : W32) (ps : List (Num × Bool)) : W32 × Flags :=
  (List.range 4).foldl (fun (a : W32 × Flags) g =>
    let gs := groupSum ((ps.drop (16 * g)).take 16)
    let r := newtOp2 f32Add a.1 gs.1
    (r.1, a.2 ||| gs.2 ||| r.2)) (acc, 0#8)

/-- R51: the pieces of a binary32 operand, first piece first; the remainder of a non-finite operand is +0
(DEDUCED, log entry 9). -/
def splitPieces (x : W32) (n : Nat) : List W16 :=
  let hi (a : W32) : W16 := a.extractLsb' 16 16
  let rest (a : W32) : W32 := if f32NonFinite a then 0#32 else (f32Sub a (hi a ++ 0#16)).1
  let r1 := rest x
  let r2 := rest r1
  ([hi x, hi r1, hi r2]).take n

/-- ln 2 scaled by 2^200. -/
def ln2Scaled : Nat := 1113844574712631719546256151097547306333272293549090750737802

/-- Horner evaluation of e^r: terms n, n+1, …, with `fuel` terms left. -/
def expHorner (r : Int) : Nat → Nat → Int
  | 0, _ => 2 ^ 200
  | fuel + 1, n => 2 ^ 200 + r * expHorner r fuel (n + 1) / ((n : Int) * 2 ^ 200)

/-- R276: e^x correctly rounded to binary32, subnormal results flushed. The fixed-point evaluation keeps 200
bits (PRESUMED sufficient for correct rounding, log entry 8). -/
def f32Exp (a : W32) : W32 × Flags :=
  let x := flush a
  match f32Num x.1 with
  | .nan s => (f32Nan, Flag.nanSeen ||| flagIf s Flag.nv)
  | .inf n => (if n then 0#32 else 0x7F800000#32, 0#8)
  | .fin n m e =>
    if m = 0 then (f32One, x.2)
    else if 7 < leadExp m e then
      (if n then 0#32 else 0x7F800000#32, x.2 ||| Flag.nx ||| (if n then Flag.uf ||| Flag.flushed else Flag.of_))
    else
      let v : Int := scaled n (m * 2 ^ (e + 200).toNat / 2 ^ (-(e + 200)).toNat) 0 0
      let k : Int := (v + (ln2Scaled : Int) / 2) / ln2Scaled
      let r := v - k * ln2Scaled
      let y := expHorner r 48 1
      let p := Fmt.f32.round .rne (.fin false (2 * y.natAbs + 1) (k - 201))
      let z := flush (BitVec.ofNat 32 p.1)
      (z.1, x.2 ||| p.2 ||| z.2 ||| Flag.nx ||| flagIf (decide (p.1 = 0)) Flag.flushed)

end Sys2Proof.Machine
end

