-- ==== Sys2Proof/Machine/Bits.lean ====
section
/-!
DEFINITION. Bytes, bit fields and keyed lists: the little-endian order of R5, the modular order of R13, and the
one representation of sparse data (strictly rising keys) with its two views, with and without a default.
-/
namespace Sys2Proof.Machine

/-! ### Bytes (R5) -/

/-- The n low bytes of a number, byte 0 first (R5). -/
def leBytes : Nat → Nat → List Byte
  | 0, _ => []
  | n + 1, v => BitVec.ofNat 8 v :: leBytes n (v / 256)

/-- The number that bytes spell, byte 0 lowest (R5). -/
def leNat : List Byte → Nat
  | [] => 0
  | b :: bs => b.toNat + 256 * leNat bs

/-- Bits [hi:lo] of a number (R4). -/
def bits (v hi lo : Nat) : Nat := v / 2 ^ lo % 2 ^ (hi + 1 - lo)

/-- Bit i of a number. -/
def bit (v i : Nat) : Bool := decide (v / 2 ^ i % 2 = 1)

/-- A number with bits [hi:lo] replaced. -/
def setBits (v hi lo x : Nat) : Nat :=
  v % 2 ^ lo + x % 2 ^ (hi + 1 - lo) * 2 ^ lo + v / 2 ^ (hi + 1) * 2 ^ (hi + 1)

def b2n (b : Bool) : Nat := if b then 1 else 0

/-- Two's complement value of an n-bit field. -/
def signed (n v : Nat) : Int := if v < 2 ^ (n - 1) then v else (v : Int) - 2 ^ n

/-- Two's complement field of width n. -/
def toField (n : Nat) (v : Int) : Nat := (v % (2 ^ n : Nat)).toNat

/-! ### Modular comparison (R13) -/

inductive SeqOrd where
  | equal | newer | older
  deriving DecidableEq, Repr

/-- R13: the order of `a` relative to `b`, both n bits wide. -/
def seqCmp {n : Nat} (a b : BitVec n) : SeqOrd :=
  let d := (a - b).toNat
  if d = 0 then .equal else if d < 2 ^ (n - 1) then .newer else .older

def newer {n : Nat} (a b : BitVec n) : Bool := seqCmp a b == .newer
def newerEq {n : Nat} (a b : BitVec n) : Bool := seqCmp a b != .older

/-! ### Keyed lists -/

/-- The entry at a key. -/
def kget? {α : Type} (m : List (Nat × α)) (k : Nat) : Option α :=
  match m with
  | [] => none
  | (j, v) :: r => if j = k then some v else kget? r k

/-- Put an entry, keeping the keys strictly rising. -/
def kput {α : Type} (m : List (Nat × α)) (k : Nat) (v : α) : List (Nat × α) :=
  match m with
  | [] => [(k, v)]
  | (j, w) :: r => if k < j then (k, v) :: (j, w) :: r else if k = j then (k, v) :: r else (j, w) :: kput r k v

/-- Remove every entry at a key. -/
def kdel {α : Type} (m : List (Nat × α)) (k : Nat) : List (Nat × α) :=
  match m with
  | [] => []
  | (j, w) :: r => if j = k then kdel r k else (j, w) :: kdel r k

/-- The entry at a key, or the default. -/
def kget {α : Type} (d : α) (m : List (Nat × α)) (k : Nat) : α := (kget? m k).getD d

/-- Put an entry of a list whose unlisted keys read as `d`: writing `d` removes the entry. -/
def kset {α : Type} [DecidableEq α] (d : α) (m : List (Nat × α)) (k : Nat) (v : α) : List (Nat × α) :=
  if v = d then kdel m k else kput m k v

/-- The canonical form: keys strictly rising. -/
def kwf {α : Type} : List (Nat × α) → Bool
  | [] => true
  | [_] => true
  | (j, _) :: (k, w) :: r => decide (j < k) && kwf ((k, w) :: r)

/-- A sorted set of numbers: insert. -/
def nput (m : List Nat) (k : Nat) : List Nat :=
  match m with
  | [] => [k]
  | j :: r => if k < j then k :: j :: r else if k = j then j :: r else j :: nput r k

/-- A sorted set of numbers: remove. -/
def ndel (m : List Nat) (k : Nat) : List Nat := m.filter (fun j => j != k)

/-- Least natural number below n that a predicate admits. -/
def firstBelow (n : Nat) (p : Nat → Bool) : Option Nat := (List.range n).find? p

/-- A fold over 0 … n-1. -/
def foldN {σ : Type} (n : Nat) (s : σ) (f : σ → Nat → σ) : σ := (List.range n).foldl f s

end Sys2Proof.Machine
end

