-- ==== Sys2Proof/Machine/Crypto.lean ====
section
/-!
DEFINITION. The bit-exact functions the spec names: the mist and drizzle generators (R53, R60), CRC-32C (R111),
CRC-32 (R333), SHA-256 (R267), and XTS-AES-256 (R327, IEEE 1619).
-/
namespace Sys2Proof.Machine

/-! ### Mist generator (R53, R54, R292) -/

/-- One round of the mist generator, swap included. -/
def mistRound (k : W64) (ab : W64 × W64) (i : Nat) : W64 × W64 :=
  let a := (ab.1 ^^^ k ^^^ (BitVec.ofNat 64 i * 0x6A1F3C8597D20B4E#64)) * 0xD3A56B1C2F48E97B#64
  let b := (ab.2 ^^^ (a >>> 32)) * 0x8C2E4F71B905D6A3#64
  (b, a ^^^ (b >>> 29))

/-- R53: 128 output bits of key and counter, b in [127:64]. -/
def mist (key : W64) (counter : BitVec 128) : BitVec 128 :=
  let r := (List.range 8).foldl (mistRound key) (counter.extractLsb' 0 64, counter.extractLsb' 64 64)
  r.2 ++ r.1

/-- The 16-bit slice j = element mod 8 (R54, R292). -/
def mistSlice (key : W64) (counter : BitVec 128) (element : Nat) : Nat :=
  (mist key counter).toNat / 2 ^ (16 * (element % 8)) % 65536

/-- Table 2.5: the counter of a stochastic store. -/
def srCounter (step : Step) (purpose slot tensor element : Nat) : BitVec 128 :=
  BitVec.ofNat 128 (step.toNat * 2 ^ 80 + purpose % 256 * 2 ^ 72 + slot % 256 * 2 ^ 64
    + tensor % 2 ^ 24 * 2 ^ 40 + element % 2 ^ 40 / 8 * 8)

/-- Table 11.5: the counter of a newt mask or RAND. -/
def newtCounter (layer microBatch purpose element : Nat) : BitVec 128 :=
  BitVec.ofNat 128 (layer % 2 ^ 16 * 2 ^ 112 + microBatch % 2 ^ 32 * 2 ^ 80 + purpose % 256 * 2 ^ 72
    + element % 2 ^ 48 / 8 * 8)

/-! ### Drizzle generator (R60) -/

def drizzleStep (s : W32) : W32 :=
  if s.getLsbD 0 then (s >>> 1) ^^^ 0x80200003#32 else s >>> 1

/-- One draw: eight steps, then bits [7:0]. -/
def drizzleDraw (s : W32) : W32 × Nat :=
  let t := (List.range 8).foldl (fun x _ => drizzleStep x) s
  (t, t.toNat % 256)

/-- R60: the entry value of lane l. -/
def drizzleEntry (seed : W64) (lane : Nat) : W32 :=
  let v := seed.extractLsb' 0 32 ^^^ BitVec.ofNat 32 (lane * 0x00010DCD)
  if v = 0#32 then 1#32 else v

/-! ### CRCs (R111, R333): reflected, initial value all ones, result inverted -/

def crcBit (poly : W32) (c : W32) : W32 := if c.getLsbD 0 then (c >>> 1) ^^^ poly else c >>> 1

def crcByte (poly : W32) (c : W32) (b : Byte) : W32 :=
  (List.range 8).foldl (fun x _ => crcBit poly x) (c ^^^ b.setWidth 32)

def crc (poly : W32) (bs : List Byte) : W32 := ~~~ (bs.foldl (crcByte poly) 0xFFFFFFFF#32)

/-- CRC-32C: 0x1EDC_6F41 reflected is 0x82F6_3B78. -/
def crc32c (bs : List Byte) : W32 := crc 0x82F63B78#32 bs

/-- The frame CRC of R333: 0x04C1_1DB7 reflected is 0xEDB8_8320. -/
def crc32 (bs : List Byte) : W32 := crc 0xEDB88320#32 bs

/-! ### SHA-256 (R267) -/

/-- Floor of the k-th root of n, whose root has at most b bits, from its top bit down. -/
def rootFrom (k n : Nat) : Nat → Nat → Nat
  | 0, r => r
  | b + 1, r => rootFrom k n b (if (r + 2 ^ b) ^ k ≤ n then r + 2 ^ b else r)

def isPrime (n : Nat) : Bool := decide (2 ≤ n) && (List.range n).all fun d => d < 2 || n % d != 0

/-- The 64 primes below 312, from which SHA-256 takes its constants. -/
def shaPrimes : List Nat := (List.range 312).filter isPrime

/-- First 32 bits of the fractional part of the k-th root of p. -/
def rootBits (k p : Nat) : W32 := BitVec.ofNat 32 (rootFrom k (p * 2 ^ (32 * k)) 37 0)

/-- Round constants: cube roots of the 64 primes. -/
def shaK : List W32 := shaPrimes.map (rootBits 3)

/-- Initial value: square roots of the first eight. -/
def shaInit : List W32 := (shaPrimes.take 8).map (rootBits 2)

def beWord (b0 b1 b2 b3 : Byte) : W32 := b0 ++ b1 ++ b2 ++ b3

/-- XOR of a word turned right by each count, and shifted right by one more when that is not zero. -/
def shaMix (turns : List Nat) (shift : Nat) (x : W32) : W32 :=
  turns.foldl (fun a n => a ^^^ x.rotateRight n) (if shift = 0 then 0#32 else x >>> shift)

/-- The message schedule, newest word first: each new word sums the words 2, 7, 15 and 16 back, two of them mixed. -/
def shaSchedule : Nat → List W32 → List W32
  | 0, w => w
  | n + 1, w =>
    let back (i : Nat) : W32 := w.getD (i - 1) 0#32
    shaSchedule n ((shaMix [17, 19] 10 (back 2) + back 7 + shaMix [7, 18] 3 (back 15) + back 16) :: w)

/-- Where the selector has ones take the first word, else the second. -/
def shaPick (sel x y : W32) : W32 := y ^^^ (sel &&& (x ^^^ y))

/-- One round on the eight working words: they move down one place, the first and the fifth take new values. -/
def shaRound (h : List W32) (kw : W32 × W32) : List W32 :=
  let x (i : Nat) : W32 := h.getD i 0#32
  let new := [x 7, shaMix [6, 11, 25] 0 (x 4), shaPick (x 4) (x 5) (x 6), kw.1, kw.2].foldl (· + ·) 0#32
  let agree := shaPick (x 0 ^^^ x 1) (x 2) (x 0)
  (new + shaMix [2, 13, 22] 0 (x 0) + agree) :: (h.take 3 ++ [x 3 + new] ++ (h.drop 4).take 3)

def shaWords : List Byte → List W32
  | a :: b :: c :: d :: r => beWord a b c d :: shaWords r
  | _ => []

def shaBlock (h : List W32) (blk : List Byte) : List W32 :=
  let w := (shaSchedule 48 (shaWords blk).reverse).reverse
  (h.zip ((shaK.zip w).foldl shaRound h)).map (fun p => p.1 + p.2)

def shaBlocks : Nat → List W32 → List Byte → List W32
  | 0, h, _ => h
  | n + 1, h, bs => shaBlocks n (shaBlock h (bs.take 64)) (bs.drop 64)

def beBytes32 (w : W32) : List Byte := (leBytes 4 w.toNat).reverse

/-- SHA-256 of a byte string, 32 bytes. -/
def sha256 (bs : List Byte) : List Byte :=
  let n := bs.length
  let pad := (119 - n % 64) % 64
  let m := bs ++ [0x80#8] ++ List.replicate pad 0#8 ++ (leBytes 8 (8 * n)).reverse
  (shaBlocks (m.length / 64) shaInit m).flatMap beBytes32

/-! ### AES-256 and XTS (R327) -/

def gfDouble (a : Byte) : Byte := if a.getLsbD 7 then (a <<< 1) ^^^ 0x1B#8 else a <<< 1

def gfMulFrom : Nat → Byte → Byte → Byte
  | 0, _, _ => 0#8
  | n + 1, a, b => (if b.getLsbD 0 then a else 0#8) ^^^ gfMulFrom n (gfDouble a) (b >>> 1)

def gfMul (a b : Byte) : Byte := gfMulFrom 8 a b

/-- a^254 in GF(2^8), the inverse of a non-zero a. -/
def gfInv (a : Byte) : Byte :=
  let a2 := gfMul a a
  let a4 := gfMul a2 a2
  let a8 := gfMul a4 a4
  let a16 := gfMul a8 a8
  let a32 := gfMul a16 a16
  let a64 := gfMul a32 a32
  let a128 := gfMul a64 a64
  gfMul a128 (gfMul a64 (gfMul a32 (gfMul a16 (gfMul a8 (gfMul a4 a2)))))

def aesSub (a : Byte) : Byte :=
  let b := gfInv a
  b ^^^ b.rotateLeft 1 ^^^ b.rotateLeft 2 ^^^ b.rotateLeft 3 ^^^ b.rotateLeft 4 ^^^ 0x63#8

def aesInvSub (a : Byte) : Byte :=
  gfInv (a.rotateLeft 1 ^^^ a.rotateLeft 3 ^^^ a.rotateLeft 6 ^^^ 0x05#8)

def xorBytes (a b : List Byte) : List Byte := (a.zip b).map (fun p => p.1 ^^^ p.2)

/-- One more word of the AES-256 key schedule; `ws` holds the words newest first. -/
def aesNextWord (i : Nat) (ws : List (List Byte)) : List Byte :=
  let t := ws.headD []
  let t' :=
    if i % 8 = 0 then
      let r := (t.drop 1 ++ t.take 1).map aesSub
      xorBytes r [BitVec.ofNat 8 (2 ^ (i / 8 - 1)), 0#8, 0#8, 0#8]
    else if i % 8 = 4 then t.map aesSub else t
  xorBytes (ws.getD 7 []) t'

def aesExpandFrom : Nat → Nat → List (List Byte) → List (List Byte)
  | 0, _, ws => ws
  | n + 1, i, ws => aesExpandFrom n (i + 1) (aesNextWord i ws :: ws)

/-- The bytes cut into runs of n. -/
def chunks (n : Nat) : Nat → List Byte → List (List Byte)
  | 0, _ => []
  | k + 1, bs => if bs.isEmpty then [] else bs.take n :: chunks n k (bs.drop n)

/-- The 15 round keys of a 32-byte key. -/
def aesRoundKeys (key : List Byte) : List (List Byte) :=
  let ws := (aesExpandFrom 52 8 (chunks 4 8 key).reverse).reverse
  (List.range 15).map (fun r => (ws.drop (4 * r)).take 4 |>.flatten)

def aesShift (s : List Byte) : List Byte :=
  (List.range 16).map (fun i => s.getD ((i + 4 * (i % 4)) % 16) 0#8)

def aesInvShift (s : List Byte) : List Byte :=
  (List.range 16).map (fun i => s.getD ((i + 12 * (i % 4)) % 16) 0#8)

def aesMixWith (c : List Byte) (s : List Byte) : List Byte :=
  (List.range 16).map (fun i =>
    (List.range 4).foldl (fun x j => x ^^^ gfMul (c.getD ((j + 4 - i % 4) % 4) 0#8) (s.getD (i / 4 * 4 + j) 0#8)) 0#8)

def aesMix : List Byte → List Byte := aesMixWith [2#8, 3#8, 1#8, 1#8]
def aesInvMix : List Byte → List Byte := aesMixWith [14#8, 11#8, 13#8, 9#8]

def aesEncrypt (rk : List (List Byte)) (blk : List Byte) : List Byte :=
  let s0 := xorBytes blk (rk.headD [])
  let s := (List.range 13).foldl (fun x r => xorBytes (aesMix (aesShift (x.map aesSub))) (rk.getD (r + 1) [])) s0
  xorBytes (aesShift (s.map aesSub)) (rk.getD 14 [])

def aesDecrypt (rk : List (List Byte)) (blk : List Byte) : List Byte :=
  let s0 := (aesInvShift (xorBytes blk (rk.getD 14 []))).map aesInvSub
  let s := (List.range 13).foldl (fun x r =>
    (aesInvShift (aesInvMix (xorBytes x (rk.getD (13 - r) [])))).map aesInvSub) s0
  xorBytes s (rk.headD [])

/-- Multiplication of the tweak by α (IEEE 1619), byte 0 lowest. -/
def xtsDouble (t : List Byte) : List Byte :=
  let v := leNat t
  leBytes 16 (if v / 2 ^ 127 = 1 then (2 * v) % 2 ^ 128 ^^^ 0x87 else 2 * v)

def xtsBlocks (f : List Byte → List Byte) : List Byte → List (List Byte) → List Byte
  | _, [] => []
  | t, b :: bs => xorBytes (f (xorBytes b t)) t ++ xtsBlocks f (xtsDouble t) bs

/-- One data unit (a multiple of 16 bytes) under the data key and the encrypted tweak. -/
def xtsUnit (decrypt : Bool) (k1 k2 : List Byte) (tweak : Nat) (unit : List Byte) : List Byte :=
  let r1 := aesRoundKeys k1
  let t := aesEncrypt (aesRoundKeys k2) (leBytes 16 tweak)
  xtsBlocks (if decrypt then aesDecrypt r1 else aesEncrypt r1) t (chunks 16 (unit.length / 16 + 1) unit)

/-- R327: a window image in data units of 4,096 bytes; the tweak of unit j holds j, k and the tensor. -/
def xtsImage (decrypt : Bool) (k1 k2 : List Byte) (tensor k : Nat) (img : List Byte) : List Byte :=
  ((chunks 4096 (img.length / 4096 + 1) img).zipIdx).flatMap (fun p =>
    xtsUnit decrypt k1 k2 (p.2 % 65536 + k % 2 ^ 20 * 2 ^ 16 + tensor % 2 ^ 24 * 2 ^ 36) p.1)

end Sys2Proof.Machine
end

