-- ==== Sys2Proof/Config.lean ====
section
/-!
DEFINITION. What an implementation fixes and the spec leaves open: free values, constants with no body.
-/
namespace Sys2Proof

/-- The byte at payload position i (0 to 39) of an event record with this code and these fields: the spec lists
the fields of each event (Tables 4.8, 5.17, 6.12, …) and gives no packing (log entry 3). -/
opaque Config.eventPayload : (code : Nat) → (fields : List Nat) → (i : Nat) → Byte

/-- A byte whose value the spec leaves undefined, applied to the state's counter of free values (log entry 4). -/
opaque Config.freeByte : Nat → Byte

/-- Bytes of the accumulation buffer as a debug read shows them (Table 3.2): the spec gives the buffer no
address layout (log entry 4). -/
opaque Config.accDebugByte : (address : Nat) → Byte

/-- The result field of a completed command whose definition names none: NOP, SIGNAL that took effect, WAIT, queue
commands and others; arguments: opcode and the state's counter of free values (log entry 15). -/
opaque Config.openResult : (opcode n : Nat) → W64

/-- The remaining wait in µs that a RETRY_LATER result may report (Table 6.5, log entry 16). -/
opaque Config.remainingWait : Nat → W64

/-- The window average that the governor projects from its samples (R394): the spec gives no formula (log entry 37). -/
opaque Config.projected : (samples : List Nat) → Nat

end Sys2Proof
end

