-- ==== Sys2Proof/Machine/State.lean ====
section
/-!
DEFINITION. The state of the complex as plain data, the reasons a step can stop, and the state after reset.
Every piece of state the spec names stands here; INVENTORY.md lists each with its rule and reset value.
-/
namespace Sys2Proof.Machine

/-! ### Reasons to stop -/

/-- Faults: raised by no command of this block. The spec reports every error through statuses, events and
registers, so no command ends the machine. -/
inductive Fault where
  /-- Raised by nothing; the type is kept inhabited for the host's interface (safe: a fault only stops). -/
  | none
  deriving DecidableEq, Repr

/-- Refusals. -/
inductive Refusal where
  /-- Raised by an arm of exec whose command has no meaning yet (safe: the model stops). -/
  | notModelled (mnemonic : String)
  deriving DecidableEq, Repr

/-! ### Counters, events, rings (R11, R98 to R101) -/

/-- A saturating counter with its sticky overflow bit (R11). -/
structure Ctr where
  val : Nat := 0
  ovf : Bool := false
  deriving DecidableEq, Repr

/-- An event before it is numbered (Table 4.7). -/
structure Ev where
  code : Nat
  unitClass : Nat
  sev : Nat
  die : Side
  index : Nat
  step : Option Step := none
  tenant : Option Nat := none
  fields : List Nat
  deriving DecidableEq, Repr

/-- A numbered event record. -/
structure EvRec where
  seq : W64
  ev : Ev
  deriving DecidableEq, Repr

/-- An item of a port's holding queue (R99): a record, or the place of a gap of lost records. -/
inductive HeldItem where
  | record (r : EvRec)
  | gap (count : Nat) (first last : W64)
  deriving DecidableEq, Repr

/-- The event ring of one port (Table 4.6). -/
structure Ring where
  base : W64 := 0#64
  enable : Bool := false
  size : Nat := 8
  tail : Nat := 0
  phase : Bool := true
  head : Nat := 0
  irqCount : Nat := 1
  holdoff : Nat := 0
  lost : Ctr := {}
  held : List HeldItem := []
  lastSeq : W64 := 0#64
  unsignalled : Nat := 0
  deriving DecidableEq, Repr

/-- One PCIe port: its link, its HST_ registers and its event ring (R88 to R100). -/
structure Port where
  /-- PERST_N is deasserted -/
  perst : Bool := false
  up : Bool := false
  busMaster : Bool := false
  /-- lanes and rate in GT/s of the trained link; 2 stands for 2.5 (Table 4.1) -/
  lanes : Nat := 16
  rate : Nat := 64
  driverReady : Bool := false
  remoteUnreachable : Bool := false
  dropped : Bool := false
  aperture : W64 := 0#64
  ring : Ring := {}
  fnMask : Bool := true
  masked : List Nat := List.range 64
  pending : List Nat := []
  table : List (Nat × W32) := []
  /-- doorbells that have arrived and are not yet forwarded to the serving die (R93, R140) -/
  doorbells : List (StreamId × W64) := []
  deriving DecidableEq, Repr

/-- The first-NaN record (Table 2.6) with the numeric fields as numbers. -/
structure NanRec where
  step : Option Step
  unitClass : Nat
  index : Nat
  stream : Nat := 0
  command : Nat := 0
  tensorValid : Bool := false
  tensor : Nat := 0
  element : Nat := 0
  pc : Nat := 0
  further : Nat := 0
  die : Side := .A
  deriving DecidableEq, Repr

/-- The event arbiter (R18, R56, R379, R380). -/
structure Arbiter where
  seq : W64 := 0#64
  /-- end of the newest claimed block of numbers (R379) -/
  claimed : W64 := 0#64
  queue : List Ev := []
  held : List Ev := []
  heldLost : Nat := 0
  nans : List NanRec := []
  armed : Option Step := none
  record : Option NanRec := none
  sev3 : List (Nat × Nat) := []
  deriving DecidableEq, Repr

/-! ### The structure image (chapter 5) -/

structure Geometry where
  active : List Nat
  parity : Nat
  master : Side
  slowType : List Nat
  positions : List Nat
  gib : List Nat
  deriving DecidableEq, Repr

structure Layout where
  stateBase : Nat
  live : Nat
  pool : Nat
  promoBase : Nat
  promo : Nat
  gradBase : Nat
  mapBase : Nat
  stashBase : Nat
  stashRows : Nat
  spareBase : Nat
  parityBase : Nat
  parityRows : Nat
  stagingRows : Nat
  deriving DecidableEq, Repr

structure Region where
  id : Nat
  placed : Bool
  tails : Bool
  pyroimet : Bool
  slowRest : Bool
  stackMask : Nat
  channelMask : Nat
  base : Nat
  size : Nat
  deriving DecidableEq, Repr

structure StashRec where
  region : Nat
  depth : Nat
  firstRow : Nat
  slots : Nat
  deriving DecidableEq, Repr

structure Tensor where
  handle : Nat
  region : Nat
  start : Nat
  base : Nat
  count : Nat
  rows : Nat
  columns : Nat
  rule : Nat
  factored : Bool
  frozen : Bool
  deriving DecidableEq, Repr

structure MapRec where
  window : Nat
  stateSlot : Nat
  gSlot : Nat
  resident : Bool
  deriving DecidableEq, Repr

structure TadRec where
  stackMask : Nat
  channelMask : Nat
  start : Nat
  words : List W32
  deriving DecidableEq, Repr

structure FabricRec where
  role : Nat := 0
  rootUid : W64 := 0#64
  seed : W32 := 0#32
  ports : List Nat := List.replicate 12 0
  deriving DecidableEq, Repr

structure StreamsRec where
  tableBase : W64
  count : Nat
  queuesA : Nat
  queuesB : Nat
  depth : Nat
  entryBytes : Nat
  share : List Nat
  weight : List Nat
  sramA : Nat × Nat
  sramB : Nat × Nat
  deriving DecidableEq, Repr

structure TenantRec where
  tenant : Nat
  maxCommands : Nat
  maxGib : Nat
  deriving DecidableEq, Repr

structure PowerRec where
  tileCap : Nat := 1200
  stackCap : Nat := 38
  compute : Nat := 20
  hubCap : Nat := 170
  reserveUs : Nat := 5500
  dewIdleUs : Nat := 0
  deriving DecidableEq, Repr

structure VersionRec where
  iface : Nat
  major : Nat
  minMinor : Nat
  maxMinor : Nat
  deriving DecidableEq, Repr

/-- A structure image that passed the check, section by section (Tables 5.4 to 5.12, R122, R123). -/
structure Img where
  id : W64
  geo : Geometry
  lay : Layout
  regions : List Region
  stash : List StashRec
  tensors : List Tensor
  wmap : List MapRec
  rules : List (Nat × List W32)
  tadpoles : List TadRec
  fabric : FabricRec
  streams : StreamsRec
  stagedSlots : Nat
  tenant0 : TenantRec
  tenants : List TenantRec
  power : PowerRec
  versions : List VersionRec
  statRows : Nat
  /-- record sizes of the tensors and the versions section (R113) -/
  tensorSize : Nat := 32
  versionSize : Nat := 8
  deriving DecidableEq, Repr

/-- HUB_IMAGE_STATUS.state (Table 4.9). -/
inductive ImgState where
  | empty | loading | loaded | checking | enabled | refused
  deriving DecidableEq, Repr

/-- HUB_IMAGE_PARTIAL.state (Table 5.13). -/
inductive PartState where
  | none | loading | loaded | checking | applying | applied | refused
  deriving DecidableEq, Repr

/-- The image machinery of the complex (R103, R124 to R131). -/
structure ImageSt where
  st : ImgState := .empty
  reason : Nat := 0
  section_ : Nat := 0
  offset : Nat := 0
  enableBit : Bool := false
  part : PartState := .none
  /-- the fabric port that a push is bound to, with the bytes expected (R126) -/
  push : Option (Nat × Nat) := none
  lastPort : Nat := 0
  autoEnable : Bool := false
  loadLen : Nat := 0
  loadAddr : W64 := 0#64
  stagedLen : Nat := 0
  partLen : Nat := 0
  /-- image_id and section ids of the partial image that is being applied (Table 5.17) -/
  applying : Nat × Nat := (0, 0)
  /-- the image that passed the check and is being initialised (R128) -/
  checked : Option Img := none
  cfg : Option Img := none
  agreedMinor : Nat := 0
  agreed : Bool := false
  deriving DecidableEq, Repr

/-! ### Windows, versions and the step protocol (chapters 3, 8, 10) -/

/-- Window states (Table 10.2); `direct` marks WRITE_RUN entered straight from QUIET (R238). -/
inductive WSt where
  | quiet
  | held (n : Step)
  | specRun (n : Step)
  | specReady (n : Step)
  | writeRun (n : Step) (direct : Bool)
  | committing (n : Step)
  | fenced
  deriving DecidableEq, Repr

/-- The step's verdict for a tensor (R248). -/
inductive Verdict where
  | commit
  | replay (clip : W32)
  | abandon
  deriving DecidableEq, Repr

/-- A lane group's registers and place while it works on a block (R213, R214). `pc` counts the rule program's
instructions; the pending stores of the block stand beside the registers. -/
structure LaneCtx where
  block : Nat
  pc : Nat := 0
  v : List (List W32) := List.replicate 16 (List.replicate 64 0#32)
  p : List (BitVec 64) := List.replicate 4 (BitVec.allOnes 64)
  clamped : Bool := false
  zeroed : Bool := false
  deriving DecidableEq, Repr

/-- The step parameter table as copied to the engines (Table 9.1). -/
structure StepTable where
  c : List W32
  seed : W64
  lossScale : W32
  mirrorBase : Nat
  mirrorHalf : Nat
  deriving DecidableEq, Repr

/-- A run of the statistics prologue in a stack (R231): the step and clip that it serves, gsc, β, 1 − β and ε of the first
pass to start, and the buffer that it wrote once it has run. -/
structure StatRun where
  tensor : Nat
  step : Step
  clip : W32
  consts : List W32
  ran : Bool := false
  buf : Nat := 0
  deriving DecidableEq, Repr

/-- A pass 2 under way on a window (R215 to R217, R236). -/
structure Pass where
  slot : Nat
  step : Step
  clip : W32
  table : StepTable
  prog : List W32
  fstatDone : Bool
  /-- statistics buffer that the pass's FSTAT filled (R232) -/
  statBuf : Option Nat := none
  stream : StreamId
  command : W32
  lanes : List (Nat × LaneCtx) := []
  flags : Flags := 0#8
  zeroCount : Nat := 0
  /-- per-block header notes of the pass: bit 0 clamped, bit 1 zeroed -/
  notes : List (Nat × Nat) := []
  deriving DecidableEq, Repr

/-- A cut of a window: the DRAIN that took it, and its inverse loss scale, none when fuse is clear (R197, R199). -/
structure Cut where
  own : StreamId × W32
  scale : Option W32
  deriving DecidableEq, Repr

/-- A window: its map entry (Table 3.6), its state (Table 10.2), digest entry (R268), epoch (R191) and the
notes the base die keeps for it. -/
structure Win where
  tensor : Nat
  region : Nat
  k : Nat
  valid : Nat
  stateSlot : Nat
  gSlot : Nat
  committed : Version := 0#32
  specSlot : Nat := 0
  specValid : Bool := false
  stash : List Nat := []
  /-- steps of the stashed versions, newest first (Table 10.8) -/
  stashSteps : List (Option Step) := []
  resident : Bool := true
  tails : Bool := false
  fenced : Bool := false
  st : WSt := .quiet
  hold : Bool := false
  /-- step of the newest committed version; none for a version made by enable or scrub (R246) -/
  step : Option Step := none
  digest : List Byte := List.replicate 16 0#8
  eccSeen : Bool := false
  tenantTag : Nat := 0
  /-- a stash copy under way: stash slot and the retiring state slot that still serves it (R80) -/
  copies : List (Nat × Nat) := []
  eD : BitVec 3 := 0#3
  /-- cuts whose drains have not ended, oldest first (R197) -/
  cuts : List Cut := []
  /-- the DRAIN that last closed the window's epoch (R375) -/
  lastCut : Option (StreamId × W32) := none
  /-- mode fixed for the open epoch (R190) -/
  mode : Option Bool := none
  newestArrival : Nat := 0
  /-- PASS1 result: step and sum of squares (R200) -/
  sumSq : Option (Step × W32) := none
  pass : Option Pass := none
  /-- digest and step of the version that a finished pass or an import wrote (R267) -/
  newDigest : List Byte := []
  /-- the base die's copy of the step parameter table for the window's last pass, with the command it came from (R216) -/
  tableCopy : Option (StepTable × StreamId × W32) := none
  /-- pass 2 runs again from that copy, without a command (R373) -/
  rerun : Bool := false
  /-- the journal record of the commit: not sent, sent, held by the journal (R254) -/
  commitSent : Bool := false
  commitHeld : Bool := false
  /-- the verdict that applies to the window's held step (R248, R249) -/
  verdict : Option Verdict := none
  /-- the staged version was written by IMPORT or SCRUB_TENANT: its step (R266, R329) -/
  importStep : Option (Option Step) := none
  /-- promotion from the slow tier under way (R322) -/
  promoting : Bool := false
  writingBack : Bool := false
  slowIndex : Nat := 0
  /-- the window rests in the slow tier: it has an image there (R83) -/
  slowHome : Bool := false
  /-- step last abandoned for the window (R245, R258) -/
  gone : Option Step := none
  /-- a rebuild stopped its pass: QUIET when the rebuild ends (R313) -/
  stopped : Bool := false
  deriving DecidableEq, Repr

/-! ### Streams (chapter 6) -/

inductive StreamSt where
  | idle | active | paused | halted | reinit
  deriving DecidableEq, Repr

/-- A cached stream descriptor (Table 6.1). -/
structure Desc where
  ringBase : W64
  completionBase : W64
  flagAddr : W64
  generation : W16
  ringLog2 : Nat
  complLog2 : Nat
  poll : Bool
  hubDie : Side
  kind : Nat
  msix : Nat
  tenant : Nat
  pollNs : Nat
  deriving DecidableEq, Repr

/-- Idle causes of Table 4.10 in table order. -/
inductive IdleCause where
  | powerCap | refresh | fabricCredit | peerCommit | norm | gradients | host | other
  deriving DecidableEq, Repr

/-- What became of one window of an UPDATE (R252). -/
inductive WinOut where
  | todo | committed | replayed | untouched
  deriving DecidableEq, Repr

/-- A command that has started and whose completion record is not yet written. -/
structure Flight where
  number : W32
  /-- the command's 64 bytes as a number, byte 0 lowest -/
  cmd : BitVec 512
  /-- the descriptor it started under: where its record goes -/
  desc : Option Desc := none
  status : Option Nat := none
  flags : Flags := 0#8
  result : W64 := 0#64
  cls : Nat := 7
  /-- refused at its start by the tenant's command quota (R160) -/
  refused : Bool := false
  /-- journal records of the command not yet acknowledged (R366) -/
  owed : Nat := 0
  why : Option IdleCause := none
  slow : Bool := false
  /-- windows of the command: window id and outcome -/
  wins : List (Nat × WinOut) := []
  /-- requests or messages awaited: tags -/
  awaits : List Nat := []
  /-- worst fabric status collected so far, and bytes collected -/
  worst : Nat := 0
  phase : Nat := 0
  data : List Byte := []
  table : Option StepTable := none
  deriving DecidableEq, Repr

/-- A stream at its stream processor (R139 to R163). -/
structure Stream where
  desc : Option Desc := none
  st : StreamSt := .idle
  halt : Nat := 0
  gen : W16 := 0#16
  next : W32 := 0#32
  done : W32 := 0xFFFFFFFF#32
  /-- newest command made valid, when one is (R143) -/
  last : Option W32 := none
  pauseBit : Bool := false
  /-- doorbells, and flag values (marked), that wait for the descriptor fetch, in arrival order -/
  waiting : List (Bool × W64) := []
  fetching : Bool := false
  /-- command fetch cache: number and bytes (R144) -/
  cache : List (W32 × BitVec 512) := []
  flights : List Flight := []
  flag : Option W64 := none
  /-- die that serves the stream, once a descriptor has named it (R140) -/
  serving : Option Side := none
  /-- die that fetches the descriptor to learn where to forward -/
  routing : Option Side := none
  /-- generation under which the other die forwards the stream's doorbells -/
  routed : Option W16 := none
  reinitNum : W32 := 0#32
  /-- nodes written to since the last fabric-scope release (Table 7.5, R355): node and virtual channel -/
  wroteNodes : List (Nat × Nat) := []
  /-- PCIe ports through which the stream wrote host memory (Table 7.3) -/
  wroteHost : List Nat := []
  deriving DecidableEq, Repr

/-- A push or a pop that waits for its turn at a micro-batch queue (R156): the stream and the command, or 4,096 and the
port of a message with its tag and source. -/
structure QueueTurn where
  q : Nat
  pop : Bool
  who : Nat
  num : Nat
  deriving DecidableEq, Repr

/-- A micro-batch queue entry (R156). -/
structure QEntry where
  tag : W32
  data : List Byte
  deriving DecidableEq, Repr

/-! ### Stacks (chapters 9, 12) -/

/-- A deferred parity write: granule address and the bytes that changed, as offset and XOR (R319). -/
structure Delta where
  granule : Nat
  xors : List (Nat × Byte)
  deriving DecidableEq, Repr

/-- Update-engine state of a stack (Table 9.11, R60). -/
structure Engine where
  tensor : Nat := 0
  pyro : Bool := false
  drizzle : List (Nat × W32) := []
  seed : W64 := 0#64
  /-- programs in force, by rule slot (R130, R236) -/
  rules : List (Nat × List W32) := []
  /-- runs of the statistics prologue whose buffers may still be read (R231 to R233) -/
  runs : List StatRun := []
  deriving DecidableEq, Repr

/-- Counts of an arbiter: slots served to each class since the last 256, and credit of each class (R159). -/
structure Arb where
  served : List Nat := [0, 0, 0, 0, 0, 0]
  credit : List Int := [0, 0, 0, 0, 0, 0]
  slots : Nat := 0
  deriving DecidableEq, Repr

structure Stack where
  trained : Bool := false
  primary : Nat := 0
  standby : Nat := 0
  onStandby : Bool := false
  sparePrimary : Nat := 0
  spareStandby : Nat := 0
  retrainP : Bool := false
  retrainS : Bool := false
  standbyWaits : Bool := false
  cause : Nat := 0
  thermalTrip : Bool := false
  owner : Side := .A
  shared : Bool := false
  temps : List (Nat × Int) := []
  row : Nat := 0
  retired : Option Nat := none
  /-- cause of the retirement under way or done -/
  retireCause : Nat := 0
  rebuilding : Bool := false
  /-- windows fenced because the stack lost its contents (R320) -/
  lossFenced : List Nat := []
  /-- the twin carries the stack over the standby link (R308, R371) -/
  carried : Bool := false
  /-- the base die refused a change of owner: the stack stays with its fenced owner, in link reset (R371) -/
  refusedOwner : Bool := false
  spareExhausted : Bool := false
  /-- channels that failed with the spare in use: their granules read as poison (R315) -/
  failed : List Nat := []
  lost : Bool := false
  /-- granules restored from each source in the current retirement: copy, parity, replica, default -/
  sources : List Nat := [0, 0, 0, 0]
  progress : Nat := 0
  stackLimit : Nat := 20
  /-- power samples of the stack's own controller and the steps it has taken under stack_cap_w (R394) -/
  watts : List Nat := []
  capSteps : Nat := 0
  /-- channels that hold a bank-compute grant, and channels that wait for one, in service order (R298) -/
  grants : List Nat := []
  grantQueue : List Nat := []
  /-- the arbiter of bank-compute admission (R159, R298) -/
  admission : Arb := {}
  /-- channels whose refresh is under way (R23, R299) -/
  refreshing : List Nat := []
  /-- slots that left their role and wait for release (R78) -/
  releasing : List Nat := []
  /-- tenant tags of state slots and of stash slots (R325) -/
  tags : List (Nat × Nat) := []
  stashTags : List (Nat × Nat) := []
  hubDirty : List Nat := []
  eccRows : List (Nat × Nat) := []
  spares : List (Nat × Nat) := []
  ceChan : List (Nat × Nat) := []
  deltas : List Delta := []
  log : List Delta := []
  logFull : Bool := false
  marginDone : Bool := false
  marginErrors : Nat := 0
  marginBusy : Bool := false
  /-- the margining under way is of a primary lane, within a retraining of the link (R309) -/
  marginHolds : Bool := false
  engine : Engine := {}
  /-- promotion slots in use, as indices within the promotion area (R322) -/
  promoUsed : List Nat := []
  deriving DecidableEq, Repr

/-! ### Newts (chapter 11) -/

/-- A job taken by a newt: its descriptor, tag and origin (R282, R293). -/
structure Job where
  desc : List Byte
  tag : W32 := 0#32
  /-- the NEWT_JOB that submitted it: stream, command number, list index -/
  origin : Option (StreamId × W32 × Nat) := none
  path : Nat := 0
  deriving DecidableEq, Repr

/-- A tadpole pointer: space, offset, format and the bounds of its operand (R285, R297). -/
structure Ptr where
  scratch : Bool
  off : Int
  fmt : Nat
  lo : Nat
  hi : Nat
  deriving DecidableEq, Repr

/-- The registers of a TADPOLE job (R296). -/
structure Tad where
  pc : Nat
  a : List (Option Ptr)
  x : List (List W32) := List.replicate 8 (List.replicate 64 0#32)
  s : List W32 := List.replicate 8 0#32
  deriving DecidableEq, Repr

/-- A record on the neighbour chain: binary32 values, poisoned or not (R295, R301). -/
structure ChainRec where
  vals : List W32
  poison : Bool
  deriving DecidableEq, Repr

structure Newt where
  mode : Bool := false
  window : Option Nat := none
  exiting : Bool := false
  retired : Bool := false
  job : Option Job := none
  wait : Option Job := none
  staging : List (Nat × Byte) := []
  lastTag : W32 := 0#32
  lastFlags : Flags := 0#8
  lastPoison : Bool := false
  error : Nat := 0
  errorValid : Bool := false
  poisonOff : Nat := 0
  suspended : Bool := false
  /-- the suspended newt has requested its grant again, after the last refresh (R299) -/
  asked : Bool := false
  /-- token count T of the running job, taken when it started (R291) -/
  tokens : Nat := 0
  chainWait : Bool := false
  /-- the suspension under way was forced (R300) -/
  forced : Bool := false
  flags : Flags := 0#8
  /-- channel offset of the first poisoned byte that the running job read -/
  poisoned : Option Nat := none
  /-- the running job counts as poisoned without a read: a poisoned record or a fault; what its offset field then shows is
  open (R295, R297, R301) -/
  tainted : Option Nat := none
  tad : Option Tad := none
  store : List (Nat × W32) := []
  /-- a tadpole partial image's new store waits for ready (R130) -/
  newStore : Option (List (Nat × W32)) := none
  /-- record on the link toward this newt, and the record buffer (R295) -/
  arriving : Option ChainRec := none
  buffer : Option ChainRec := none
  /-- an ATTEND that has computed its triple and waits on the chain -/
  partialTriple : Option ChainRec := none
  /-- that ATTEND has merged the record it was to receive -/
  merged : Bool := false
  deriving DecidableEq, Repr

/-! ### Fabric (chapter 13) -/

inductive LinkSt where
  | down | training | hello | up | reset | failed
  deriving DecidableEq, Repr

/-- A frame held for replay (R341): its sequence number, that of its message's HEAD, channel, message and frame index
within it. -/
structure TxFrame where
  seq : BitVec 12
  head : BitVec 12
  vc : Nat
  msg : Msg
  idx : Nat
  deriving DecidableEq, Repr

/-- A message being assembled in one virtual channel (R335): its HEAD's sequence number, route header, bytes and frames so
far. -/
structure RxPart where
  seq : BitVec 12
  head : BitVec 256
  data : List Byte
  frames : Nat
  deriving DecidableEq, Repr

structure FabPort where
  st : LinkSt := .down
  width4 : Bool := false
  speed56 : Bool := false
  /-- 0 data, 1 stage -/
  role : Nat := 0
  bootstrap : Bool := true
  /-- FAB_PORT_CTRL.force_width4 and force_speed56 -/
  force4 : Bool := false
  force56 : Bool := false
  partnerUid : W64 := 0#64
  partnerPort : Nat := 0
  partnerNode : Option (BitVec 17) := none
  /-- available counts and last totals received, by virtual channel (R337, R338) -/
  avail : List Nat := [0, 0, 0, 0]
  lastTotal : List Nat := [0, 0, 0, 0]
  /-- own credit totals, the totals last reported, and the channel whose turn it is (R338) -/
  totals : List Nat := [0, 0, 0, 0]
  reported : List Nat := [0, 0, 0, 0]
  creditTurn : Nat := 0
  rxNext : BitVec 12 := 0#12
  accepted : Bool := false
  nakPending : Bool := false
  nakSent : Bool := false
  ackPending : Bool := false
  nextSeq : BitVec 12 := 0#12
  newestAck : Option (BitVec 12) := none
  replay : List TxFrame := []
  /-- by channel: sequence number of the HEAD last sent -/
  txHead : List Nat := [0, 0, 0, 0]
  /-- messages waiting to be sent, with the frames already sent -/
  queue : List (Msg × Nat) := []
  /-- ack-timeout replays in a row (R342) -/
  timeouts : Nat := 0
  parts : List (Nat × RxPart) := []
  /-- whole messages for this node, with the frames whose buffers they hold -/
  delivered : List (Msg × Nat) := []
  /-- the link was UP before the reset under way (R343) -/
  wasUp : Bool := false
  sawHello : Bool := false
  /-- cause of the reset under way plus one; 0 when none -/
  resetting : Nat := 0
  minor : Nat := 0
  /-- held messages of a FAILED port, with their HEADs' sequence numbers, await a SALVAGE reply; new messages of the
  triples that used the port are held back (R353) -/
  salvaging : Bool := false
  salvage : List (BitVec 12 × Msg) := []
  heldBack : List Msg := []
  /-- FAB_PUSH: bytes sent and the total, while a push runs (R359) -/
  pushing : Option (Nat × Nat) := none
  pushState : Nat := 0
  pushStatus : Nat := 0
  departing : Bool := false
  deriving DecidableEq, Repr

/-- An outstanding request of this node (R354): tag, destination, the command it serves, and its kind. -/
structure Req where
  tag : W16
  dest : Nat
  op : Nat
  stream : StreamId
  command : W32
  off : Nat
  len : Nat
  deriving DecidableEq, Repr

/-- A topology report (R348). -/
structure TopoRec where
  uid : Nat
  node : Option Nat
  ports : List (List Nat)
  deriving DecidableEq, Repr

/-- A repair: window, source node, the free slot it fills, the command it serves, the requests still unanswered, the
source's digest, and whether its journal record was sent. -/
structure Repair where
  w : Nat
  src : Nat
  slot : Nat
  stream : StreamId
  command : W32
  awaits : List Nat := []
  digest : List Byte := []
  bad : Bool := false
  sent : Bool := false
  /-- the fetch has a pool slot; before that the repair waits for one -/
  started : Bool := true
  deriving DecidableEq, Repr

/-- A version that an ALL_GATHER query selected at this node: window, stash or state slot, slot, version and step. -/
structure AgWin where
  w : Nat
  stash : Bool
  slot : Nat
  version : Version
  step : Option Step
  deriving DecidableEq, Repr

/-- The versions held for an ALL_GATHER query (R358). -/
structure AgHold where
  tag : Nat
  src : Nat
  wins : List AgWin
  deriving DecidableEq, Repr

/-- A replica digest received from a source node (R357); tensor 2^24 marks the end of the list. -/
structure DigestRec where
  src : Nat
  step : Nat
  tensor : Nat
  k : Nat
  digest : List Byte
  deriving DecidableEq, Repr

/-- A leaf list message received (R357): part 0 to 15 of the window's leaves, or 16 for the side's ecc_seen. -/
structure LeafRec where
  src : Nat
  w : Nat
  part : Nat
  bytes : List Byte
  deriving DecidableEq, Repr

/-- A receipt held under R210: window, step, reduced blocks, and whether its last message has come. -/
structure Receipt where
  w : Nat
  step : Nat
  blocks : List (Nat × List W16) := []
  ended : Bool := false
  deriving DecidableEq, Repr

/-- Routing state that ASSIGN and TABLE messages of one epoch bring, before it is installed (R349). -/
structure NewTables where
  epoch : W32
  id : Option (BitVec 17) := none
  assigned : Bool := false
  nodes : Nat := 0
  parts : List Nat := []
  group : List (Nat × W64) := []
  member : List (Nat × W64) := []
  deriving DecidableEq, Repr

structure Fabric where
  uid : W64 := 0#64
  id : Option (BitVec 17) := none
  root : Bool := false
  rootUid : W64 := 0#64
  epoch : W32 := 0#32
  st : Nat := 0
  parent : Nat := 0
  dist : Nat := 0
  best : Option (Nat × Nat) := none
  changed : Bool := false
  group : List (Nat × W64) := []
  member : List (Nat × W64) := []
  topos : List TopoRec := []
  assigned : List (Nat × Nat) := []
  nextEpoch : W32 := 0#32
  acks : List Nat := []
  /-- child port from which a node's TOPO arrived (R348) -/
  via : List (Nat × Nat) := []
  newTables : Option NewTables := none
  nextTag : W16 := 0#16
  reqs : List Req := []
  unreachable : List Nat := []
  loop_ : List Msg := []
  /-- NORM_SUMs held: step, source node, rank, sum (R357) -/
  sums : List (Step × Nat × Nat × W64) := []
  /-- reduce-scatter: contributions applied, and windows whose final drain has ended: window, step, rank (R356) -/
  applied : List (Nat × Nat × Nat) := []
  /-- contributions that wait for an entry and have been counted: window, step, rank, first block (R195) -/
  rsWaits : List (Nat × Nat × Nat × Nat) := []
  drained : List (Nat × Nat) := []
  /-- digests received (R357) -/
  digests : List DigestRec := []
  /-- leaf lists received (R357) -/
  leafLists : List LeafRec := []
  /-- versions held for an ALL_GATHER query (R358) -/
  agHolds : List AgHold := []
  /-- receipts held under R210 -/
  receipts : List Receipt := []
  /-- replica list of the newest AUDIT that completed, with the own rank (R314) -/
  auditPeers : List Nat := []
  auditRank : Nat := 0
  /-- repairs under way (R271) -/
  repairs : List Repair := []
  deriving DecidableEq, Repr

/-! ### Journal and hub dies (chapters 14, 15) -/

/-- Contents of a journal record (Table 14.1). -/
inductive JRec where
  | commit (w : Nat)
  | repair (w : Nat) (slot freed : Nat) (digest : List Byte)
  | flags (w : Nat)
  | verdict (tensor : Nat) (step : Step) (v : Verdict) (stream : StreamId) (command : W32)
  | sync (obj : Nat) (val : W64)
  | key (slot : Nat) (half : Nat) (clear : Bool) (tenant : Nat) (words : List W32)
  | context (n : Nat) (tokens : W32) (slice : W32)
  | bind (tensor tenant : Nat) (bound : Bool) (charge : Nat)
  | evtBlock (first : W64)
  | image (what : Nat)
  deriving DecidableEq, Repr

/-- A journal record with the command it belongs to, if any, and whether the mirror holds it. -/
structure JEntry where
  seq : W64 := 0#64
  from_ : Side
  body : JRec
  cmd : Option (StreamId × W32) := none
  written : Bool := false
  acked : Bool := false
  deriving DecidableEq, Repr

structure Journal where
  /-- records on their way to the master, oldest first -/
  queue : List JEntry := []
  /-- records in the journal, not yet freed (R367) -/
  entries : List JEntry := []
  seq : W64 := 0#64
  /-- newest record applied to each stack's backing store -/
  applied : List (Nat × W64) := []
  /-- records that completed on the master alone since the mirror was last whole (R366, R378) -/
  solo : List JRec := []
  deriving DecidableEq, Repr

/-- HUB_TWIN_STATUS.state (Table 14.5). -/
inductive TwinSt where
  | paired | bridgeLost | fencing | failover | solo | rejoining | fencedUs
  deriving DecidableEq, Repr

inductive Power where
  | frost | dew | thaw | run
  deriving DecidableEq, Repr

/-- A fault-log entry (R381). -/
structure FaultRec where
  code : Nat
  unit : Nat
  cause : Nat
  fencedUs : Bool
  tick : Nat
  deriving DecidableEq, Repr

/-- The record of the newest NORM (Table 8.5). -/
structure NormRec where
  sumSq : W64 := 0#64
  clip : W32 := 0x3F800000#32
  step : Step := 0#48
  valid : Bool := false
  nonfinite : Bool := false
  clipped : Bool := false
  deriving DecidableEq, Repr

/-- A rail hold (R397). -/
structure Hold where
  rail : Nat
  minMv : Nat
  crossings : Nat
  usBelow : Nat
  deriving DecidableEq, Repr

structure Die where
  power : Power := .frost
  /-- powered and past AON_RST_N release: SMBus answers -/
  aon : Bool := false
  /-- hub core out of reset -/
  core : Bool := false
  /-- core fenced by its twin -/
  fenced : Bool := false
  coreAlive : Bool := false
  fenceLine : Bool := false
  fenceAnswered : Bool := false
  shell : Bool := false
  relay : Bool := false
  twinSt : TwinSt := .paired
  suspectCause : Nat := 0
  lastBeat : Bool := false
  pwrReq : Bool := false
  pgIn : Bool := false
  smbAddr : BitVec 3 := 0#3
  imgAccept : Bool := false
  dewPending : Bool := false
  wakeCause : Nat := 0
  thawUs : Nat := 0
  jtag : Nat := 1
  faults : List (Nat × FaultRec) := []
  faultNext : Nat := 0
  faultWrapped : Bool := false
  norm : NormRec := {}
  slowType : Nat := 0
  slowPos : Nat := 0
  slowGib : Nat := 0
  slowRate : Nat := 0
  slowUp : Bool := true
  slowPoison : List Nat := []
  marginBusy : Bool := false
  marginDone : Bool := false
  marginErrors : Nat := 0
  temp : Int := 0
  thermal : Bool := false
  thermal115 : Bool := false
  hubSteps : Nat := 0
  /-- governor throttle steps of this die under hub_cap_w -/
  capSteps : Nat := 0
  /-- this die's power samples, 0.25 W units, newest last (R394) -/
  samples : List Nat := []
  /-- Frost made the temperatures stale (Table 4.12) -/
  stale : Bool := false
  warn : List Nat := []
  hold : Option Hold := none
  below : List Nat := []
  minRail : Nat := 0
  minMv : Nat := 0
  deferred : Bool := false
  rails : List (Nat × Nat) := []
  snap : List (Nat × Nat) := []
  snapOvf : List (Nat × Bool) := []
  sel : Nat := 0
  deriving DecidableEq, Repr

/-- The governor on the journal-master die (R394). -/
structure Governor where
  samples : List Nat := []
  admission : Nat := 20
  projected : Nat := 0
  idleSteps : Nat := 10
  deriving DecidableEq, Repr

/-! ### What leaves the block -/

/-- What the block has sent and the outside has not yet collected. -/
inductive Out where
  | msix (port : Side) (vector : Nat)
  | frame (port : Nat) (hdr : W64) (msg : Option Msg) (idx : Nat)
  | ctl (port : Nat) (kind : Nat) (fields : List Nat)
  | gradResp (m : Nat) (status bucket seq : Nat)
  | gatherResp (m : Nat) (status bucket seq : Nat) (version : Version) (data : List Byte)
  | read (port : Side) (data : List Byte)
  /-- a zero-length read that a release at host scope issues (Table 7.3) -/
  | zeroRead (port : Side)
  /-- the die-to-die layer's advertisement at module bring-up: interface version (R133) -/
  | advert (module major minor : Nat)
  | smbus (die : Side) (data : List Byte)
  | nack (die : Side)
  | tdo (die : Side) (v : W32)
  | line (die : Side) (name : Nat) (level : Bool)
  deriving DecidableEq, Repr

/-! ### The state -/

/-- A GRAD_ADD that waits for an entry (R195): module, epoch that it belongs to, header, values, always-on tick of its
arrival, whether its window was not resident while it waited, and the hub die that holds it. -/
structure GradHeld where
  m : Nat
  epoch : Nat
  hdr : BitVec 128
  vals : List W16
  since : Nat
  slow : Bool
  die : Side
  deriving DecidableEq, Repr

/-- A GATHER_REQ that waits for a promotion (R322). -/
structure GatherHeld where
  m : Nat
  hdr : BitVec 256
  since : Nat
  die : Side
  deriving DecidableEq, Repr

/-- The whole complex: everything the spec gives the block. -/
structure Cx where
  /-- every memory space, keyed by canonical device address (R62, R63); unlisted bytes read 0 -/
  mem : List Host.Cell
  /-- dirty bytes of the stack caches (R167); a listed byte is dirty in its owner's cache -/
  dirty : List (Nat × Byte)
  /-- poisoned 64-byte codewords, by address div 64 (R316) -/
  poison : List Nat
  /-- ECC-unknown codewords (R302) -/
  eccUnknown : List Nat
  /-- plain registers by BAR0 offset (R7, R8); unlisted ones hold their reset value -/
  regs : List (Nat × W32)
  /-- counters by BAR0 offset (R11) -/
  ctrs : List (Nat × Ctr)
  portA : Port
  portB : Port
  dieA : Die
  dieB : Die
  /-- the hub bridge is up (R16) -/
  bridge : Bool
  /-- UCIe modules that are up, with the agreed minor version (R133) -/
  modules : List (Nat × Nat)
  /-- the die that holds the commit journal master, the event arbiter and the governor (R18) -/
  master : Side
  img : ImageSt
  arb : Arbiter
  wins : List (Nat × Win)
  verdicts : List (Nat × Step × Verdict)
  /-- tensors and steps for which `STEP_ABANDONED` has been raised (R258) -/
  abandoned : List (Nat × Step)
  /-- tenant binding by tensor (R325) and stack charge by tenant, in windows (R328) -/
  binding : List (Nat × Nat)
  charge : List (Nat × Nat)
  quotaSaid : List Nat
  /-- tenant keys: slot to 16 words (R326), and loaded slots -/
  keys : List (Nat × List W32)
  keyWords : List (Nat × W32)
  streams : List (Nat × Stream)
  syncs : List (Nat × W64)
  queues : List (Nat × List QEntry)
  /-- pushes and pops that wait at the queues, in order of arrival (R156) -/
  turns : List QueueTurn
  /-- reads holding slots (R78): stack, slot, stream, command -/
  holds : List (Nat × Nat × Nat × Nat)
  /-- accumulation buffer lanes by (window, block, epoch, slot, lane) (R186) -/
  acc : List (Nat × W32)
  arrivals : Nat
  /-- newest seq per module and stack (R185) -/
  seqs : List (Nat × W16)
  /-- GRAD_ADD requests that wait for an entry (R195), in order of arrival -/
  gradHeld : List GradHeld
  /-- GATHER_REQ requests that wait for a promotion (R322) -/
  gatherHeld : List GatherHeld
  /-- factored tensors whose final sums are written, with the step (R201) -/
  finals : List (Nat × Step)
  stks : List (Nat × Stack)
  newts : List (Nat × Newt)
  journal : Journal
  ports : List (Nat × FabPort)
  fab : Fabric
  gov : Governor
  /-- always-on ticks since reset -/
  ticks : Nat
  /-- attention contexts (R291): context number, token count and slice tokens -/
  attCtx : List (Nat × W32 × W32)
  /-- the model's own counter of free values drawn -/
  free : Nat
  out : List Out
  deriving DecidableEq, Repr

/-- The block: its commands that wait and the complex. -/
structure State where
  /-- commands waiting, first in first out -/
  pending : List Instr
  cx : Cx
  deriving DecidableEq, Repr

/-- The complex right after reset: the power-on reset of both hub dies, before AON_RST_N is released. -/
def Cx.reset : Cx where
  mem := []
  dirty := []
  poison := []
  eccUnknown := []
  regs := []
  ctrs := []
  portA := {}
  portB := {}
  dieA := {}
  dieB := {}
  bridge := false
  modules := []
  master := .A
  img := {}
  arb := {}
  wins := []
  verdicts := []
  abandoned := []
  binding := []
  charge := []
  quotaSaid := []
  keys := []
  keyWords := []
  streams := []
  syncs := []
  queues := []
  turns := []
  holds := []
  acc := []
  arrivals := 0
  seqs := []
  gradHeld := []
  gatherHeld := []
  finals := []
  stks := (List.range 20).map (fun i => (i, { owner := if i < 10 then .A else .B }))
  newts := []
  journal := {}
  ports := []
  fab := {}
  gov := {}
  ticks := 0
  attCtx := []
  free := 0
  out := []

/-- The machine right after reset: nothing waits. -/
def State.reset : State where
  pending := []
  cx := Cx.reset

end Sys2Proof.Machine
end

