-- ==== Sys2Proof/Machine/Ops.lean ====
section
/-!
DEFINITION. The named operations every command is written from: accessors, events, counters, registers, MSI-X
messages, device addresses and their checks, reads and writes of each memory space, windows and slots, and the
journal.
-/
namespace Sys2Proof.Machine

abbrev R := Host.Outcome State Fault Refusal

/-- A command's answer: the complex changes, the queue does not. -/
def State.go (s : State) (c : Cx) : R := .next { s with cx := c }

/-! ### Accessors -/

def Cx.die (c : Cx) : Side → Die
  | .A => c.dieA
  | .B => c.dieB

def Cx.modDie (c : Cx) (d : Side) (f : Die → Die) : Cx :=
  match d with
  | .A => { c with dieA := f c.dieA }
  | .B => { c with dieB := f c.dieB }

def Cx.port (c : Cx) : Side → Port
  | .A => c.portA
  | .B => c.portB

def Cx.modPort (c : Cx) (d : Side) (f : Port → Port) : Cx :=
  match d with
  | .A => { c with portA := f c.portA }
  | .B => { c with portB := f c.portB }

def Cx.stk (c : Cx) (s : Nat) : Stack := kget {} c.stks s

def Cx.modStk (c : Cx) (s : Nat) (f : Stack → Stack) : Cx :=
  { c with stks := kput c.stks s (f (c.stk s)) }

def Cx.newt (c : Cx) (g : Nat) : Newt := kget {} c.newts g

def Cx.modNewt (c : Cx) (g : Nat) (f : Newt → Newt) : Cx :=
  { c with newts := kput c.newts g (f (c.newt g)) }

def Cx.strm (c : Cx) (n : Nat) : Stream := kget {} c.streams n

def Cx.modStrm (c : Cx) (n : Nat) (f : Stream → Stream) : Cx :=
  { c with streams := kput c.streams n (f (c.strm n)) }

def Cx.fp (c : Cx) (p : Nat) : FabPort := kget {} c.ports p

def Cx.modFp (c : Cx) (p : Nat) (f : FabPort → FabPort) : Cx :=
  { c with ports := kput c.ports p (f (c.fp p)) }

def Cx.modWin (c : Cx) (w : Nat) (f : Win → Win) : Cx :=
  match kget? c.wins w with
  | some v => { c with wins := kput c.wins w (f v) }
  | none => c

def Cx.emit (c : Cx) (o : Out) : Cx := { c with out := c.out ++ [o] }

/-- Draw a fresh byte that the spec leaves undefined (log entry 4). -/
def Cx.drawByte (c : Cx) : Byte × Cx := (Config.freeByte c.free, { c with free := c.free + 1 })

/-- Draw a fresh value that the spec leaves open (log entry 15). -/
def Cx.drawOpen (c : Cx) (op : Nat) : W64 × Cx := (Config.openResult op c.free, { c with free := c.free + 1 })

/-- Hub die that is the home of a stack (R15). -/
def homeDie (s : Nat) : Side := if s < 10 then .A else .B

/-- Die that owns a stack (R362, R363). -/
def Cx.owner (c : Cx) (s : Nat) : Side := (c.stk s).owner

/-- Stack of a window id (R73). -/
def winStack (w : Nat) : Nat := w % 20

/-- The image is enabled (R127). -/
def Cx.enabled (c : Cx) : Bool := c.img.st == .enabled

/-- A hub core runs: out of reset, not fenced. -/
def Cx.coreUp (c : Cx) (d : Side) : Bool := (c.die d).core && !(c.die d).fenced

/-- The die takes requests: its core runs and it is in Run, or in Dew or Thaw, where the request is held and then
served (R389). -/
def Cx.serves (c : Cx) (d : Side) : Bool := c.coreUp d && (c.die d).power != .frost

/-- A hub core takes the requests of a die's UCIe modules: its own, or its twin's over the relay, which the hub bridge
carries (R19). -/
def Cx.shellServes (c : Cx) (d : Side) : Bool := c.serves d || ((c.die d.twin).relay && c.bridge && c.serves d.twin)

/-- The bridge is lost and R17 applies: it is down while both hub cores run. -/
def Cx.r17 (c : Cx) : Bool := !c.bridge && c.coreUp .A && c.coreUp .B

/-- The journal has no mirror: records complete on the master alone (R18, R366). -/
def Cx.alone (c : Cx) : Bool := !c.bridge || !c.coreUp c.master.twin

/-- The standby link cannot carry traffic: not trained, or retraining. -/
def Stack.standbyDown (k : Stack) : Bool := k.standby < 2 || k.retrainS

/-- A stack in link reset: neither link carries traffic (R308), or its trip row is in force (Table 12.2). A stack that the
twin carries has the standby link alone, and R308 names its primary link's retraining as well. -/
def Stack.linkReset (k : Stack) : Bool :=
  k.thermalTrip || k.refusedOwner
    || (if k.carried then k.retrainP || k.standbyDown else (k.primary < 2 || (k.onStandby && k.retrainP)) && k.standbyDown)

/-- The stack answers requests over a link. -/
def Cx.stackUp (c : Cx) (s : Nat) : Bool := (c.stk s).trained && !(c.stk s).linkReset

/-- A stack that commands cannot use now: link reset, rebuild, failover (Table 6.5). -/
def Cx.stackBusy (c : Cx) (s : Nat) : Bool :=
  (c.stk s).linkReset || (c.stk s).rebuilding || (c.stk s).lost || !c.coreUp (c.owner s)
    || ((c.die (c.owner s)).twinSt == .failover && c.owner s != homeDie s)

/-- The base die cannot work on its stack's windows: they are being rebuilt or are lost. Neither a link reset nor a fenced
hub core stops it (R24). -/
def Cx.engineHalted (c : Cx) (s : Nat) : Bool := (c.stk s).rebuilding || (c.stk s).lost

/-! ### BAR0 offsets (Table 4.4) -/

def hubBase (d : Side) : Nat := 0x30000 + 0x8000 * d.num
def pwrBase (d : Side) : Nat := 0x20000 + 0x8000 * d.num
def fabBase (p : Nat) : Nat := 0x40000 + 0x1000 * p
def updBase (s : Nat) : Nat := 0x100000 + 0x1000 * s
def stkBase (s : Nat) : Nat := 0x200000 + 0x4000 * s
def nwtBase (g : Nat) : Nat := 0x400000 + 0x100 * g

/-! ### Events (R99, R101, R380) -/

/-- Messages of an MSI-X vector (R90): a masked vector sets its pending bit; with driver_ready 0, or with bus
mastering off, none leaves the port. -/
def Cx.msix (c : Cx) (p : Side) (v : Nat) : Cx :=
  let q := c.port p
  if q.fnMask || q.masked.contains v then c.modPort p fun q => { q with pending := nput q.pending v }
  else if q.driverReady && q.busMaster && q.up then c.emit (.msix p v) else c

/-- R11 for n increments at once of a counter of the given width. -/
def Ctr.add (k : Ctr) (width n : Nat) : Ctr × Bool :=
  let m := 2 ^ width - 1
  if k.val + n ≤ m then ({ k with val := k.val + n }, false)
  else ({ val := m, ovf := true }, !k.ovf)

/-- Raise an event (R379, R380): it goes toward the arbiter; while R17 applies, the die without the arbiter holds up to
4,096 events and signals severity 3 on vector 1 of its own port. An event beyond that is lost; EVT_LOST of an enabled ring
counts it (R100), and the COUNTER_SATURATED that this may raise (R11) finds no room either. -/
def Cx.raise (c : Cx) (e : Ev) : Cx :=
  if c.r17 && e.die != c.master then
    let c := if e.sev = 3 then c.msix e.die 1 else c
    if c.arb.held.length < 4096 then { c with arb := { c.arb with held := c.arb.held ++ [e] } }
    else if (c.port e.die).ring.enable then
      let k := (c.port e.die).ring.lost.add 32 1
      let c := c.modPort e.die fun q => { q with ring := { q.ring with lost := k.1 } }
      { c with arb := { c.arb with heldLost := c.arb.heldLost + 1 + b2n k.2 } }
    else { c with arb := { c.arb with heldLost := c.arb.heldLost + 1 } }
  else { c with arb := { c.arb with queue := c.arb.queue ++ [e] } }

/-- Raise an event from its parts. -/
def Cx.ev (c : Cx) (code cls sev : Nat) (d : Side) (idx : Nat) (fields : List Nat)
    (step : Option Step := none) (tenant : Option Nat := none) : Cx :=
  c.raise { code := code, unitClass := cls, sev := sev, die := d, index := idx, step := step, tenant := tenant,
            fields := fields }

/-- `HOST_ACCESS`: BAR, offset, size, write flag. -/
def Cx.hostAccess (c : Cx) (p : Side) (bar off size : Nat) (write : Bool) : Cx :=
  c.ev 0x0001 11 1 p p.num [bar, off, size, b2n write]

/-- A dropped access: HST_STATUS.access_dropped and `HOST_ACCESS` (R7, R89, R91). -/
def Cx.hostDrop (c : Cx) (p : Side) (bar off size : Nat) (write : Bool) : Cx :=
  (c.modPort p fun q => { q with dropped := true }).hostAccess p bar off size write

/-! ### Counters and flag registers (R11, R12, R104) -/

/-- Block that holds a BAR0 offset (Table 4.4): its first offset, and the unit class and unit index with which the model
reports a counter of it (Table 4.7; DESIGN CHOICE, log entry 58). -/
def ctrBlock (off : Nat) : Nat × Nat × Nat :=
  if off < 0x20000 then (0x10000, 13, 0)
  else if off < 0x30000 then (off / 0x8000 * 0x8000, 10, off / 0x8000 % 2)
  else if off < 0x40000 then (off / 0x8000 * 0x8000, 13, off / 0x8000 % 2)
  else if off < 0x100000 then (off / 0x1000 * 0x1000, 7, off / 0x1000 % 64)
  else if off < 0x200000 then (off / 0x1000 * 0x1000, 0, off / 0x1000 % 256)
  else if off < 0x400000 then (off / 0x4000 * 0x4000, 8, off / 0x4000 % 128)
  else (off / 0x100 * 0x100, 1, off / 0x100 % 16384)

/-- `COUNTER_SATURATED` of the counter at a BAR0 offset: its block and its offset in the block (Table 4.8). -/
def Cx.saturated (c : Cx) (off : Nat) (d : Side) : Cx :=
  let b := ctrBlock off
  c.ev 0xA001 b.2.1 0 d b.2.2 [b.1, off - b.1]

/-- Count at a BAR0 offset; the first increment not applied raises `COUNTER_SATURATED` (R11). -/
def Cx.bump (c : Cx) (off width : Nat) (d : Side) (n : Nat := 1) : Cx :=
  let r := (kget {} c.ctrs off).add width n
  let c := { c with ctrs := kput c.ctrs off r.1 }
  if r.2 then c.saturated off d else c

def Cx.ctr (c : Cx) (off : Nat) : Ctr := kget {} c.ctrs off

/-- R12: value and overflow flag clear together. -/
def Cx.ctrClear (c : Cx) (off : Nat) : Cx := { c with ctrs := kdel c.ctrs off }

/-- Reset values of the plain registers that do not reset to zero (Tables 9.11, 15.7). -/
def regReset (off : Nat) : W32 := if off = 0x20004 || off = 0x28004 then 3#32 else 0#32

def Cx.reg (c : Cx) (off : Nat) : W32 := (kget? c.regs off).getD (regReset off)

def Cx.setReg (c : Cx) (off : Nat) (v : W32) : Cx := { c with regs := kput c.regs off v }

/-- Set bits of a sticky register (R104). -/
def Cx.orReg (c : Cx) (off : Nat) (v : W32) : Cx := if v = 0#32 then c else c.setReg off (c.reg off ||| v)

/-- Numeric flags into a unit's sticky register (R46, R104). -/
def Cx.orFlags (c : Cx) (off : Nat) (f : Flags) : Cx := c.orReg off (f.setWidth 32)

def hubFlagsReg (d : Side) : Nat := hubBase d + 0x80
def updFlagsReg (s : Nat) : Nat := updBase s
def nwtFlagsReg (g : Nat) : Nat := nwtBase g + 4

/-! ### Produced NaNs (R55 to R58) -/

/-- A produced NaN on its way to the arbiter. -/
def Cx.nan (c : Cx) (r : NanRec) : Cx := { c with arb := { c.arb with nans := c.arb.nans ++ [r] } }

/-- R56: arm the trap for the step of a command that issues. -/
def Cx.arm (c : Cx) (n : Step) : Cx :=
  match c.arb.armed with
  | none => { c with arb := { c.arb with armed := some n, record := none } }
  | some m => if newer n m then { c with arb := { c.arb with armed := some n, record := none } } else c

/-! ### Device addresses (R62, R63) -/

/-- Where a device address leads. -/
inductive Loc where
  | stack (s off : Nat)
  | slow (d : Side) (off : Nat)
  | sram (d : Side) (off : Nat)
  | accBuf (s off : Nat)
  | newtPad (g off : Nat)
  | host (port : Side) (addr : Nat)
  deriving DecidableEq, Repr

def stackBytes : Nat := 0x1800000000
def channelBytes : Nat := 0xC0000000
def sramBytes : Nat := 0x10000000
def padBytes : Nat := 0x40000
def rowBytes : Nat := 131072

/-- Installed slow-tier bytes of a hub die. -/
def Cx.slowBytes (c : Cx) (d : Side) : Nat :=
  let k := c.die d
  if k.slowType = 0 then 0 else ((List.range 8).filter (bit k.slowPos)).length * k.slowGib * 2 ^ 30

/-- Stacks in use: the active ones of the enabled image; before enable those that trained (R125). -/
def Cx.active (c : Cx) (s : Nat) : Bool :=
  match c.img.cfg with
  | some g => if c.enabled then g.geo.active.contains s else (c.stk s).trained
  | none => (c.stk s).trained

/-- Rows of the retirement spare (R68). -/
def spareRows : Nat := 24576

/-- Number of a row outside the spare (R69). -/
def spareNumber (base row : Nat) : Nat := if row < base then row else row - spareRows

/-- Row outside the spare that has a number. -/
def spareRow (base n : Nat) : Nat := if n < base then n else n + spareRows

/-- Retired channel of a stack and first row of its spare. -/
def Cx.retirement? (c : Cx) (s : Nat) : Option (Nat × Nat) :=
  match (c.stk s).retired, c.img.cfg with
  | some k, some g => some (k, g.lay.spareBase)
  | _, _ => none

/-- Channel that holds a stack offset: its own, or, for a granule of the retired channel, the one that the spare gives it
(R69). -/
def Cx.bankOf (c : Cx) (s off : Nat) : Nat :=
  let k := bits off 16 12
  let row := off / 131072
  match c.retirement? s with
  | some (r, base) =>
    if k = r && !(decide (base ≤ row ∧ row < base + spareRows)) then
      let i := spareNumber base row % 31
      if i < r then i else i + 1
    else k
  | none => k

/-- Memory keeps a moved granule under the address that names it; the spare's own addresses name the same bytes (R69). -/
def Cx.spareAlias (c : Cx) (s off : Nat) : Nat :=
  let k := bits off 16 12
  let row := off / 131072
  match c.retirement? s with
  | some (r, base) =>
    if base ≤ row ∧ row < base + spareRows ∧ k ≠ r then
      spareRow base ((row - base) * 31 + if k < r then k else k - 1) * 131072 + r * 4096 + off % 4096
    else off
  | none => off

/-- Stack offset of channel offset x in channel k (R67). -/
def chanOff (k x : Nat) : Nat := x / 4096 * 131072 + k * 4096 + x % 4096

/-- R62: the place a device address names, none when the address is invalid. -/
def Cx.decode (c : Cx) (a : Nat) : Option Loc :=
  match bits a 63 60 with
  | 0 =>
    let s := bits a 41 37
    let o := bits a 36 0
    if bits a 59 42 = 0 && s < 20 && c.active s && o < stackBytes then some (.stack s o) else none
  | 1 =>
    let g := bits a 41 32
    let x := bits a 31 0
    if bits a 59 42 = 0 && g < 640 && c.active (g / 32) && x < channelBytes
    then some (.stack (g / 32) (chanOff (g % 32) x)) else none
  | 2 =>
    let d := Side.ofNum (bits a 40 40)
    if bits a 59 41 = 0 && bits a 39 0 < c.slowBytes d then some (.slow d (bits a 39 0)) else none
  | 3 =>
    let u := bits a 43 32
    let o := bits a 31 0
    if bits a 59 48 != 0 then none
    else match bits a 47 44 with
      | 0 => if u < 2 && o < sramBytes then some (.sram (Side.ofNum u) o) else none
      | 1 => if u < 20 && o < 48 * 2 ^ 20 then some (.accBuf u o) else none
      | 2 => if u < 640 && o < padBytes then some (.newtPad u o) else none
      | _ => none
  | 4 => if bits a 59 58 = 0 then some (.host (Side.ofNum (bits a 57 57)) (bits a 56 0)) else none
  | _ => none

/-- Memory space that a key belongs to: 0 stacks, 2 slow tier, 3 on-die memories, from 4 host memory. -/
def keySpace (k : Nat) : Nat := k / 2 ^ 60

/-- The key of a byte in `mem`: one number for one byte, whichever view names it (R63). -/
def stackKey (s off : Nat) : Nat := s * 2 ^ 37 + off
def slowKey (d : Side) (off : Nat) : Nat := 2 * 2 ^ 60 + d.num * 2 ^ 40 + off
def sramKey (d : Side) (off : Nat) : Nat := 3 * 2 ^ 60 + d.num * 2 ^ 32 + off
def padKey (g off : Nat) : Nat := 3 * 2 ^ 60 + 2 * 2 ^ 44 + g * 2 ^ 32 + off
def accKey (s off : Nat) : Nat := 3 * 2 ^ 60 + 2 ^ 44 + s * 2 ^ 32 + off
def hostKey (a : Nat) : Nat := 4 * 2 ^ 60 + a

/-- Key of the byte at a location: for an address inside a stack's spare, the byte that the spare holds there (R69). -/
def Cx.locKey (c : Cx) : Loc → Nat
  | .stack s o => stackKey s (c.spareAlias s o)
  | .slow d o => slowKey d o
  | .sram d o => sramKey d o
  | .accBuf s o => accKey s o
  | .newtPad g o => padKey g o
  | .host _ a => hostKey a

/-- Bytes from an address to the limit of its space, for a valid address. -/
def Cx.room (c : Cx) (a : Nat) : Nat :=
  match bits a 63 60 with
  | 0 => stackBytes - bits a 36 0
  | 1 => channelBytes - bits a 31 0
  | 2 => c.slowBytes (Side.ofNum (bits a 40 40)) - bits a 39 0
  | 3 => (match bits a 47 44 with | 0 => sramBytes | 1 => 48 * 2 ^ 20 | _ => padBytes) - bits a 31 0
  | _ => 2 ^ 57 - bits a 56 0

/-- Key of byte i of the range that begins at device address a. -/
def Cx.keyAt (c : Cx) (a i : Nat) : Nat := ((c.decode (a + i)).map c.locKey).getD 0

/-! ### Areas of a stack and the access check (R64, R84, R86, Table 3.2) -/

/-- A placed region covers channel k, channel offset x of stack s (R84). -/
def Region.covers (r : Region) (s k x : Nat) : Bool :=
  r.placed && bit r.stackMask s && bit r.channelMask k && r.base ≤ x && x < r.base + r.size

def Cx.inPlaced (c : Cx) (s off : Nat) : Bool :=
  match c.img.cfg with
  | some g => g.regions.any fun r => r.covers s (bits off 16 12) (off / 131072 * 4096 + off % 4096)
  | none => false

/-- The state slot whose rows hold a stack offset. -/
def Img.slotOf (g : Img) (off : Nat) : Option Nat :=
  let r := off / rowBytes
  if g.lay.stateBase ≤ r && r < g.lay.stateBase + (g.lay.live + g.lay.pool) * 33
  then some ((r - g.lay.stateBase) / 33) else none

/-- Slots of a stack that some window holds as its live, resident state. -/
def Cx.liveSlots (c : Cx) (s : Nat) : List Nat :=
  (c.wins.filter fun p => winStack p.1 = s && p.2.resident).map fun p => p.2.stateSlot

/-- Slots of a stack that hold speculative versions. -/
def Cx.specSlots (c : Cx) (s : Nat) : List Nat :=
  (c.wins.filter fun p => winStack p.1 = s && p.2.specValid).map fun p => p.2.specSlot

/-- Slots of a stack held by reads: gathers and the stash copies (R78). -/
def Cx.heldSlots (c : Cx) (s : Nat) : List Nat :=
  (c.holds.filter fun h => h.1 = s).map (fun h => h.2.1)
    ++ (c.wins.filter fun p => winStack p.1 = s).flatMap (fun p => p.2.copies.map (·.2))

/-- A slot is free: no window's, held by no read and not waiting for release (R77, R78). -/
def Cx.slotFree (c : Cx) (s n : Nat) : Bool :=
  !(c.liveSlots s).contains n && !(c.specSlots s).contains n && !(c.heldSlots s).contains n
    && !(c.stk s).releasing.contains n

/-- Kinds of access by device address. -/
inductive Acc where
  | read | write | debug
  deriving DecidableEq, Repr

/-- R86 and Table 3.2: may this access touch this byte? -/
def Cx.open? (c : Cx) (k : Acc) (l : Loc) : Bool :=
  match l with
  | .stack s off =>
    if !c.enabled then true
    else if c.inPlaced s off then true
    else if k == .debug then
      match c.img.cfg.bind (fun g => g.slotOf (c.spareAlias s off)) with
      | some n => !(c.specSlots s).contains n && !(c.slotFree s n)
      | none => true
    else false
  | .sram d off =>
    match c.img.cfg with
    | some g =>
      if c.enabled then
        let r := match d with | .A => g.streams.sramA | .B => g.streams.sramB
        decide (r.1 ≤ off ∧ off < r.1 + r.2)
      else !(decide (0xC000000 ≤ off))
    | none => !(decide (0xC000000 ≤ off))
  | .accBuf _ _ => k == .debug
  | .newtPad g _ => (c.newt g).job.isNone && (c.newt g).wait.isNone
  | .slow _ _ => true
  | .host _ _ => true

/-- R64: offset of the first byte of a range that fails the check; none when the range passes. -/
def Cx.checkRange (c : Cx) (k : Acc) (a n : Nat) : Option Nat :=
  match c.decode a with
  | none => some 0
  | some _ =>
    if n > c.room a then
      match (List.range (c.room a)).find? (fun i => !((c.decode (a + i)).any (c.open? k))) with
      | some i => some i
      | none => some (c.room a)
    else (List.range n).find? (fun i => !((c.decode (a + i)).any (c.open? k)))

/-- `ADDR_INVALID` (R64): source, stream, command, operand position, address. -/
def Cx.addrInvalid (c : Cx) (d : Side) (source : Nat) (st : StreamId) (cmd : W32) (pos addr : Nat) : Cx :=
  c.ev 0x0002 (if source = 0 then 6 else 11) 2 d d.num [source, st.toNat, cmd.toNat, pos, addr]

/-! ### Bytes -/

/-- A byte as DRAM, hub SRAM, slow tier or host memory holds it. -/
def Cx.byte (c : Cx) (k : Nat) : Byte := kget 0#8 c.mem k

/-- A byte as a hub-side reader sees it: through the stack cache (R167). -/
def Cx.hubByte (c : Cx) (k : Nat) : Byte := (kget? c.dirty k).getD (c.byte k)

/-- The canonical form of memory: keys strictly rising, and no listed byte equal to what an unlisted one reads as. -/
def Memory.wf (m : List Host.Cell) : Bool := kwf m && m.all fun p => p.2 != 0#8

def Cx.putByte (c : Cx) (k : Nat) (b : Byte) : Cx := { c with mem := kset 0#8 c.mem k b }

/-- Raw bytes from a key upward. -/
def Cx.bytes (c : Cx) (k n : Nat) : List Byte := (List.range n).map fun i => c.byte (k + i)

/-- Bytes at a base-die unit's side of a stack. -/
def Cx.dram (c : Cx) (s off n : Nat) : List Byte := c.bytes (stackKey s off) n

/-- A stack byte lies in a channel that failed with no spare to move to: it reads as poison whatever is written (R315). -/
def Cx.deadAt (c : Cx) (k : Nat) : Bool :=
  keySpace k = 0 && (let f := (c.stk (k / 2 ^ 37)).failed
    !f.isEmpty && f.contains (c.bankOf (k / 2 ^ 37) (k % 2 ^ 37)))

/-- Is the key's codeword poisoned in memory? Slow-tier poison is kept in 4 KiB granules (R316). -/
def Cx.poisonAt (c : Cx) (k : Nat) : Bool :=
  if keySpace k = 2 then (c.die (Side.ofNum (bits k 40 40))).slowPoison.contains (bits k 39 0 / 4096)
  else c.poison.contains (k / 64) || c.deadAt k

/-- Poison as a hub-side reader sees it: a dirty byte carries none. -/
def Cx.hubPoisonAt (c : Cx) (k : Nat) : Bool := c.poisonAt k && (kget? c.dirty k).isNone

/-- Zero to [k, k + n) at once: its listed bytes leave the list. -/
def Cx.clearRange (c : Cx) (k n : Nat) : Cx :=
  { c with mem := c.mem.filter fun p => !(decide (k ≤ p.1 ∧ p.1 < k + n)),
           poison := c.poison.filter fun w => !(decide (k ≤ w * 64 ∧ w * 64 + 64 ≤ k + n)),
           eccUnknown := c.eccUnknown.filter fun w => !(decide (k ≤ w * 64 ∧ w * 64 + 64 ≤ k + n)) }

/-- Poison marks of one codeword or granule; a full slow-tier table takes zeros instead (R316). -/
def Cx.markPoison (c : Cx) (k : Nat) : Cx :=
  if keySpace k = 2 then
    let d := Side.ofNum (bits k 40 40)
    let n := bits k 39 0 / 4096
    if (c.die d).slowPoison.contains n then c
    else if (c.die d).slowPoison.length < 4096 then c.modDie d fun x => { x with slowPoison := nput x.slowPoison n }
    else
      (c.clearRange (slowKey d (n * 4096)) 4096).ev 0x600C 8 2 d d.num [d.num, n * 4096]
  else { c with poison := nput c.poison (k / 64) }

def Cx.clearPoison (c : Cx) (k : Nat) : Cx :=
  if keySpace k = 2 then
    c.modDie (Side.ofNum (bits k 40 40)) fun x => { x with slowPoison := ndel x.slowPoison (bits k 39 0 / 4096) }
  else { c with poison := ndel c.poison (k / 64), eccUnknown := ndel c.eccUnknown (k / 64) }

/-- Unit in which a space keeps poison. -/
def poisonUnit (k : Nat) : Nat := if keySpace k = 2 then 4096 else 64

/-- Units wholly inside [k, k + n): their first keys (R316). -/
def fullUnits (k n : Nat) : List Nat :=
  let u := poisonUnit k
  let first := (k + u - 1) / u
  let last := (k + n) / u
  (List.range (last - first)).map fun i => (first + i) * u

/-! ### Parity (R318, R319) -/

/-- Data row number of a row outside the parity share (R318). -/
def Layout.dataRow (l : Layout) (row : Nat) : Option Nat :=
  if row < l.parityBase then some row
  else if row < l.parityBase + l.parityRows then none else some (row - l.parityRows)

/-- Stack and row of the parity of a data row, with its stripe (R318). -/
def Layout.parityOf (l : Layout) (s row : Nat) : Option (Nat × Nat) :=
  (l.dataRow row).map fun n =>
    let q := (20 * n + s) / 19
    (19 - q % 20, l.parityBase + q / 20)

/-- R319: the delta of a write to a data row goes toward the parity stack, or into the writer's staging while that
stack is in link reset or rebuild. -/
def Cx.parityDelta (c : Cx) (s off : Nat) (old new : Byte) : Cx :=
  match c.img.cfg with
  | none => c
  | some g =>
    if !c.enabled || g.geo.parity != 1 || old = new then c
    else match g.lay.parityOf s (off / rowBytes) with
      | none => c
      | some (ps, prow) =>
        let d : Delta := { granule := prow * 32 + bits off 16 12, xors := [(off % 4096, old ^^^ new)] }
        if (c.stk ps).linkReset || (c.stk ps).rebuilding then
          let c := if (c.stk s).log.length ≥ 262144 && !(c.stk s).logFull
            then (c.modStk s fun k => { k with logFull := true }).ev 0x600A 8 1 (homeDie s) s [s, ps] else c
          c.modStk s fun k => { k with log := k.log ++ [{ d with granule := d.granule + ps * 2 ^ 32 }] }
        else c.modStk ps fun k => { k with deltas := k.deltas ++ [d] }

/-- One byte written to memory from the memory's own side; a normal write ends its codeword's ECC-unknown mark, whose
poison stays until a write of the whole codeword (R302). -/
def Cx.poke1 (c : Cx) (k : Nat) (b : Byte) : Cx :=
  let c := { c with eccUnknown := ndel c.eccUnknown (k / 64) }
  if keySpace k = 0 then (c.parityDelta (k / 2 ^ 37) (k % 2 ^ 37) (c.byte k) b).putByte k b else c.putByte k b

/-- Bytes written to memory from its own side: base-die writes, slow-tier, hub SRAM and host writes. A full write
of a codeword or granule clears its poison (R316). -/
def Cx.poke (c : Cx) (k : Nat) (bs : List Byte) : Cx :=
  let c := (bs.foldl (fun p b => (p.1.poke1 p.2 b, p.2 + 1)) (c, k)).1
  (fullUnits k bs.length).foldl Cx.clearPoison c

/-- Zero to a range of memory from its own side. -/
def Cx.zero (c : Cx) (k n : Nat) : Cx := c.poke k (List.replicate n 0#8)

/-! ### The stack cache (R167 to R171) -/

/-- Does a hub-side access to this stack byte go through the stack cache? Not while R17 applies, and not while its
channel is in newt mode (R167, R169). -/
def Cx.cached (c : Cx) (k : Nat) : Bool :=
  decide (keySpace k = 0) && !c.r17 && !(c.newt (k / 2 ^ 37 * 32 + bits k 16 12)).mode

/-- One byte of a hub-side write. -/
def Cx.hubPut (c : Cx) (k : Nat) (b : Byte) : Cx :=
  if c.cached k then { c with dirty := kput c.dirty k b } else c.poke1 k b

/-- A hub-side write of consecutive keys. -/
def Cx.hubPoke (c : Cx) (k : Nat) (bs : List Byte) : Cx :=
  let c := (bs.foldl (fun p b => (p.1.hubPut p.2 b, p.2 + 1)) (c, k)).1
  if c.cached k then c else (fullUnits k bs.length).foldl Cx.clearPoison c

/-- Write back the dirty bytes that a predicate selects; a codeword wholly dirty loses its poison. -/
def Cx.writeBack (c : Cx) (sel : Nat → Bool) : Cx :=
  let d := c.dirty.filter fun p => sel p.1
  let c := d.foldl (fun c p => c.poke1 p.1 p.2) { c with dirty := c.dirty.filter fun p => !sel p.1 }
  (c.poison.filter fun w => (List.range 64).all fun i => (kget? d (w * 64 + i)).isSome).foldl
    (fun c w => c.clearPoison (w * 64)) c

/-- Lines of 128 bytes holding dirty bytes that a predicate selects. -/
def Cx.dirtyLines (c : Cx) (sel : Nat → Bool) : List Nat :=
  (c.dirty.filter fun p => sel p.1).foldl (fun l p => nput l (p.1 / 128)) []

/-- Does the 128-byte line of key k overlap [lo, lo + n)? -/
def lineIn (lo n k : Nat) : Bool := decide (lo / 128 ≤ k / 128 ∧ k / 128 * 128 < lo + n)

/-- R168: a base-die write of [k, k+n), then the lines that overlap it are written back and invalidated, so bytes a
hub-side write left dirty hold the hub-side value. -/
def Cx.baseWrite (c : Cx) (k : Nat) (bs : List Byte) : Cx :=
  (c.poke k bs).writeBack (lineIn k bs.length)

/-- R169: write back and invalidate every line of a channel. -/
def Cx.flushChannel (c : Cx) (g : Nat) : Cx :=
  c.writeBack fun k => decide (k / 2 ^ 37 = g / 32 ∧ bits k 16 12 = g % 32 ∧ keySpace k = 0)

def inStack (s k : Nat) : Bool := decide (k / 2 ^ 37 = s)

/-! ### Operand bytes by device address -/

/-- Read an operand on the hub side. -/
def Cx.readAt (c : Cx) (a n : Nat) : List Byte := (List.range n).map fun i => c.hubByte (c.keyAt a i)

/-- First poisoned byte of an operand, as an offset. -/
def Cx.poisonIn (c : Cx) (a n : Nat) : Option Nat := (List.range n).find? fun i => c.hubPoisonAt (c.keyAt a i)

/-- Write an operand on the hub side. Stack offsets of the channel view are taken granule by granule (R67). -/
def Cx.writeAt (c : Cx) (a : Nat) (bs : List Byte) : Cx :=
  if bits a 63 60 = 1 then (bs.foldl (fun p b => (p.1.hubPut (p.1.keyAt a p.2) b, p.2 + 1)) (c, 0)).1
  else c.hubPoke (c.keyAt a 0) bs

/-- A little-endian field of an operand. -/
def Cx.numAt (c : Cx) (a n : Nat) : Nat := leNat (c.readAt a n)

/-- Host-memory operands need their port up (R65). -/
def Cx.hostDown (c : Cx) (a : Nat) : Bool :=
  decide (bits a 63 60 = 4) && !((c.port (Side.ofNum (bits a 57 57))).up)

/-! ### Reaching a place (R17, R20, Table 6.5) -/

def stOk : Nat := 0x00
def stDelayed : Nat := 0x01
def stSlow : Nat := 0x02
def stRetry : Nat := 0x10
def stQuota : Nat := 0x11
def stFenced : Nat := 0x12
def stRetired : Nat := 0x20
def stPoison : Nat := 0x30

/-- While R17 applies, a hub die reaches the other's stacks only over its own standby links. -/
def Cx.standbyLost (c : Cx) (d : Side) (s : Nat) : Bool :=
  c.r17 && c.owner s != d && (decide ((c.stk s).standby < 2) || (c.stk s).retrainS)

/-- A status that keeps a command of die d from an operand (R17, Table 6.5): a stack in link reset, rebuild or failover, or
over no link of this die; slow-tier or hub SRAM memory of a die that is fenced or across a lost bridge. -/
def Cx.unreachable? (c : Cx) (d : Side) (a : Nat) : Option (Nat × Nat) :=
  let stack (s : Nat) : Option (Nat × Nat) := if c.stackBusy s || c.standbyLost d s then some (stRetry, 0) else none
  match c.decode a with
  | some (.stack s _) | some (.accBuf s _) => stack s
  | some (.newtPad g _) => stack (g / 32)
  | some (.slow e _) | some (.sram e _) =>
    if !c.coreUp e then some (stFenced, e.num) else if e != d && c.r17 then some (stRetry, 0) else none
  | _ => none

/-! ### Tensors, windows and slots (R70 to R78) -/

def Cx.tensor? (c : Cx) (h : Nat) : Option Tensor :=
  c.img.cfg.bind fun g => g.tensors.find? fun t => t.handle = h

/-- Windows of a tensor. -/
def Tensor.windows (t : Tensor) : Nat := (t.count + 1048575) / 1048576

/-- Valid parameters of window k of a tensor (R75). -/
def Tensor.valid (t : Tensor) (k : Nat) : Nat := min 1048576 (t.count - k * 1048576)

/-- Window id of window k of a tensor (R74). -/
def Img.windowId (g : Img) (t : Tensor) (k : Nat) : Nat :=
  let a := g.geo.active
  let r0 := a.findIdx (· == t.start)
  a.getD ((r0 + k) % a.length) 0 + 20 * (t.base + (r0 + k) / a.length)

def Cx.windowId (c : Cx) (t : Tensor) (k : Nat) : Nat :=
  match c.img.cfg with
  | some g => g.windowId t k
  | none => 0

/-- Window ids of windows k … k+n-1 of a tensor. -/
def Cx.windowIds (c : Cx) (t : Tensor) (k n : Nat) : List Nat := (List.range n).map fun i => c.windowId t (k + i)

def Cx.tensorWindows (c : Cx) (t : Tensor) : List Nat := c.windowIds t 0 t.windows

def Cx.region? (c : Cx) (n : Nat) : Option Region := c.img.cfg.bind fun g => g.regions.find? fun r => r.id = n

def Cx.lay (c : Cx) : Layout :=
  match c.img.cfg with
  | some g => g.lay
  | none => { stateBase := 0, live := 0, pool := 0, promoBase := 0, promo := 0, gradBase := 0, mapBase := 0,
              stashBase := 0, stashRows := 0, spareBase := 0, parityBase := 0, parityRows := 0, stagingRows := 0 }

/-- Slots of the state-slot area (R76, Table 3.6). -/
def Cx.slotCount (c : Cx) : Nat := c.lay.live + c.lay.pool

/-- Stack offset of a state slot. A promotion slot n is named by the index L + P + n (log entry 11). -/
def Cx.slotOff (c : Cx) (slot : Nat) : Nat :=
  if slot < c.slotCount then (c.lay.stateBase + slot * 33) * rowBytes
  else (c.lay.promoBase + (slot - c.slotCount) * 33) * rowBytes

/-- Stack offset of a gradient slot. -/
def Cx.gOff (c : Cx) (slot : Nat) : Nat := (c.lay.gradBase + slot * 16) * rowBytes

/-- Stash record of a region. -/
def Cx.stashRec? (c : Cx) (region : Nat) : Option StashRec :=
  c.img.cfg.bind fun g => g.stash.find? fun r => r.region = region

def Cx.stashDepth (c : Cx) (region : Nat) : Nat := ((c.stashRec? region).map (·.depth)).getD 0

/-- Stack offset of stash slot n of a region (R117); stash indices count 16-row slots from the area's base
(log entry 12). -/
def Cx.stashOff (c : Cx) (region n : Nat) : Nat :=
  ((((c.stashRec? region).map (·.firstRow)).getD 0) + 16 * n) * rowBytes

/-- Key of byte o of a window's live state slot. -/
def Cx.stateKey (c : Cx) (w : Nat) (v : Win) (o : Nat) : Nat := stackKey (winStack w) (c.slotOff v.stateSlot + o)

def offW : Nat := 0
def offT : Nat := 0x200000
def offM : Nat := 0x300000
def offH : Nat := 0x400000

/-- Block header b of a state slot (R71). -/
def Cx.header (c : Cx) (s slot b : Nat) : Nat := leNat (c.dram s (c.slotOff slot + offH + 8 * b) 8)

/-- The free slot the model takes: the one of least index (log entry 13). -/
def Cx.freeSlot (c : Cx) (s : Nat) : Option Nat := firstBelow c.slotCount (c.slotFree s)

/-- Free slots of a stack (HUB_POOL). -/
def Cx.freeCount (c : Cx) (s : Nat) : Nat := ((List.range c.slotCount).filter (c.slotFree s)).length

/-- Free promotion slot of a stack, as its index in the slot numbering. -/
def Cx.freePromo (c : Cx) (s : Nat) : Option Nat :=
  (List.range c.lay.promo).map (· + c.slotCount) |>.find? (c.slotFree s)

/-- Stash slots of a region that no window of the stack uses. -/
def Cx.freeStash (c : Cx) (s region : Nat) : Option Nat :=
  let used := (c.wins.filter fun p => winStack p.1 = s && p.2.region = region).flatMap (fun p => p.2.stash)
  match c.stashRec? region with
  | some r => firstBelow r.slots (fun n => !used.contains n)
  | none => none

/-- A slot leaves its role: it waits for its release (R78). -/
def Cx.retire (c : Cx) (s slot : Nat) : Cx := c.modStk s fun k => { k with releasing := nput k.releasing slot }

/-- Step that a window works on. -/
def WSt.step? : WSt → Option Step
  | .held n | .specRun n | .specReady n | .writeRun n _ | .committing n => some n
  | _ => none

/-- `NUM_STATE_NAN_ZEROED` of a pass that ends or is dropped (R45). -/
def Cx.sayZeroed (c : Cx) (w : Nat) (p : Pass) : Cx :=
  if p.zeroCount = 0 then c
  else c.ev 0x1003 0 1 (homeDie (winStack w)) (winStack w) [w, p.zeroCount] (some p.step)

/-- The slots of a discarded speculative version return to the free slots (R77); a pass under way is dropped. -/
def Cx.discardSpec (c : Cx) (w : Nat) : Cx :=
  match kget? c.wins w with
  | none => c
  | some v =>
    let c := if v.specValid then c.retire (winStack w) v.specSlot else c
    let c := match v.pass with
      | some p => c.sayZeroed w p
      | none => c
    c.modWin w fun v => { v with specValid := false, pass := none, newDigest := [], commitSent := false,
                                 commitHeld := false }

/-- Tag a slot with the tenant of its window (R325). -/
def Cx.tagSlot (c : Cx) (s slot tenant : Nat) : Cx := c.modStk s fun k => { k with tags := kset 0 k.tags slot tenant }

/-! ### Accumulation epochs (R186, R191) -/

/-- Key of an accumulation buffer lane. -/
def accIdx (w b e slot lane : Nat) : Nat := (((w * 16384 + b) * 8 + e) * 16 + slot) * 64 + lane

/-- Window of an accumulation buffer key. -/
def accWin (k : Nat) : Nat := k / (16384 * 8 * 16 * 64)
def accEpoch (k : Nat) : Nat := k / (16 * 64) % 8
def accBlock (k : Nat) : Nat := k / (8 * 16 * 64) % 16384

/-- The DRAIN whose cut is the oldest, and its scale. -/
def Win.cut (v : Win) : Option (StreamId × W32) := v.cuts.head?.map (·.own)
def Win.cutScale (v : Win) : Option W32 := v.cuts.head?.bind (·.scale)

/-- The epoch that takes contributions: e_d + 1, and one more for each cut whose drain has not ended (R191, R197). -/
def Win.openEpoch (v : Win) : Nat := (v.eD + 1#3 + BitVec.ofNat 3 v.cuts.length).toNat

/-- Drop a window's accumulation entries that a predicate on the epoch selects. -/
def Cx.dropAcc (c : Cx) (w : Nat) (sel : Nat → Bool) : Cx :=
  { c with acc := c.acc.filter fun p => !(accWin p.1 = w && sel (accEpoch p.1)) }

/-! ### The journal (R365 to R368) -/

/-- Send a record toward the journal master (R366). -/
def Cx.submit (c : Cx) (d : Side) (r : JRec) (cmd : Option (StreamId × W32) := none) : Cx :=
  { c with journal := { c.journal with queue := c.journal.queue ++ [{ from_ := d, body := r, cmd := cmd }] } }

/-! ### ecc_seen (R268) -/

/-- The state slot, a promotion slot included, whose rows hold a stack offset (log entry 11). -/
def Cx.slotAt (c : Cx) (off : Nat) : Option Nat :=
  let r := off / rowBytes
  let l := c.lay
  if l.stateBase ≤ r && r < l.stateBase + c.slotCount * 33 then some ((r - l.stateBase) / 33)
  else if l.promoBase ≤ r && r < l.promoBase + l.promo * 33 then some (c.slotCount + (r - l.promoBase) / 33)
  else none

/-- Set ecc_seen of the window whose live or speculative slot holds a stack offset (R268). -/
def Cx.eccSeenAt (c : Cx) (s off : Nat) : Cx :=
  match c.slotAt off with
  | none => c
  | some n =>
    match c.wins.find? (fun p => winStack p.1 = s && ((p.2.resident && p.2.stateSlot = n)
        || (p.2.specValid && p.2.specSlot = n))) with
    | some p => c.modWin p.1 fun v => { v with eccSeen := true }
    | none => c

/-- A read returned the poison of this byte: ecc_seen of its window (R268). -/
def Cx.sawPoison (c : Cx) (k : Nat) : Cx := if keySpace k = 0 then c.eccSeenAt (k / 2 ^ 37) (k % 2 ^ 37) else c

end Sys2Proof.Machine
end

