-- ==== Sys2Proof/Machine/Events.lean ====
section
/-!
DEFINITION. The event arbiter, the event rings and their registers, the MSI-X vectors and the first-NaN trap
(chapter 4, R55 to R58, R379, R380).
-/
namespace Sys2Proof.Machine

/-! ### Event records (R98, R101) -/

/-- The 64 bytes of an event record (Table 4.7); payload packing is free (log entry 3). -/
def EvRec.bytes (r : EvRec) (phase : Bool) : List Byte :=
  let e := r.ev
  leBytes 8 r.seq.toNat ++ leBytes 2 e.code ++ [BitVec.ofNat 8 (e.unitClass % 16 + e.sev % 16 * 16)]
    ++ [BitVec.ofNat 8 (e.die.num + 2 * b2n e.step.isSome + 4 * b2n e.tenant.isSome)] ++ leBytes 2 e.index
    ++ leBytes 2 (e.tenant.getD 0) ++ leBytes 6 ((e.step.map BitVec.toNat).getD 0)
    ++ (List.range 40).map (Config.eventPayload e.code e.fields) ++ [0#8] ++ [BitVec.ofNat 8 (b2n phase)]

/-- The ring has no room for another record (R99). -/
def Ring.full (r : Ring) : Bool := decide ((r.tail + 1) % 2 ^ r.size = r.head)

/-- Records in the holding queue. -/
def Ring.heldCount (r : Ring) : Nat :=
  (r.held.filter fun h => match h with | .record _ => true | .gap _ _ _ => false).length

/-- A record can be written to host memory through this port now (log entry 14). -/
def Cx.canWriteRing (c : Cx) (p : Side) : Bool :=
  c.coreUp p && (c.port p).up && (c.port p).busMaster && !(c.port p).ring.full

/-- Write one record at the tail; vector 0 fires when count records are unsignalled (R90, R98). -/
def Cx.writeRecord (c : Cx) (p : Side) (r : EvRec) : Cx :=
  let g := (c.port p).ring
  let c := c.poke (hostKey (g.base.toNat + 64 * g.tail)) (r.bytes g.phase)
  let t := (g.tail + 1) % 2 ^ g.size
  let fire := g.irqCount != 0 && decide (g.irqCount ≤ g.unsignalled + 1)
  let c := c.modPort p fun q => { q with ring := { q.ring with
    tail := t, phase := if t = 0 then !g.phase else g.phase, lastSeq := r.seq,
    unsignalled := if fire then 0 else g.unsignalled + 1 } }
  if fire then c.msix p 0 else c

/-- The record that stands in the place of a gap (R99). -/
def gapRecord (p : Side) (count : Nat) (first last : W64) : EvRec :=
  { seq := first, ev := { code := 0x0004, unitClass := 13, sev := 1, die := p, index := p.num,
                          fields := [count, first.toNat, last.toNat] } }

/-- Write waiting records while there is room, in sequence order (R99). -/
def Cx.drainHeld : Nat → Side → Cx → Cx
  | 0, _, c => c
  | n + 1, p, c =>
    if !c.canWriteRing p then c
    else match (c.port p).ring.held with
      | [] => c
      | h :: t =>
        let c := c.modPort p fun q => { q with ring := { q.ring with held := t } }
        Cx.drainHeld n p (match h with
          | .record r => c.writeRecord p r
          | .gap k a b => c.writeRecord p (gapRecord p k a b))

def Cx.drainRing (c : Cx) (p : Side) : Cx := Cx.drainHeld ((c.port p).ring.held.length + 1) p c

/-- Join a lost record to the gap at the end of the holding queue (R99). -/
def addGap (h : List HeldItem) (s : W64) : List HeldItem :=
  match h.getLast? with
  | some (.gap k a _) => h.dropLast ++ [.gap (k + 1) a s]
  | _ => h ++ [.gap 1 s s]

/-- A numbered record for one port's ring (R99). -/
def Cx.ringPush (c : Cx) (p : Side) (r : EvRec) : Cx :=
  let g := (c.port p).ring
  if !g.enable then c
  else if g.held.isEmpty && c.canWriteRing p then c.writeRecord p r
  else if g.heldCount < 1024 then
    c.modPort p fun q => { q with ring := { q.ring with held := q.ring.held ++ [.record r] } }
  else
    let k := g.lost.add 32 1
    let c := c.modPort p fun q => { q with ring := { q.ring with lost := k.1, held := addGap q.ring.held r.seq } }
    if k.2 then c.ev 0xA001 13 0 p p.num [0x10000, 0x18] else c

/-- Index of the event that reaches the arbiter: the earliest of the unit that the n-th waiting one names (R379). -/
def Arbiter.pick (a : Arbiter) (n : Nat) : Nat :=
  match a.queue[n]? with
  | some e => a.queue.findIdx fun x => x.unitClass = e.unitClass && x.index = e.index && x.die = e.die
  | none => 0

/-- The fault log takes an entry (R381). -/
def Cx.logFault (c : Cx) (d : Side) (code unit cause : Nat) (us : Bool) : Cx :=
  c.modDie d fun k => { k with
    faults := kput k.faults k.faultNext { code := code, unit := unit, cause := cause, fencedUs := us, tick := c.ticks },
    faultNext := (k.faultNext + 1) % 8,
    faultWrapped := k.faultWrapped || (kget? k.faults k.faultNext).isSome }

/-- Claim the next block of sequence numbers with an EVT_BLOCK record before using them (R379). -/
def Cx.claimBlock (c : Cx) : Cx :=
  if newer c.arb.claimed c.arb.seq then c
  else
    let first : W64 := c.arb.seq >>> 16 <<< 16
    let c := { c with arb := { c.arb with claimed := first + 65536#64 } }
    if c.enabled then c.submit c.master (.evtBlock first) else c

/-- An event gets its number and goes to the enabled rings; severity 3 signals vector 1 at once (R90, R379). The two ports'
rings and vectors get it whether or not the bridge is up (DESIGN CHOICE, log entry 85). -/
def Cx.arrive (c : Cx) (e : Ev) : Cx :=
  let c := c.claimBlock
  let r : EvRec := { seq := c.arb.seq, ev := e }
  let c := { c with arb := { c.arb with seq := c.arb.seq + 1#64,
                                        sev3 := if e.sev = 3 then kput c.arb.sev3 0 (min 65535 (kget 0 c.arb.sev3 0 + 1))
                                                else c.arb.sev3 } }
  let c := if e.sev = 3 then (c.logFault e.die e.code e.index e.unitClass false).msix .A 1 |>.msix .B 1 else c
  (c.ringPush .A r).ringPush .B r

/-- EVENT_ARRIVAL (R379): the event that the n-th waiting one stands for reaches the arbiter. -/
def execEventArrival (n : Nat) (s : State) : R :=
  let c := s.cx
  let i := c.arb.pick n
  match c.arb.queue[i]? with
  | none => s.go c
  | some e =>
    if c.coreUp c.master then s.go (({ c with arb := { c.arb with queue := c.arb.queue.eraseIdx i } }).arrive e)
    else s.go c

/-! ### Interrupts (R90) -/

/-- IRQ_HOLDOFF_EXPIRY (R90): the oldest unsignalled record is holdoff_us old. -/
def execIrqHoldoffExpiry (p : Side) (s : State) : R :=
  let g := (s.cx.port p).ring
  if g.holdoff != 0 && g.unsignalled != 0 then
    s.go ((s.cx.modPort p fun q => { q with ring := { q.ring with unsignalled := 0 } }).msix p 0)
  else s.go s.cx

/-- Send the pending messages that no mask holds back any more (R90). One that the port cannot send then, with driver_ready 0
or bus mastering off, is not kept (DESIGN CHOICE, log entry 85). -/
def Cx.sendPending (c : Cx) (p : Side) : Cx :=
  let q := c.port p
  if q.fnMask then c
  else
    let go := q.pending.filter fun v => !q.masked.contains v
    go.foldl (fun c v => (c.modPort p fun q => { q with pending := ndel q.pending v }).msix p v) c

/-- MSIX_UNMASK (R90): the function mask, or one vector's mask, is cleared. -/
def execMsixUnmask (p : Side) (vec : Option (Fin 64)) (s : State) : R :=
  let c := match vec with
    | none => s.cx.modPort p fun q => { q with fnMask := false }
    | some v => s.cx.modPort p fun q => { q with masked := ndel q.masked v.val }
  s.go (c.sendPending p)

/-! ### Ring registers (R100, Table 4.6) -/

/-- EVT_RING_HEAD_WRITE (R100): a head within the span from the head to the tail frees space. -/
def execEvtRingHeadWrite (p : Side) (v : W32) (s : State) : R :=
  let c := s.cx
  let g := (c.port p).ring
  let h := bits v.toNat 15 0
  let m := 2 ^ g.size
  if h < m ∧ (h + m - g.head) % m ≤ (g.tail + m - g.head) % m then
    s.go ((c.modPort p fun q => { q with ring := { q.ring with head := h } }).drainRing p)
  else s.go (c.hostDrop p 0 0x10010 4 true)

/-- EVT_RING_BASE_WRITE (R100): ignored while enabled, and for a low half off the 4 KiB boundary. -/
def execEvtRingBaseWrite (p : Side) (high : Bool) (v : W32) (s : State) : R :=
  let c := s.cx
  let g := (c.port p).ring
  if g.enable || (!high && bits v.toNat 11 0 != 0) then
    s.go (c.hostDrop p 0 (if high then 0x10004 else 0x10000) 4 true)
  else
    let b := if high then setBits g.base.toNat 63 32 v.toNat else setBits g.base.toNat 31 0 v.toNat
    s.go (c.modPort p fun q => { q with ring := { q.ring with base := BitVec.ofNat 64 b } })

/-- size_log2 as it is read back (Table 4.6). -/
def ringSize (v : Nat) : Nat := if 8 ≤ v ∧ v ≤ 16 then v else 8

/-- Effect of a write of EVT_RING_CTRL on a ring (R100). -/
def Ring.control (g : Ring) (enable : Bool) (size : Nat) : Ring :=
  let g := if g.enable then g else { g with size := size }
  match enable, g.enable with
  | true, false => { g with enable := true, head := 0, tail := 0, phase := true, unsignalled := 0, held := [] }
  | false, true => { g with enable := false, held := [] }
  | _, _ => g

/-- EVT_RING_CTRL_WRITE (R100). -/
def execEvtRingCtrlWrite (p : Side) (v : W32) (s : State) : R :=
  let c := s.cx
  let g := (c.port p).ring
  let size := ringSize (bits v.toNat 12 8)
  let c := if g.enable && size != g.size then c.hostDrop p 0 0x10008 4 true else c
  s.go (c.modPort p fun q => { q with ring := q.ring.control (bit v.toNat 0) size })

/-! ### The first-NaN trap (R56 to R58) -/

/-- Fields of a first-NaN record in the order of Table 2.6. -/
def NanRec.fields (r : NanRec) : List Nat :=
  [(r.step.map BitVec.toNat).getD 0, r.unitClass, r.index, r.stream, r.command, b2n r.tensorValid, r.tensor, r.element,
   r.pc, r.further]

/-- The record fills, and the trap's event carries it (R56). -/
def Cx.fillNan (c : Cx) (n : Step) (r : NanRec) : Cx :=
  let r := { r with step := some n, further := 0 }
  ({ c with arb := { c.arb with armed := some n, record := some r } }).ev 0x1001 r.unitClass 1 r.die r.index r.fields
    (some n)

/-- A produced NaN reaches the arbiter (R56 to R58). -/
def Cx.nanArrives (c : Cx) (r : NanRec) : Cx :=
  match c.arb.armed, r.step with
  | none, st => c.fillNan (st.getD 0#48) r
  | some m, st =>
    let n := st.getD m
    match seqCmp n m with
    | .newer => c.fillNan n r
    | .older => c.ev 0x1002 r.unitClass 1 r.die r.index r.fields (some n)
    | .equal =>
      match c.arb.record with
      | none => c.fillNan n r
      | some k => { c with arb := { c.arb with record := some { k with further := min 65535 (k.further + 1) } } }

/-- NAN_ARRIVAL (R56). -/
def execNanArrival (n : Nat) (s : State) : R :=
  let c := s.cx
  match c.arb.nans[n]? with
  | none => s.go c
  | some r => s.go (({ c with arb := { c.arb with nans := c.arb.nans.eraseIdx n } }).nanArrives r)

/-! ### Power states (R387, R389) -/

/-- Coding of HST_DIE.power_state. -/
def Power.num : Power → Nat
  | .frost => 0
  | .dew => 1
  | .thaw => 2
  | .run => 3

/-- Event of the power controller of a die. -/
def Cx.pwrEv (c : Cx) (code sev : Nat) (d : Side) (fields : List Nat) : Cx := c.ev code 10 sev d d.num fields

/-- A die changes its power state: `PWR_STATE_CHANGED`. -/
def Cx.setPower (c : Cx) (d : Side) (p : Power) (cause : Nat) : Cx :=
  let old := (c.die d).power
  if old == p then c
  else (c.modDie d fun k => { k with power := p }).pwrEv 0x9001 0 d [d.num, old.num, p.num, cause]

/-- Both dies leave Frost: PWR_REQ rises. -/
def Cx.leaveFrost (c : Cx) (cause : Nat) : Cx :=
  let up (k : Die) : Die := if k.power == .frost && k.aon then { k with pwrReq := true, wakeCause := cause } else k
  (c.modDie .A up).modDie .B up

/-- A wake cause reaches a die in Dew (R389): the request is held and Thaw starts. -/
def Cx.wake (c : Cx) (d : Side) (cause : Nat) : Cx :=
  if (c.die d).power == .dew then (c.modDie d fun k => { k with wakeCause := cause }).setPower d .thaw cause
  else c

end Sys2Proof.Machine
end

