-- ==== Sys2Proof/Machine/Image.lean ====
section
/-!
DEFINITION. The structure image (chapter 5): its framing, its records, the consistency check of Table 5.14 in the
order of R407 and R408, loading, enabling and partial images.
-/
namespace Sys2Proof.Machine

/-! ### Reading an image -/

/-- A directory entry with its section's preamble. -/
structure Sec where
  id : Nat
  flags : Nat
  off : Nat
  len : Nat
  cnt : Nat
  size : Nat
  deriving DecidableEq, Repr

/-- An image in staging: its bytes as a number (byte 0 lowest), and what the load says of it. -/
structure Bin where
  v : Nat
  len : Nat
  partialImg : Bool
  deriving DecidableEq, Repr

/-- Field of n bytes at a byte offset (R5). -/
def Bin.fld (b : Bin) (off n : Nat) : Nat := b.v / 256 ^ off % 256 ^ n

def Bin.bytes (b : Bin) (off n : Nat) : List Byte := leBytes n (b.v / 256 ^ off)

def Bin.count (b : Bin) : Nat := b.fld 0x0C 2
def Bin.total (b : Bin) : Nat := b.fld 0x08 4
def Bin.id (b : Bin) : Nat := b.fld 0x10 8
def Bin.minor (b : Bin) : Nat := b.fld 0x05 1

def Bin.sec (b : Bin) (n : Nat) : Sec :=
  let e := 0x40 + 16 * n
  let o := b.fld (e + 4) 4
  { id := b.fld e 1, flags := b.fld (e + 1) 1, off := o, len := b.fld (e + 8) 4, cnt := b.fld o 4,
    size := b.fld (o + 4) 2 }

def Bin.secs (b : Bin) : List Sec := (List.range b.count).map b.sec

def Bin.find (b : Bin) (id : Nat) : Option Sec := b.secs.find? fun s => s.id = id

/-- Record i of a section as a number. -/
def Bin.rec_ (b : Bin) (s : Sec) (i : Nat) : Nat := b.fld (s.off + 8 + i * s.size) s.size

def Bin.recs (b : Bin) (id : Nat) : List Nat :=
  match b.find id with
  | some s => (List.range s.cnt).map (b.rec_ s)
  | none => []

/-! ### Records (Tables 5.4 to 5.12, R120, R122, R123) -/

def readGeometry (r : Nat) : Geometry where
  active := (List.range 20).filter (bit r)
  parity := bits r 21 20
  master := Side.ofNum (bits r 22 22)
  slowType := [bits r 33 32, bits r 35 34]
  positions := [bits r 47 40, bits r 55 48]
  gib := [bits r 63 56, bits r 71 64]

def readLayout (r : Nat) : Layout :=
  let f (o : Nat) : Nat := bits r (8 * o + 31) (8 * o)
  { stateBase := f 0x00, live := f 0x04, pool := f 0x08, promoBase := f 0x0C, promo := f 0x10, gradBase := f 0x14,
    mapBase := f 0x18, stashBase := f 0x1C, stashRows := f 0x20, spareBase := f 0x24, parityBase := f 0x28,
    parityRows := f 0x2C, stagingRows := f 0x30 }

def readRegion (r : Nat) : Region where
  id := bits r 7 0
  placed := bit r 8
  tails := bit r 9
  pyroimet := bit r 10
  slowRest := bit r 11
  stackMask := bits r 51 32
  channelMask := bits r 95 64
  base := bits r 127 96
  size := bits r 159 128

def readStash (r : Nat) : StashRec where
  region := bits r 7 0
  depth := bits r 9 8
  firstRow := bits r 63 32
  slots := bits r 95 64

def readTensor (r : Nat) : Tensor where
  handle := bits r 23 0
  region := bits r 31 24
  start := bits r 36 32
  base := bits r 51 37
  count := bits r 103 64
  rows := bits r 159 128
  columns := bits r 191 160
  rule := bits r 194 192
  factored := bit r 195
  frozen := bit r 196

def readMap (r : Nat) : MapRec where
  window := bits r 18 0
  stateSlot := bits r 38 19
  gSlot := bits r 54 39
  resident := bit r 55

def wordsAt (r off n : Nat) : List W32 := (List.range n).map fun i => BitVec.ofNat 32 (r / 256 ^ (off + 4 * i))

def readRuleRec (r : Nat) : Nat × List W32 := (bits r 7 0, wordsAt r 8 (min 64 (bits r 15 8)))

def readTadRec (r : Nat) : TadRec where
  stackMask := bits r 19 0
  channelMask := bits r 63 32
  start := bits r 71 64
  words := wordsAt r 16 (min 256 (bits r 80 72))

def readFabric (r : Nat) : FabricRec where
  role := bits r 7 0
  rootUid := BitVec.ofNat 64 (r / 2 ^ 64)
  seed := BitVec.ofNat 32 (r / 2 ^ 128)
  ports := (List.range 12).map fun p => bits r (8 * (0x14 + p) + 7) (8 * (0x14 + p))

def readStreams (r : Nat) : StreamsRec :=
  let f (o n : Nat) : Nat := r / 256 ^ o % 256 ^ n
  { tableBase := BitVec.ofNat 64 r, count := f 8 2, queuesA := f 0x0A 2, queuesB := f 0x0C 2, depth := f 0x0E 2,
    entryBytes := f 0x10 4, share := (List.range 6).map (fun i => f (0x14 + i) 1),
    weight := (List.range 6).map (fun i => f (0x1A + i) 1), sramA := (f 0x20 4, f 0x24 4), sramB := (f 0x28 4, f 0x2C 4) }

def readTenant (r : Nat) : TenantRec where
  tenant := bits r 13 0
  maxCommands := bits r 31 16
  maxGib := bits r 47 32

def readPower (r : Nat) : PowerRec where
  tileCap := bits r 15 0
  stackCap := bits r 23 16
  compute := bits r 31 24
  hubCap := bits r 47 32
  reserveUs := bits r 63 48
  dewIdleUs := bits r 95 64

def readVersion (r : Nat) : VersionRec where
  iface := bits r 7 0
  major := bits r 15 8
  minMinor := bits r 23 16
  maxMinor := bits r 31 24

/-! ### The statistics store (R229, R230) -/

def roundUp (n u : Nat) : Nat := (n + u - 1) / u * u

/-- Row and column partials of one window's slot (R230). -/
def Tensor.partRows (t : Tensor) : Nat := min t.rows ((1048576 + t.columns - 1) / t.columns + 1)
def Tensor.partCols (t : Tensor) : Nat := min t.columns 1048576

/-- Bytes of a factored tensor's section for n windows in the stack (Table 9.5). -/
def Tensor.statBytes (t : Tensor) (n : Nat) : Nat :=
  roundUp (64 + 12 * t.rows + 12 * t.columns + 4 * n * (t.partRows + t.partCols)) 4096

/-- Windows of a tensor in a stack, ascending k. -/
def Img.windowsIn (g : Img) (t : Tensor) (s : Nat) : List Nat :=
  (List.range t.windows).filter fun k => winStack (g.windowId t k) = s

/-- Factored tensors in ascending handle order. -/
def Img.factored (g : Img) : List Tensor :=
  let fs := g.tensors.filter (·.factored)
  (fs.foldl (fun l t => nput l t.handle) []).filterMap fun h => fs.find? fun t => t.handle = h

/-- store_rows (R229): the largest over active stacks of the sections' sum, in rows rounded up. -/
def Img.storeRows (g : Img) : Nat :=
  (g.geo.active.map fun s =>
    ((g.factored.map fun t => t.statBytes (g.windowsIn t s).length).sum + rowBytes - 1) / rowBytes).foldl max 0

/-- Known record size and record counts of a section (Table 5.3). -/
def secKnown (id : Nat) : Nat × Nat × Nat :=
  [(0, 0, 0), (32, 1, 1), (64, 1, 1), (32, 1, 256), (16, 0, 256), (32, 1, 267480), (8, 1, 267480), (264, 1, 8),
   (1040, 0, 4096), (64, 1, 1), (64, 1, 1), (16, 1, 16385), (32, 1, 1), (8, 0, 4)].getD id (0, 0, 0)

/-- Record size that an image gives a section, or the known one. -/
def Bin.recSize (b : Bin) (id : Nat) : Nat :=
  match b.find id with
  | some s => s.size
  | none => (secKnown id).1

/-- Image record of an image that lacks optional sections (Table 5.3). -/
def Bin.img (b : Bin) : Img :=
  let g : Img :=
    { id := BitVec.ofNat 64 b.id
      geo := readGeometry ((b.recs 1).headD 0)
      lay := readLayout ((b.recs 2).headD 0)
      regions := (b.recs 3).map readRegion
      stash := (b.recs 4).map readStash
      tensors := (b.recs 5).map readTensor
      wmap := (b.recs 6).map readMap
      rules := (b.recs 7).map readRuleRec
      tadpoles := (b.recs 8).map readTadRec
      fabric := match b.recs 9 with | r :: _ => readFabric r | [] => {}
      streams := readStreams ((b.recs 10).headD 0)
      stagedSlots := match b.recs 11 with | r :: _ => bits r 7 0 | [] => 1
      tenant0 := match b.recs 11 with | r :: _ => { readTenant r with tenant := 0 } | [] => ⟨0, 0, 0⟩
      tenants := ((b.recs 11).drop 1).map readTenant
      power := match b.recs 12 with | r :: _ => readPower r | [] => {}
      versions := (b.recs 13).map readVersion
      statRows := 0
      tensorSize := b.recSize 5
      versionSize := b.recSize 13 }
  { g with statRows := g.storeRows }

/-- The enabled image with the sections of a partial image in place (R130). -/
def Img.patch (g : Img) (b : Bin) : Img :=
  let n := b.img
  let has (i : Nat) : Bool := (b.find i).isSome
  { g with
    rules := if has 7 then n.rules else g.rules
    tadpoles := if has 8 then n.tadpoles else g.tadpoles
    streams := if has 10 then { g.streams with share := n.streams.share, weight := n.streams.weight } else g.streams
    stagedSlots := if has 11 then n.stagedSlots else g.stagedSlots
    tenant0 := if has 11 then n.tenant0 else g.tenant0
    tenants := if has 11 then n.tenants else g.tenants
    power := if has 12 then n.power else g.power }

/-! ### The check -/

/-- A refusal: reason, section and offset. -/
abbrev Bad := Nat × Nat × Nat

/-- The first failing test of a list; each test says when it fails. -/
def firstBad : List (Bool × Bad) → Option Bad
  | [] => none
  | (true, b) :: _ => some b
  | (false, _) :: r => firstBad r

/-- A list of tests, with its type fixed. -/
abbrev tests (l : List (Bool × Bad)) : List (Bool × Bad) := l

/-- The first refusal of a list of checks. -/
def firstOf (l : List (Option Bad)) : Option Bad := l.findSome? id

/-- Class byte of a section (Table 5.3). -/
def secClass (id : Nat) : Nat := [0, 1, 2, 2, 2, 3, 3, 4, 4, 5, 6, 6, 7, 8].getD id 0

/-- Reserved bit ranges of a record, low and high bit, ascending. Bits that a section's table does not list count as reserved
too: [39:36] of the geometry record and [31:20] of a tadpole program record (DESIGN CHOICE, log entry 87). -/
def secReserved (id i : Nat) : List (Nat × Nat) :=
  match id with
  | 1 => [(23, 31), (36, 39), (72, 255)]
  | 2 => [(416, 511)]
  | 3 => [(12, 31), (52, 63), (160, 255)]
  | 4 => [(10, 31), (96, 127)]
  | 5 => [(52, 63), (104, 127), (197, 255)]
  | 6 => [(56, 63)]
  | 7 => [(16, 63)]
  | 8 => [(20, 31), (81, 127)]
  | 9 => (8, 63) :: (List.range 12).map (fun p => (8 * (0x14 + p) + 3, 8 * (0x14 + p) + 7)) ++ [(256, 511)]
  | 10 => [(384, 511)]
  | 11 => if i = 0 then [(8, 15), (48, 127)] else [(14, 15), (48, 127)]
  | 12 => [(96, 255)]
  | 13 => [(32, 63)]
  | _ => []

/-- Sections a partial image may hold (Table 5.16). -/
def replaceable (id : Nat) : Bool := [7, 8, 10, 11, 12].contains id

/-- Fields of a streams record that a partial image may not change (R130), as byte offset and size. -/
def lockedStreams : List (Nat × Nat) := [(0, 8), (8, 2), (10, 2), (12, 2), (14, 2), (16, 4), (32, 8), (40, 8)]

/-- Step 1, header (R407 item 1). -/
def Bin.badHeader (b : Bin) (enabledId : Nat) : Option Bad := firstBad
  [ (b.fld 0 4 != 0x49535841, 0x0801, 0, 0),
    (decide (BitVec.ofNat 32 (b.fld 0x3C 4) ≠ crc32c (b.bytes 0 0x3C)), 0x0804, 0, 0x3C),
    (b.fld 4 1 != 2, 0x0802, 0, 4),
    (bits (b.fld 6 2) 15 2 != 0, 0x08FF, 0, 6),
    (bit (b.fld 6 2) 0 != b.partialImg, 0x080A, 0, 6),
    (b.total != b.len || b.total < 64 || b.total > 0x4000000, 0x0803, 0, 8),
    (b.count < 1 || b.count > 13, 0x08FE, 0, 0x0C),
    (0x40 + 16 * b.count > b.total, 0x0805, 0, 0x0C),
    (b.fld 0x0E 2 != 0, 0x08FF, 0, 0x0E),
    (b.fld 0x18 8 != (if b.partialImg then enabledId else 0), 0x080A, 0, 0x18),
    (b.fld 0x24 24 != 0, 0x08FF, 0, 0x24) ]

/-- Step 1, directory entry n (R407 item 2). -/
def Bin.badEntry (b : Bin) (n : Nat) : Option Bad :=
  let e := 0x40 + 16 * n
  let s := b.sec n
  let earlier := (List.range n).map b.sec
  firstBad
  [ (earlier.any (fun x => x.id = s.id), 0x0807, 0, e),
    (earlier.any (fun x => decide (s.id ≤ x.id)), 0x0805, 0, e),
    (b.partialImg && decide (1 ≤ s.id ∧ s.id ≤ 13) && !replaceable s.id, 0x080F, 0, e),
    (s.flags / 2 != 0, 0x08FF, 0, e + 1),
    (bit s.flags 0 && !decide (1 ≤ s.id ∧ s.id ≤ 13), 0x0808, 0, e + 1),
    (b.fld (e + 2) 2 != 0, 0x08FF, 0, e + 2),
    (s.off % 8 != 0 || s.off < 0x40 + 16 * b.count
      || earlier.any (fun x => decide (s.off < x.off + x.len ∧ x.off < s.off + s.len)), 0x0805, 0, e + 4),
    (s.off + s.len > b.total, 0x0805, 0, e + 8),
    (decide (BitVec.ofNat 32 (b.fld (e + 12) 4) ≠ crc32c (b.bytes s.off s.len)), 0x0806, 0, e + 12) ]

/-- Step 1, a record's reserved, unknown and locked fields in ascending order (R407 item 4). -/
def Bin.badRecord (b : Bin) (s : Sec) (old : Option Nat) (i : Nat) : Option Bad :=
  let r := b.rec_ s i
  let at_ (o : Nat) : Nat := 8 + i * s.size + o
  let known := (secKnown s.id).1
  let locked := if b.partialImg && s.id = 10 then lockedStreams.map (fun f =>
      (decide (old.any fun o => r / 256 ^ f.1 % 256 ^ f.2 ≠ o / 256 ^ f.1 % 256 ^ f.2),
       (0x080F, s.id, at_ f.1))) else []
  let rsv := (secReserved s.id i).map fun x =>
      (bits r x.2 x.1 != 0, (secClass s.id * 256 + 0xFF, s.id, at_ (x.1 / 8)))
  firstBad (locked ++ rsv ++
    [(b.minor = 0 && r / 256 ^ known != 0, (secClass s.id * 256 + 0xFF, s.id, at_ known))])

/-- Step 1, one known section (R407 item 4). -/
def Bin.badSection (b : Bin) (old : Option Nat) (s : Sec) : Option Bad :=
  let k := secKnown s.id
  if !decide (1 ≤ s.id ∧ s.id ≤ 13) then none
  else firstOf
    (firstBad [ (s.len < 8 || s.size < k.1 || s.len != 8 + s.cnt * s.size || s.cnt < k.2.1 || s.cnt > k.2.2,
                  secClass s.id * 256 + 0xFE, s.id, 0),
                (b.fld (s.off + 6) 2 != 0, secClass s.id * 256 + 0xFF, s.id, 0) ]
      :: (List.range (min s.cnt k.2.2)).map (b.badRecord s old))

/-- Step 1 (R407). `old` is the enabled streams record as a number, for partial images. -/
def Bin.step1 (b : Bin) (enabledId : Nat) (old : Option Nat) : Option Bad :=
  match b.badHeader enabledId with
  | some x => some x
  | none => firstOf
      ((List.range b.count).map b.badEntry
        ++ [firstBad [(!b.partialImg && [1, 2, 3, 5, 6, 7, 10].any (fun i => (b.find i).isNone), 0x0809, 0, 0x0C)]]
        ++ b.secs.map (b.badSection old))

/-- Silicon major and minor of an interface (Tables 4.5, 5.13). -/
def silicon (iface : Nat) : Nat × Nat := [(1, 2), (3, 1), (2, 0), (1, 0)].getD iface (0, 0)

/-- Version limits of an interface in an image (R123, R133). -/
def Img.limits (g : Img) (iface : Nat) : Nat × Nat :=
  match g.versions.find? fun v => v.iface = iface with
  | some v => (v.minMinor, v.maxMinor)
  | none => (0, 0xFF)

/-- Tests over a list of records with their offsets. -/
def eachRec {α : Type} (size : Nat) (l : List α) (f : Nat → α → Nat → List (Bool × Bad)) : Option Bad :=
  firstOf ((List.range l.length).map fun i =>
    match l[i]? with
    | some r => firstBad (f i r (8 + i * size))
    | none => none)

/-- Step 2: versions and HUB_HOST_CLAIM (R123, R133, R135). -/
def step2 (g : Img) (size : Nat) (claim : Nat) : Option Bad :=
  let agreed := min (bits claim 7 0) (min (silicon 3).2 (g.limits 3).2)
  firstOf
    [ eachRec size g.versions (fun i v o =>
        [ (v.iface > 3 || (g.versions.take i).any (fun x => x.iface = v.iface), 0x080B, 0x0D, o),
          (v.major != (silicon v.iface).1, 0x080B, 0x0D, o + 1),
          (v.minMinor > v.maxMinor || v.minMinor > (silicon v.iface).2, 0x080C, 0x0D, o + 2) ]),
      firstBad [ (bits claim 15 8 != (silicon 3).1, 0x080D, 0, 0),
                 (agreed < (g.limits 3).1, 0x080E, 0x0D, 8 + (g.versions.findIdx fun v => v.iface = 3) * size + 2) ] ]

/-- Capacity limits of a slow-tier type (Table 5.4). -/
def gibOk (type gib : Nat) : Bool :=
  match type with
  | 0 => true
  | 1 => decide (1 ≤ gib ∧ gib ≤ 64)
  | 2 => decide (gib = 3)
  | _ => false

/-- Step 3: geometry against the hardware that trained (R114, R306, R321). -/
def step3 (g : Img) (c : Cx) : Option Bad :=
  let die (n : Nat) : Die := c.die (Side.ofNum n)
  let ty (n : Nat) : Nat := g.geo.slowType.getD n 0
  firstBad
  [ (g.geo.active.isEmpty || g.geo.active.any (fun s => !(c.stk s).trained || (c.stk s).primary = 0), 0x0101, 1, 8),
    (g.geo.parity > 1 || (g.geo.parity = 1 && g.geo.active.length < 20), 0x0102, 1, 10),
    (!c.coreUp .A || !c.coreUp .B || !c.bridge, 0x0103, 1, 10),
    ([0, 1].any (fun n => ty n > 2 || ty n != (die n).slowType), 0x0104, 1, 12),
    (g.geo.positions.getD 0 0 != (die 0).slowPos, 0x0105, 1, 13),
    (g.geo.positions.getD 1 0 != (die 1).slowPos, 0x0105, 1, 14),
    (g.geo.gib.getD 0 0 != (die 0).slowGib || !gibOk (ty 0) (g.geo.gib.getD 0 0), 0x0105, 1, 15),
    (g.geo.gib.getD 1 0 != (die 1).slowGib || !gibOk (ty 1) (g.geo.gib.getD 1 0), 0x0105, 1, 16) ]

/-- Areas of a layout: offset of the field it is checked at, first row, rows (R115). The staging rows have no base field
of their own. -/
def Layout.areas (l : Layout) : List (Nat × Nat × Nat) :=
  [ (0x00, l.stateBase, (l.live + l.pool) * 33), (0x0C, l.promoBase, l.promo * 33), (0x14, l.gradBase, l.live * 16),
    (0x18, l.mapBase, 32), (0x1C, l.stashBase, l.stashRows), (0x24, l.spareBase, 24576),
    (0x28, l.parityBase, l.parityRows), (0x30, l.parityBase + l.parityRows, l.stagingRows) ]

def rowsOverlap (a n b m : Nat) : Bool := decide (0 < n ∧ 0 < m ∧ a < b + m ∧ b < a + n)

/-- Tests of one area: past the last row, or overlapping an area checked before it. -/
def Layout.badArea (l : Layout) (f : Nat) : List (Bool × Bad) :=
  match l.areas.find? fun a => a.1 = f with
  | none => []
  | some a =>
    [ (decide (0 < a.2.2) && decide (786432 < a.2.1 + a.2.2), 0x0201, 2, 8 + f),
      (l.areas.any (fun x => decide (x.1 < f) && rowsOverlap a.2.1 a.2.2 x.2.1 x.2.2), 0x0202, 2, 8 + f) ]

/-- Step 4: layout (R68, R79, R82, R115, R317). -/
def step4 (g : Img) : Option Bad :=
  let l := g.lay
  let par : Bool := g.geo.parity = 1
  firstBad (l.badArea 0x00
    ++ tests [ (l.live > (if par then 12400 else 13374), 0x0204, 2, 8 + 0x04),
         (l.pool < 16 || l.pool > 4096, 0x0203, 2, 8 + 0x08),
         (l.promo = 0 && l.promoBase != 0, 0x0201, 2, 8 + 0x0C) ]
    ++ l.badArea 0x0C ++ l.badArea 0x14 ++ l.badArea 0x18 ++ l.badArea 0x1C ++ l.badArea 0x24
    ++ tests [ (!par && l.parityBase != 0, 0x0205, 2, 8 + 0x28) ]
    ++ l.badArea 0x28
    ++ tests [ (l.parityRows != (if par then 39322 else 0), 0x0205, 2, 8 + 0x2C),
         (l.stagingRows != (if par then 8448 else 0), 0x0205, 2, 8 + 0x30) ]
    ++ l.badArea 0x30)

/-- Rows of the stash-and-placed area below the statistics store (R229). -/
def Img.stashEnd (g : Img) : Nat := g.lay.stashBase + g.lay.stashRows - g.statRows

/-- Two placed regions use a granule in common (R84). -/
def Region.clash (a b : Region) : Bool :=
  (List.range 20).any (fun s => bit a.stackMask s && bit b.stackMask s)
    && (List.range 32).any (fun k => bit a.channelMask k && bit b.channelMask k)
    && decide (a.base < b.base + b.size ∧ b.base < a.base + a.size)

/-- Step 5: regions (R84, R116, R229). -/
def step5 (g : Img) (size : Nat) : Option Bad :=
  firstOf
    [ firstBad [(g.statRows > g.lay.stashRows, 0x0207, 2, 0x28)],
      eachRec size g.regions fun i r o =>
        [ ((g.regions.take i).any (fun x => x.id = r.id), 0x0206, 3, o),
          (r.placed && (r.tails || r.pyroimet || r.slowRest), 0x0208, 3, o + 1),
          (!r.placed && r.stackMask != 0, 0x0206, 3, o + 4),
          (r.placed && (List.range 20).any (fun s => bit r.stackMask s && !g.geo.active.contains s), 0x0207, 3, o + 4),
          (!r.placed && r.channelMask != 0, 0x0206, 3, o + 8),
          (!r.placed && r.base != 0, 0x0206, 3, o + 12),
          (r.placed && r.base % 4096 != 0, 0x0207, 3, o + 12),
          (!r.placed && r.size != 0, 0x0206, 3, o + 16),
          (r.placed && (r.size % 4096 != 0 || r.size = 0 || r.base < g.lay.stashBase * 4096
            || r.base + r.size > g.stashEnd * 4096 || (g.regions.take i).any (fun x => x.placed && x.clash r)),
            0x0207, 3, o + 16) ] ]

/-- Window ids that a tensor places. -/
def Img.placed (g : Img) (t : Tensor) : List Nat := (List.range t.windows).map (g.windowId t)

/-- Step 6: tensors (R73, R74, R118). -/
def step6 (g : Img) (size : Nat) : Option Bad :=
  eachRec size g.tensors fun i t o =>
    [ ((g.tensors.take i).any (fun x => x.handle = t.handle), 0x0301, 5, o),
      (!(g.regions.any fun r => r.id = t.region && !r.placed), 0x0302, 5, o + 3),
      (!g.geo.active.contains t.start, 0x0303, 5, o + 4),
      ((g.placed t).any (fun w => w > 524287), 0x0303, 5, o + 4),
      ((g.tensors.take i).any (fun x => (g.placed x).any fun w => (g.placed t).contains w), 0x0305, 5, o + 4),
      (t.count = 0, 0x0304, 5, o + 8),
      (t.rows * t.columns != t.count, 0x0304, 5, o + 16) ]

/-- Every window id that the image's tensors place. -/
def Img.allWindows (g : Img) : List Nat := g.tensors.flatMap g.placed

/-- Tensor that places a window id. -/
def Img.tensorOf (g : Img) (w : Nat) : Option Tensor := g.tensors.find? fun t => (g.placed t).contains w

def Img.regionOf (g : Img) (w : Nat) : Option Region :=
  (g.tensorOf w).bind fun t => g.regions.find? fun r => r.id = t.region

/-- Windows of a stack resting in region r, from the window map. -/
def Img.liveIn (g : Img) (region s : Nat) : Nat :=
  (g.wmap.filter fun m => winStack m.window = s && (g.regionOf m.window).any (fun r => r.id = region)).length

/-- Step 7: window map (R73, R119, R408). -/
def step7 (g : Img) (c : Cx) (size : Nat) : Option Bad :=
  let ids := g.allWindows
  firstOf
    [ eachRec size g.wmap fun i m o =>
        let s := winStack m.window
        let before := (g.wmap.take i).filter fun x => winStack x.window = s
        let prev := (g.wmap.take i).getLast?.map (·.window)
        let slow := (g.regionOf m.window).any (·.slowRest)
        [ (!ids.contains m.window || prev.any (fun p => decide (m.window ≤ p))
            || ids.any (fun w => decide (w < m.window) && prev.all (fun p => decide (p < w))), 0x0306, 6, o),
          (before.length ≥ g.lay.live, 0x0309, 6, o),
          (m.resident && (m.stateSlot ≥ g.lay.live + g.lay.pool
            || before.any (fun x => x.resident && x.stateSlot = m.stateSlot)), 0x0307, 6, o + 2),
          (!m.resident && (m.stateSlot + 1) * (33 * rowBytes) > c.slowBytes (homeDie s), 0x030A, 6, o + 2),
          (m.gSlot ≥ g.lay.live || before.any (fun x => x.gSlot = m.gSlot), 0x0308, 6, o + 4),
          (!m.resident && !slow, 0x030A, 6, o + 6) ],
      firstBad [(ids.any (fun w => (g.wmap.getLast?).all fun m => decide (m.window < w)), 0x0306, 6, 0)] ]

/-- Step 8: stash, promotion and slow_rest (R81, R83, R117, R408). -/
def step8 (g : Img) (c : Cx) (size rsize : Nat) : Option Bad :=
  firstOf
    [ eachRec size g.stash fun i r o =>
        let e := r.firstRow + 16 * r.slots
        [ (!(g.regions.any fun x => x.id = r.region && !x.placed) || (g.stash.take i).any (fun x => x.region = r.region),
            0x020A, 4, o),
          (r.slots != 0 && (r.firstRow < g.lay.stashBase || e > g.stashEnd
            || g.regions.any (fun x => x.placed && x.stackMask != 0 && x.channelMask != 0 && decide (x.base < e * 4096 ∧ r.firstRow * 4096 < x.base + x.size))
            || (g.stash.take i).any (fun x => rowsOverlap x.firstRow (16 * x.slots) r.firstRow (16 * r.slots))),
            0x020B, 4, o + 4),
          (g.geo.active.any (fun s => r.slots < r.depth * g.liveIn r.region s), 0x020B, 4, o + 8) ],
      eachRec rsize g.regions fun _ r o => [(r.slowRest && g.lay.promo = 0, 0x020C, 3, o + 1)],
      eachRec rsize g.regions fun _ r o =>
        [(r.slowRest && g.wmap.any (fun m => (g.regionOf m.window).any (fun x => x.id = r.id)
            && (c.die (homeDie (winStack m.window))).slowType = 0), 0x0209, 3, o + 1)] ]

/-- Program of a rule slot. -/
def Img.rule? (g : Img) (slot : Nat) : Option (List W32) := (g.rules.find? fun r => r.1 = slot).map (·.2)

/-- Step 9: rule and tadpole programs in the order of R408 (R120, R219, R235, R296). `raw` gives the records as
numbers. -/
def step9 (g : Img) (rules tads : List Nat) (rsize tensize tsize : Nat) : Option Bad :=
  firstOf
    [ firstOf ((List.range rules.length).map fun i =>
        let r := rules.getD i 0
        let o := 8 + i * rsize
        let len := bits r 15 8
        let words := wordsAt r 8 64
        firstOf
          [ firstBad [ (bits r 7 0 > 7 || (rules.take i).any (fun x => bits x 7 0 = bits r 7 0), 0x0401, 7, o),
                       (len = 0 || len > 64, 0x0402, 7, o + 1) ],
            ((List.range 64).find? (fun n => decide (len ≤ n) && words.getD n 0#32 != 0#32)).map
              (fun n => (0x0402, 7, o + 8 + 4 * n)),
            (firstBadRule (words.take len) 0 []).map (fun n => (0x0403, 7, o + 8 + 4 * n)) ]),
      eachRec tensize g.tensors fun _ t o => [((g.rule? t.rule).isNone, 0x0404, 5, o + 24)],
      firstOf (g.tensors.map fun t =>
        if (g.regions.find? fun r => r.id = t.region).any (·.pyroimet) then
          ((g.rule? t.rule).bind fun p => (List.range p.length).find? fun n =>
            !((p[n]?.bind decodeRule).any (·.pyroOk))).map
              (fun n => (0x0405, 7, 8 + (g.rules.findIdx fun r => r.1 = t.rule) * rsize + 8 + 4 * n))
        else none),
      firstOf ((List.range tads.length).map fun i =>
        let r := tads.getD i 0
        let o := 8 + i * tsize
        let start := bits r 71 64
        let len := bits r 80 72
        let clash (x : Nat) : Bool := bits x 19 0 &&& bits r 19 0 != 0 && bits x 63 32 &&& bits r 63 32 != 0
          && decide (bits x 71 64 < start + len ∧ start < bits x 71 64 + bits x 80 72)
        firstOf
          [ firstBad [ (len != 0 && len ≤ 256 && (start + len > 256 || (tads.take i).any clash), 0x0406, 8, o + 8),
                       (len = 0 || len > 256, 0x0406, 8, o + 9) ],
            ((List.range len).find? (fun n => (decodeTad ((wordsAt r (16 + 4 * n) 1).headD 0#32)).isNone)).map
              (fun n => (0x0407, 8, o + 16 + 4 * n)) ]) ]

/-- Step 10: fabric (R121, R332). -/
def step10 (g : Img) (c : Cx) : Option Bad :=
  let f := g.fabric
  firstBad (tests [ (f.role > 2, 0x0501, 9, 8),
              (f.role != 0 && !(f.ports.any fun p => bit p 0), 0x0503, 9, 8),
              (f.role = 1 && f.rootUid = c.fab.uid, 0x0504, 9, 16) ]
    ++ (List.range 12).map fun p =>
      (bit (f.ports.getD p 0) 0
        && (((c.fp p).st != .hello && (c.fp p).st != .up) || ((c.fp p).width4 && !bit (f.ports.getD p 0) 2)),
       0x0502, 9, 8 + 0x14 + p))

/-- Step 11: streams and tenants (R121, R122, R131). -/
def step11 (g : Img) (tsize : Nat) : Option Bad :=
  let s := g.streams
  let tb := s.tableBase.toNat
  let tag := bits tb 63 60
  let end_ := 64 * s.count
  let store (n : Nat) : Nat := n * s.depth * s.entryBytes
  let sramBad (r : Nat × Nat) (q : Nat) : Bool :=
    r.1 % 4096 != 0 || r.2 % 4096 != 0 || r.1 + r.2 > 0xC000000 || store q + r.2 > 192 * 2 ^ 20
  firstOf
    [ firstBad
        (tests [ ((tag != 0 && tag != 4) || tb % 64 != 0
            || (tag = 0 && (bits tb 59 42 != 0 || !g.geo.active.contains (bits tb 41 37)
                  || bits tb 36 0 + end_ > stackBytes))
            || (tag = 4 && (bits tb 59 58 != 0 || bits tb 56 0 + end_ > 2 ^ 57)), 0x0601, 10, 8),
           (s.count < 1 || s.count > 4096, 0x0602, 10, 8 + 8),
           (s.queuesA > 256, 0x0604, 10, 8 + 0x0A), (s.queuesB > 256, 0x0604, 10, 8 + 0x0C),
           (s.depth < 1 || s.depth > 512, 0x0604, 10, 8 + 0x0E),
           (s.entryBytes % 64 != 0 || s.entryBytes > 65536
             || (s.entryBytes = 0 && (s.queuesA != 0 || s.queuesB != 0)), 0x0604, 10, 8 + 0x10),
           (s.share.sum > 256, 0x0603, 10, 8 + 0x14) ]
          ++ tests ((List.range 6).map (fun i => (s.weight.getD i 0 = 0, 0x0603, 10, 8 + 0x1A + i)))
          ++ tests [ (sramBad s.sramA s.queuesA, 0x0605, 10, 8 + 0x20), (sramBad s.sramB s.queuesB, 0x0605, 10, 8 + 0x28) ]),
      firstBad [(g.stagedSlots < 1 || g.stagedSlots > 4, 0x0606, 11, 8)],
      firstOf ((List.range g.tenants.length).map fun i =>
        match g.tenants[i]? with
        | some t => firstBad [((g.tenants.take i).any (fun x => x.tenant = t.tenant), 0x0606, 11, 8 + (i + 1) * tsize)]
        | none => none) ]

/-- Step 12: power (Table 5.12). -/
def step12 (g : Img) : Option Bad :=
  let p := g.power
  firstBad
  [ (p.tileCap < 600 || p.tileCap > 1200, 0x0701, 12, 8), (p.stackCap < 20 || p.stackCap > 38, 0x0702, 12, 10),
    (p.compute < 1 || p.compute > 20, 0x0702, 12, 11), (p.hubCap < 100 || p.hubCap > 170, 0x0703, 12, 12),
    (p.reserveUs > 20000, 0x0704, 12, 14),
    (p.dewIdleUs != 0 && (p.dewIdleUs < 100 || p.dewIdleUs > 10000000), 0x0704, 12, 16) ]

/-- The consistency check of a full image (Table 5.14). -/
def checkFull (c : Cx) (b : Bin) (claim : Nat) : Option Bad :=
  let g := b.img
  match b.step1 0 none with
  | some x => some x
  | none => firstOf
    [ step2 g (b.recSize 13) claim, step3 g c, step4 g, step5 g (b.recSize 3), step6 g (b.recSize 5),
      step7 g c (b.recSize 6), step8 g c (b.recSize 4) (b.recSize 3),
      step9 g (b.recs 7) (b.recs 8) (b.recSize 7) (b.recSize 5) (b.recSize 8), step10 g c, step11 g (b.recSize 11),
      step12 g ]

/-- A streams record as a number, from its fields. -/
def StreamsRec.num (s : StreamsRec) : Nat :=
  s.tableBase.toNat + s.count * 256 ^ 8 + s.queuesA * 256 ^ 10 + s.queuesB * 256 ^ 12 + s.depth * 256 ^ 14
    + s.entryBytes * 256 ^ 16 + s.sramA.1 * 256 ^ 32 + s.sramA.2 * 256 ^ 36 + s.sramB.1 * 256 ^ 40
    + s.sramB.2 * 256 ^ 44

/-- The check of a partial image: steps 1, 2, 9, 11 and 12 (R131). -/
def checkPartial (g : Img) (b : Bin) (claim : Nat) : Option Bad :=
  let n := g.patch b
  let has (i : Nat) : Bool := (b.find i).isSome
  match b.step1 g.id.toNat (some g.streams.num) with
  | some x => some x
  | none => firstOf
    [ step2 n g.versionSize claim,
      if has 7 || has 8 then step9 n (b.recs 7) (b.recs 8) (b.recSize 7) g.tensorSize (b.recSize 8) else none,
      if has 10 || has 11 then step11 n (b.recSize 11) else none,
      if has 12 then step12 n else none ]

/-! ### Loading (R124 to R126, R131) -/

/-- Offset of the image staging and of the partial staging in hub SRAM (R131). -/
def stagingOff : Nat := 0xC000000
def partialOff : Nat := 0xF000000

/-- The image that staging holds. -/
def Cx.staged (c : Cx) (isPart : Bool) : Bin :=
  let n := if isPart then c.img.partLen else c.img.stagedLen
  { v := leNat (c.bytes (sramKey c.master (if isPart then partialOff else stagingOff)) n),
    len := (c.reg (hubBase .A + 8)).toNat, partialImg := isPart }

def Cx.setImg (c : Cx) (f : ImageSt → ImageSt) : Cx := { c with img := f c.img }

/-- A refusal of an image (R127): status, error registers, enable 0 and `IMAGE_REFUSED`. -/
def Cx.refuseImage (c : Cx) (isPart : Bool) (x : Bad) : Cx :=
  let id := (c.staged isPart).id
  (c.setImg fun m =>
    let m := { m with reason := x.1, section_ := x.2.1, offset := x.2.2, checked := none }
    if isPart then { m with part := .refused } else { m with st := .refused, enableBit := false, push := none }).ev
    0x2002 11 2 c.master c.master.num [x.1, x.2.1, x.2.2, id, b2n isPart]

/-- IMAGE_LOAD (R124, R131): HUB_IMAGE_CTRL.load. -/
def execImageLoad (d : Side) (s : State) : R :=
  let c := s.cx
  if !c.serves d then s.go c
  else
    let len := (c.reg (hubBase .A + 8)).toNat
    let addr := BitVec.ofNat 64 ((c.reg (hubBase .A)).toNat + (c.reg (hubBase .A + 4)).toNat * 2 ^ 32)
    match c.img.st with
    | .empty | .loaded | .refused =>
      s.go (c.setImg fun m => { m with st := .loading, push := none, loadLen := len, loadAddr := addr })
    | .loading | .checking => s.go (c.hostDrop d 0 (hubBase d + 0x0C) 4 true)
    | .enabled =>
      match c.img.part with
      | .loading | .checking | .applying => s.go (c.hostAccess d 0 (hubBase d + 0x0C) 4 true)
      | _ => s.go ((c.setImg fun m => { m with part := .loading, loadLen := len, loadAddr := addr }).submit
                c.master (.image 1))

/-- The bytes of a load can be read: tag 0x0, 0x3 or 0x4, inside its space and free of poison (R124, R125). -/
def Cx.loadable (c : Cx) : Bool :=
  let a := c.img.loadAddr.toNat
  let n := c.img.loadLen
  [0, 3, 4].contains (bits a 63 60) && (c.checkRange .read a n).isNone && !c.hostDown a
    && (c.unreachable? c.master a).isNone && (c.poisonIn a n).isNone

/-- IMAGE_LOAD_DONE (R124): the fetch ends. -/
def execImageLoadDone (ok : Bool) (s : State) : R :=
  let c := s.cx
  let n := c.img.loadLen
  let good (limit : Nat) : Bool := ok && n != 0 && decide (n ≤ limit) && c.loadable
  if c.img.st == .loading && c.img.push.isNone then
    if good 0x4000000 then
      s.go ((c.poke (sramKey c.master stagingOff) (c.readAt c.img.loadAddr.toNat n)).setImg fun m =>
        { m with st := .loaded, stagedLen := n })
    else s.go (c.refuseImage false (0x0810, 0, 0))
  else if c.enabled && c.img.part == .loading then
    if good 0x400000 then
      s.go ((c.poke (sramKey c.master partialOff) (c.readAt c.img.loadAddr.toNat n)).setImg fun m =>
        { m with part := .loaded, partLen := n })
    else s.go (c.refuseImage true (0x0810, 0, 0))
  else s.go c

/-! ### Enable (R127) -/

/-- Unknown sections that are skipped raise `IMAGE_SECTION_SKIPPED` (R134). -/
def Cx.sectionsSkipped (c : Cx) (b : Bin) : Cx :=
  (b.secs.filter fun x => !decide (1 ≤ x.id ∧ x.id ≤ 13)).foldl
    (fun c x => c.ev 0x2004 11 0 c.master c.master.num [x.id, b.minor]) c

/-- HUB_HOST_CLAIM (Table 5.13). -/
def Cx.hostClaim (c : Cx) : Nat := (c.reg (hubBase .A + 0x30)).toNat

/-- The consistency check runs on the staged image; a passing image waits for its initialisation (R127, R128). -/
def Cx.checkImage (c : Cx) : Cx :=
  let b := c.staged false
  match checkFull c b c.hostClaim with
  | some x => c.refuseImage false x
  | none => (c.sectionsSkipped b).setImg fun m => { m with st := .checking, enableBit := true, checked := some b.img }

/-- A die that the check waits for is in Run: one that is powered and not fenced passes through Thaw first. -/
def Cx.awake (c : Cx) (d : Side) : Bool := !(c.die d).aon || (c.die d).fenced || (c.die d).power == .run

/-- The check starts: at once, or, with a die in Frost, Dew or Thaw, when both dies are in Run (R127). The write to die d wakes
that die over PCIe and its twin over the hub bridge. -/
def Cx.startCheck (c : Cx) (d : Side) : Cx :=
  if c.awake .A && c.awake .B then c.checkImage
  else (((c.setImg fun m => { m with st := .checking, enableBit := true, checked := none }).leaveFrost 1).wake d 1).wake d.twin 4

/-- A check that waited for Run starts once both dies are there. -/
def Cx.resumeCheck (c : Cx) : Cx :=
  if c.img.st == .checking && c.img.checked.isNone && c.awake .A && c.awake .B then c.checkImage else c

/-- IMAGE_ENABLE (R127): writing enable 1. -/
def execImageEnable (d : Side) (s : State) : R :=
  let c := s.cx
  if !c.serves d then s.go c
  else match c.img.st with
    | .loaded | .refused => s.go (c.startCheck d)
    | .loading | .checking => s.go (c.hostDrop d 0 (hubBase d + 0x0C) 4 true)
    | .empty => s.go (c.hostAccess d 0 (hubBase d + 0x0C) 4 true)
    | .enabled => s.go c

/-! ### Partial images (R130, R131) -/

/-- New tadpole store of a newt: the records that name it, instruction by instruction (R120). -/
def Img.tadStore (g : Img) (n : Nat) : List (Nat × W32) :=
  (g.tadpoles.filter fun t => bit t.stackMask (n / 32) && bit t.channelMask (n % 32)).foldl
    (fun m t => (List.range t.words.length).foldl (fun m i => kput m (t.start + i) (t.words.getD i 0#32)) m) []

/-- Programs of the rule slots, as the engines hold them. -/
def Img.ruleSlots (g : Img) : List (Nat × List W32) := g.rules.foldl (fun m r => kput m r.1 r.2) []

/-- Global channels of the active stacks. -/
def Img.channels (g : Img) : List Nat := g.geo.active.flatMap fun s => (List.range 32).map (s * 32 + ·)

/-- Sections of an image that the device knows, as a bitmap of ids. -/
def Bin.known (b : Bin) : Nat := ((b.secs.filter fun x => decide (1 ≤ x.id ∧ x.id ≤ 13)).map fun x => 2 ^ x.id).sum

/-- A newt whose ready bit sets takes its new store; the application ends with the last one (R130, R131). -/
def Cx.takeStore (c : Cx) (n : Nat) : Cx :=
  match (c.newt n).newStore with
  | none => c
  | some st =>
    if (c.newt n).job.isSome || (c.newt n).wait.isSome then c
    else c.modNewt n fun x => { x with store := st, newStore := none }

def Cx.endApply (c : Cx) : Cx :=
  if c.img.part == .applying && c.newts.all (fun p => p.2.newStore.isNone) then
    (c.setImg fun m => { m with part := .applied }).ev 0x2003 11 0 c.master c.master.num
      [c.img.applying.1, c.img.applying.2]
  else c

/-- Every stack and newt switches, each newt when its ready bit is set (R130). -/
def Cx.applyPartial (c : Cx) (g : Img) (b : Bin) : Cx :=
  let n := g.patch b
  let c := c.setImg fun m => { m with cfg := some n, part := .applying, applying := (b.id, b.known) }
  let c := if (b.find 7).isSome then
      n.geo.active.foldl (fun c s => c.modStk s fun k => { k with engine := { k.engine with rules := n.ruleSlots } }) c
    else c
  let c := if (b.find 8).isSome then
      n.channels.foldl (fun c x => (c.modNewt x fun y => { y with newStore := some (n.tadStore x) }).takeStore x) c
    else c
  (c.submit c.master (.image 2)).endApply

/-- PARTIAL_APPLY (R131): HUB_IMAGE_PARTIAL.apply. -/
def execPartialApply (d : Side) (s : State) : R :=
  let c := s.cx
  match c.img.cfg with
  | none => s.go c
  | some g =>
    if !c.serves d || !c.enabled then s.go c
    else match c.img.part with
      | .loaded =>
        let b := c.staged true
        match checkPartial g b c.hostClaim with
        | some x => s.go (c.refuseImage true x)
        | none => s.go ((c.sectionsSkipped b).applyPartial g b)
      | .loading | .checking | .applying => s.go (c.hostAccess d 0 (hubBase d + 0x20) 4 true)
      | _ => s.go c

end Sys2Proof.Machine
end

