-- ==== Sys2Proof/Machine/Operands.lean ====
section
/-!
DEFINITION. Operand forms of the two program kinds: vector, constant and special operands and predicates of rule
programs (Tables 9.2, 9.3, R217, R220), and the registers and pointers of tadpole programs (R285, R296, R297).
-/
namespace Sys2Proof.Machine

/-! ### Rule programs -/

/-- What a lane group's instruction sees of its pass, window and block. -/
structure RuleEnv where
  w : Nat
  tensor : Tensor
  /-- window_in_tensor and valid parameters of the window -/
  k : Nat
  valid : Nat
  step : Step
  table : StepTable
  clip : W32
  tails : Bool
  pyro : Bool
  factored : Bool
  /-- the buffer that the pass's FSTAT filled, which FAC reads; without FSTAT it reads the committed one (R232) -/
  statBuf : Option Nat
  /-- stack offsets of the old slot, the new slot and the G array -/
  old : Nat
  new : Nat
  g : Nat
  /-- version that the pass produces -/
  version : Version
  /-- drained epoch of the window -/
  eD : BitVec 3
  stream : StreamId
  command : W32
  block : Nat
  pc : Nat
  /-- old header of the block -/
  header : Nat
  deriving DecidableEq, Repr

def RuleEnv.stack (e : RuleEnv) : Nat := winStack e.w
/-- Parameter j of the block is valid (R215). -/
def RuleEnv.validLane (e : RuleEnv) (j : Nat) : Bool := decide (64 * e.block + j < e.valid)
/-- Valid lanes of the block: lanes 0 … n-1. -/
def RuleEnv.lanes (e : RuleEnv) : Nat := min 64 (e.valid - 64 * e.block)
def RuleEnv.frozen (e : RuleEnv) : Bool := bit e.header 16
/-- The block's G is current (R192). -/
def RuleEnv.current (e : RuleEnv) : Bool := decide (bits e.header 19 17 = e.eD.toNat)
/-- Tensor element index of lane 0 of the block (R74). -/
def RuleEnv.element (e : RuleEnv) : Nat := e.k * 1048576 + 64 * e.block

/-- ils = RNE32(1 / loss_scale) (R217). -/
def RuleEnv.ils (e : RuleEnv) : W32 := (f32Div f32One e.table.lossScale).1
/-- gsc = RNE32(ils × clip) (R217). -/
def RuleEnv.gsc (e : RuleEnv) : W32 := (f32Mul e.ils e.clip).1

/-- Flags of the two special operands' operations, once for each pass in each stack (R46, R217). -/
def RuleEnv.specialFlags (e : RuleEnv) : Flags := (f32Div f32One e.table.lossScale).2 ||| (f32Mul e.ils e.clip).2

/-- Vector register r of a lane group. -/
def LaneCtx.vreg (l : LaneCtx) (r : Nat) : List W32 := l.v.getD r []

def LaneCtx.setV (l : LaneCtx) (r : Nat) (x : List W32) : LaneCtx := { l with v := l.v.set r x }
def LaneCtx.preg (l : LaneCtx) (r : Nat) : BitVec 64 := l.p.getD r 0#64
def LaneCtx.setP (l : LaneCtx) (r : Nat) (x : BitVec 64) : LaneCtx := { l with p := l.p.set r x }

/-- Value of an operand code in lane j (Table 9.3). -/
def RuleEnv.operand (e : RuleEnv) (l : LaneCtx) (a : BitVec 6) (j : Nat) : W32 :=
  let n := a.toNat
  if n < 0x10 then (l.vreg n).getD j 0#32
  else if n < 0x30 then e.table.c.getD (n - 0x10) 0#32
  else if n = 0x31 then f32One
  else if n = 0x32 then e.clip
  else if n = 0x33 then e.ils
  else if n = 0x34 then e.gsc
  else 0#32

/-- R220: does the instruction execute in lane j? -/
def predRuns (q : RPred) (l : LaneCtx) (j : Nat) : Bool :=
  !q.pe || ((l.preg q.p.toNat).getLsbD j != q.pn)

/-! ### Tadpole programs -/

/-- Element size in bytes by format (Table 11.4); split formats count 4 bytes per element (R285). -/
def fmtSize (fmt : Nat) : Nat :=
  match fmt with
  | 0 => 2
  | 1 | 2 | 3 | 4 => 1
  | _ => 4

def Tad.xreg (t : Tad) (r : BitVec 3) : List W32 := t.x.getD r.toNat []
def Tad.setX (t : Tad) (r : BitVec 3) (v : List W32) : Tad := { t with x := t.x.set r.toNat v }
def Tad.ptr (t : Tad) (r : BitVec 3) : Option Ptr := t.a.getD r.toNat none
def Tad.setPtr (t : Tad) (r : BitVec 3) (p : Option Ptr) : Tad := { t with a := t.a.set r.toNat p }
def Tad.sreg (t : Tad) (r : BitVec 3) : W32 := t.s.getD r.toNat 0#32
def Tad.setS (t : Tad) (r : BitVec 3) (v : W32) : Tad := { t with s := t.s.set r.toNat v }

/-- An access of n bytes through a pointer stays within its bounds (R297). -/
def Ptr.within (p : Ptr) (n : Nat) : Bool := decide ((p.lo : Int) ≤ p.off ∧ p.off + n ≤ p.hi)

end Sys2Proof.Machine
end

