-- ==== Sys2Proof/Machine/Flags.lean ====
section
/-!
DEFINITION. Flag and NaN rules of the program instructions: what an operation gives in one lane, which flags it may
set (R221, Table 2.4), and when it produces a NaN (R55).
-/
namespace Sys2Proof.Machine

/-- What an operation gives in one lane: its value, its flags, and whether it produced a NaN. -/
structure LaneOut where
  v : W32
  fl : Flags
  nan : Bool
  deriving DecidableEq, Repr

/-- R55: a NaN is produced when the result is one and no operand was. -/
def produces (r : W32) (ops : List W32) : Bool := f32IsNan r && !(ops.any f32IsNan)

/-- A canonical NaN in place of any NaN (R29). -/
def canonical (a : W32) : W32 := if f32IsNan a then f32Nan else a

/-- Pyroimet mode flushes a subnormal result to a zero of its sign, a tiny and inexact result (Table 2.7, R42; the flags are
DEDUCED, log entry 83). -/
def pyroFlush (pyro : Bool) (r : W32 × Flags) : W32 × Flags :=
  let z := flush r.1
  if pyro && z.2 != 0#8 then (z.1, r.2 ||| Flag.uf ||| Flag.nx) else r

/-- An arithmetic operation. -/
def arith (pyro : Bool) (r : W32 × Flags) (ops : List W32) : LaneOut :=
  let z := pyroFlush pyro r
  ⟨z.1, z.2, produces z.1 ops⟩

/-- Operations that move or select an operand: no flag but nv for a signalling NaN (R221). -/
def quiet (pyro : Bool) (r : W32) (ops : List W32) : LaneOut :=
  ⟨(pyroFlush pyro (canonical r, 0#8)).1, flagIf (ops.any fun a => (f32Num a).isSnan) Flag.nv, produces r ops⟩

/-- A comparison's flags (R221, Table 2.4): a NaN operand is seen; CLT and CLE set nv for it, CEQ never. -/
def cmpFlags (nvToo : Bool) (a b : W32) : Flags :=
  flagIf (f32IsNan a || f32IsNan b) (Flag.nanSeen ||| flagIf nvToo Flag.nv)

/-- Multiply-add in Pyroimet mode: product and sum rounded separately, each flushed (Table 2.7). -/
def pyroFma (neg : Bool) (a b c : W32) : W32 × Flags :=
  let m := pyroFlush true (f32Mul a b)
  let r := if neg then f32Sub c m.1 else f32Add m.1 c
  (r.1, m.2 ||| r.2)

/-- Two-operand arithmetic of Table 9.4. -/
def alu2Lane (op : Alu2) (pyro : Bool) (a b : W32) : LaneOut :=
  match op with
  | .add => arith pyro (f32Add a b) [a, b]
  | .sub => arith pyro (f32Sub a b) [a, b]
  | .mul => arith pyro (f32Mul a b) [a, b]
  | .div => arith pyro (f32Div a b) [a, b]
  | .max => quiet pyro (f32Max a b).1 [a, b]
  | .min => quiet pyro (f32Min a b).1 [a, b]

/-- Three-operand arithmetic of Table 9.4. -/
def alu3Lane (op : Alu3) (pyro : Bool) (a b c : W32) : LaneOut :=
  match op with
  | .fma => arith pyro (if pyro then pyroFma false a b c else f32Fma a b c) [a, b, c]
  | .fnma => arith pyro (if pyro then pyroFma true a b c else f32Fnma a b c) [a, b, c]

/-- SIGN of Table 9.4. -/
def f32Sign (a : W32) : W32 :=
  match f32Num a with
  | .fin n m _ => if m = 0 then a else if n then 0xBF800000#32 else f32One
  | .inf n => if n then 0xBF800000#32 else f32One
  | .nan _ => f32Nan

/-- One-operand operations of Table 9.4. -/
def alu1Lane (op : Alu1) (pyro : Bool) (a : W32) : LaneOut :=
  match op with
  | .sqrt => arith pyro (f32Sqrt a) [a]
  | .rsqrt => arith pyro (f32Rsqrt a) [a]
  | .abs => quiet pyro (a &&& 0x7FFFFFFF#32) [a]
  | .neg => quiet pyro (a ^^^ 0x80000000#32) [a]
  | .sign => quiet pyro (f32Sign a) [a]
  | .mov => quiet pyro a [a]

/-- Comparisons of Table 9.4: the predicate bit and the flags. -/
def cmpLane (op : Cmp) (a b : W32) : Bool × Flags :=
  let x := f32Num a
  let y := f32Num b
  match op with
  | .clt => (x.lt y, cmpFlags true a b)
  | .cle => (x.lt y || x.eqv y, cmpFlags true a b)
  | .ceq => (x.eqv y, cmpFlags false a b)

end Sys2Proof.Machine
end

