-- ==== Sys2Proof/Machine/Stats.lean ====
section
/-!
DEFINITION. The statistics store of a stack: its layout, FSTAT, FAC, and the commit and discard of a step's
statistics (R229 to R233).
-/
namespace Sys2Proof.Machine

/-! ### Layout (R229, R230, Table 9.5) -/

/-- Stack offset of the statistics store. -/
def Img.statStart (g : Img) : Nat := g.stashEnd * rowBytes

/-- Stack offset of a tensor's section in a stack. -/
def Img.section_ (g : Img) (t : Tensor) (s : Nat) : Nat :=
  g.statStart + ((g.factored.filter fun u => decide (u.handle < t.handle)).map fun u =>
    u.statBytes (g.windowsIn u s).length).sum

def Cx.section_ (c : Cx) (t : Tensor) (s : Nat) : Nat :=
  match c.img.cfg with
  | some g => g.section_ t s
  | none => 0

/-- Offsets within a section: R and C buffers, final sums, partials. -/
def Tensor.offR (t : Tensor) (buf : Nat) : Nat := 64 + 4 * t.rows * buf
def Tensor.offC (t : Tensor) (buf : Nat) : Nat := 64 + 8 * t.rows + 4 * t.columns * buf
def Tensor.offRowSq (t : Tensor) : Nat := 64 + 8 * t.rows + 8 * t.columns
def Tensor.offColSq (t : Tensor) : Nat := 64 + 12 * t.rows + 8 * t.columns
/-- Partials slot of the tensor's i-th window in the stack. -/
def Tensor.offPart (t : Tensor) (i : Nat) : Nat := 64 + 12 * t.rows + 12 * t.columns + 4 * i * (t.partRows + t.partCols)

/-- A binary32 at a stack offset, as the base die reads it. -/
def Cx.f32At (c : Cx) (s off : Nat) : W32 := BitVec.ofNat 32 (leNat (c.dram s off 4))

/-- A base-die write at a stack offset. -/
def Cx.basePut (c : Cx) (s off : Nat) (bs : List Byte) : Cx := c.baseWrite (stackKey s off) bs

def f32Bytes (l : List W32) : List Byte := l.flatMap fun x => leBytes 4 x.toNat

/-- Committed buffer of a section. -/
def Cx.statSel (c : Cx) (t : Tensor) (s : Nat) : Nat := ((c.dram s (c.section_ t s + 8) 1).headD 0#8).toNat % 2
def Cx.statSpec (c : Cx) (t : Tensor) (s : Nat) : Bool := bit ((c.dram s (c.section_ t s + 8) 1).headD 0#8).toNat 1
def Cx.statStep (c : Cx) (t : Tensor) (s : Nat) : Step := BitVec.ofNat 48 (leNat (c.dram s (c.section_ t s + 10) 6))
/-- S of a buffer. -/
def Cx.statSum (c : Cx) (t : Tensor) (s buf : Nat) : W32 := c.f32At s (c.section_ t s + 4 * buf)

def Cx.setStat (c : Cx) (t : Tensor) (s sel : Nat) (spec : Bool) : Cx :=
  c.basePut s (c.section_ t s + 8) [BitVec.ofNat 8 (sel + 2 * b2n spec)]

/-! ### FSTAT and FAC (R231, R232) -/

/-- RNE32(q × x + n × eps), rounded once. -/
def foldTerm (q x : W32) (n : Nat) (eps : W32) : W32 × Flags :=
  let p := (f32Num q).mul (f32Num x)
  let r := (Num.fin false n 0).mul (f32Num eps)
  let t := p.1.add r.1
  w32 (finish .f32 [f32Num q, f32Num x, f32Num eps] (t.1, p.2 || r.2 || t.2))

/-- RNE32(beta × old + omb × x). -/
def foldMix (beta old omb x : W32) : W32 × Flags :=
  let p := (f32Num beta).mul (f32Num old)
  let r := (f32Num omb).mul (f32Num x)
  let t := p.1.add r.1
  w32 (finish .f32 [f32Num beta, f32Num old, f32Num omb, f32Num x] (t.1, p.2 || r.2 || t.2))

/-- One folded element of R or C: what is stored, its flags, and the NaNs read from the store or produced (R55). -/
structure StatElem where
  v : W32
  fl : Flags
  nans : Nat
  deriving DecidableEq, Repr

def foldStat (q beta omb eps : W32) (n : Nat) (old sq : W32) : StatElem :=
  let x := foldTerm q sq n eps
  let y := foldMix beta old omb x.1
  let z := storeStat y.1
  { v := z.1, fl := x.2 ||| y.2 ||| z.2
    nans := b2n (f32IsNan old) + b2n (f32IsNan sq) + b2n (produces x.1 [q, sq, eps])
      + b2n (produces y.1 [beta, old, omb, x.1]) }

/-- What the prologue did to a stack: the store, its flags, the NaNs it read or produced, and the elements that the
state-store rule clamped and zeroed (R44, R55). -/
structure StatFx where
  cx : Cx
  fl : Flags
  nans : Nat
  clamped : Nat
  zeroed : Nat

/-- Elements whose flags hold a flag. -/
def countFlag (f : Flags) (l : List Flags) : Nat := (l.filter fun x => x &&& f != 0#8).length

/-- The statistics prologue for one tensor and stack (R231's pseudocode). `known` tells whether the step's final
sums have been written; without them they are +0 (R250). -/
def Cx.fstat (c : Cx) (t : Tensor) (s : Nat) (step : Step) (gsc beta omb eps : W32) (known : Bool) : StatFx :=
  let base := c.section_ t s
  let o := c.statSel t s
  let n := 1 - o
  let q := f32Mul gsc gsc
  let sum (off i : Nat) : W32 := if known then c.f32At s (base + off + 4 * i) else 0#32
  let rs := (List.range t.rows).map fun i =>
    foldStat q.1 beta omb eps t.columns (c.f32At s (base + t.offR o + 4 * i)) (sum t.offRowSq i)
  let cs := (List.range t.columns).map fun j =>
    foldStat q.1 beta omb eps t.rows (c.f32At s (base + t.offC o + 4 * j)) (sum t.offColSq j)
  let tot := tree32 (rs.map (·.v))
  let c := c.basePut s (base + t.offR n) (f32Bytes (rs.map (·.v)))
  let c := c.basePut s (base + t.offC n) (f32Bytes (cs.map (·.v)))
  let c := c.basePut s (base + 4 * n) (f32Bytes [tot.1])
  let all := rs ++ cs
  { cx := (c.setStat t s o true).basePut s (base + 10) (leBytes 6 step.toNat)
    fl := all.foldl (fun f x => f ||| x.fl) (q.2 ||| tot.2)
    nans := (all.map (·.nans)).sum + b2n (f32IsNan tot.1) + b2n (produces q.1 [gsc])
    clamped := countFlag Flag.clamp (all.map (·.fl)), zeroed := countFlag Flag.nanZeroed (all.map (·.fl)) }

/-- FAC for element e of a factored tensor from a buffer: RNE32(R[i] × C[j] / S), +0 when S is +0 (R232). -/
def Cx.facValue (c : Cx) (t : Tensor) (s e b : Nat) : W32 × Flags :=
  let base := c.section_ t s
  let tot := c.statSum t s b
  if tot = 0#32 then (0#32, 0#8)
  else
    let r := f32Num (c.f32At s (base + t.offR b + 4 * (e / t.columns)))
    let k := f32Num (c.f32At s (base + t.offC b + 4 * (e % t.columns)))
    let p := r.mul k
    let d := p.1.div (f32Num tot)
    w32 (finish .f32 [r, k, f32Num tot] (d.1, p.2 || d.2))

/-! ### Commit and discard (R233) -/

/-- The first window of the tensor in the stack commits a version written by a pass 2 of the step. -/
def Cx.commitStats (c : Cx) (t : Tensor) (s : Nat) (step : Step) : Cx :=
  if t.factored && c.statSpec t s && c.statStep t s = step then c.setStat t s (1 - c.statSel t s) false else c

/-- The speculative statistics of a step are discarded in one stack, with the runs that have not been committed. -/
def Cx.discardStats (c : Cx) (t : Tensor) (s : Nat) (step : Step) : Cx :=
  if !t.factored then c
  else
    let o := c.statSel t s
    let spec := c.statSpec t s && c.statStep t s = step
    let c := c.modStk s fun k => { k with engine := { k.engine with runs := k.engine.runs.filter fun r =>
      !(r.tensor = t.handle && r.step = step && (!r.ran || (spec && r.buf != o))) } }
    if spec then c.setStat t s o false else c

/-- A window of the tensor in the stack still has a speculative version of the step. -/
def Cx.statsUsed (c : Cx) (t : Tensor) (s : Nat) (step : Step) : Bool :=
  c.wins.any fun p => winStack p.1 = s && p.2.tensor = t.handle && p.2.specValid && p.2.importStep.isNone
    && p.2.st.step? = some step

/-- A window's speculative version is discarded; with the last of its step in the stack go the step's statistics
(R77, R233). -/
def Cx.dropSpec (c : Cx) (w : Nat) : Cx :=
  match kget? c.wins w with
  | none => c
  | some v =>
    let c := c.discardSpec w
    match v.specValid && v.importStep.isNone, v.st.step?, c.tensor? v.tensor with
    | true, some n, some t => if c.statsUsed t (winStack w) n then c else c.discardStats t (winStack w) n
    | _, _, _ => c

/-- They are discarded in every active stack. -/
def Cx.discardStatsAll (c : Cx) (t : Tensor) (step : Step) : Cx :=
  match c.img.cfg with
  | some g => g.geo.active.foldl (fun c s => c.discardStats t s step) c
  | none => c

end Sys2Proof.Machine
end

