-- ==== Sys2Proof/Machine/Jobs.lean ====
section
/-!
DEFINITION. Newt job descriptors (R284 to R286): their fields, their operands, the check before a newt takes one, and
the byte ranges that a job touches.
-/
namespace Sys2Proof.Machine

/-! ### Fields (Tables 11.3, 11.4) -/

/-- n bytes of a descriptor from an offset. -/
def Job.f (j : Job) (off n : Nat) : Nat := leNat ((j.desc.drop off).take n)

def Job.kind (j : Job) : Nat := j.f 0 1
def Job.flags (j : Job) : Nat := j.f 1 1
def Job.outOp (j : Job) : Nat := j.f 2 1
def Job.rto (j : Job) : Bool := bit (j.f 3 1) 0
def Job.count (j : Job) : Nat := j.f 4 4
def Job.length (j : Job) : Nat := j.f 8 4
def Job.scale (j : Job) : W32 := BitVec.ofNat 32 (j.f 0x0C 4)
def Job.accBase (j : Job) : Nat := j.f 0x38 4
def Job.accMode (j : Job) : Nat := j.flags % 4
def Job.chainSend (j : Job) : Bool := bit j.flags 2
def Job.chainRecv (j : Job) : Bool := bit j.flags 3
def Job.dropout (j : Job) : Bool := bit j.flags 4
def Job.isPartial (j : Job) : Bool := bit j.flags 5
def Job.ctx (j : Job) : Bool := bit j.flags 6
def Job.seed (j : Job) : W64 := BitVec.ofNat 64 (j.f 0x40 8)
def Job.elemBase (j : Job) : Nat := j.f 0x48 6
def Job.layer (j : Job) : Nat := j.f 0x4E 2
def Job.microBatch (j : Job) : Nat := j.f 0x50 4
def Job.keep16 (j : Job) : Nat := j.f 0x54 2
def Job.channel (j : Job) : Nat := bits (j.f 0x56 2) 9 0

/-- An operand reference (Table 11.4). -/
structure ORef where
  scratch : Bool
  off : Nat
  fmt : Nat
  deriving DecidableEq, Repr

def ORef.of (v : Nat) : ORef := ⟨bit v 32, bits v 31 0, bits v 35 33⟩
def Job.ref (j : Job) (off : Nat) : ORef := .of (j.f off 8)

def refA : Nat := 0x10
def refB : Nat := 0x18
def refC : Nat := 0x20
def refOut : Nat := 0x28
def refE : Nat := 0x30

/-- An operand of a job: the field it stands in, its reference, its bytes, and whether the job writes it. -/
structure Operand where
  field : Nat
  ref : ORef
  len : Nat
  write : Bool
  deriving DecidableEq, Repr

/-! ### Contexts (R291) -/

def Cx.sliceTokens (c : Cx) (n : Nat) : Nat :=
  let s := (kget (0#32, 0#32) c.attCtx n).2.toNat % 65536
  if s = 0 then 65536 else s

/-- Tokens T of an ATTEND when it starts. -/
def Cx.tokens (c : Cx) (j : Job) : Nat :=
  if j.ctx then
    let n := bits j.count 9 0
    let s := c.sliceTokens n
    min s ((kget (0#32, 0#32) c.attCtx n).1.toNat - bits j.count 23 16 * s)
  else j.count

/-! ### Operands (R285) -/

/-- Operands of a DOT or an ATTEND with their sizes; K and V of an ATTEND have T tokens. -/
def Job.operands (j : Job) (T : Nat) : List Operand :=
  let op (field n : Nat) (w : Bool) : Operand := ⟨field, j.ref field, n * fmtSize (j.ref field).fmt, w⟩
  let e := if j.outOp = 0 then [] else [op refE (if j.kind = 0 then j.count else j.length) false]
  if j.kind = 0 then
    [op refA (j.count * j.length) false, op refB j.length false]
      ++ (if j.accMode = 0 || j.accMode = 3 then [op refOut j.count true] else []) ++ e
      ++ (if j.accMode = 0 then [] else [⟨0x38, ⟨true, j.accBase, 5⟩, 4 * j.count, true⟩])
  else if j.kind = 1 then
    [op refA j.length false, op refB (T * j.length) false, op refC (T * j.length) false]
      ++ (if j.chainSend then [] else [op refOut (if j.isPartial then 2 + j.length else j.length) true]) ++ e
  else []

/-- The placed region of channel g that holds channel offset x, as its first offset and the one past its last. -/
def Cx.regionAt (c : Cx) (g x : Nat) : Option (Nat × Nat) :=
  (c.img.cfg.bind fun i => i.regions.find? fun r => r.covers (g / 32) (g % 32) x).map fun r => (r.base, r.base + r.size)

/-- Bounds of the operand that a tadpole pointer names: to the end of its region or of the scratchpad (R285). -/
def Cx.ptrBounds (c : Cx) (g : Nat) (r : ORef) : Option (Nat × Nat) :=
  if r.scratch then (if r.off < padBytes then some (r.off, padBytes) else none)
  else (c.regionAt g r.off).map fun b => (r.off, b.2)

/-- A range of channel offsets overlaps the newt window of channel g. -/
def Cx.overWindow (c : Cx) (g off len : Nat) : Bool :=
  match (c.newt g).window with
  | some w => decide (off < w + 65536 ∧ w < off + len)
  | none => false

/-- An operand lies in a placed region of the own channel, off the window, or in the scratchpad (R285, code 0x04). -/
def Cx.operandOk (c : Cx) (g : Nat) (o : Operand) : Bool :=
  o.len = 0 ||
    (if o.ref.scratch then decide (o.ref.off + o.len ≤ padBytes)
     else (c.regionAt g o.ref.off).any (fun b => decide (o.ref.off + o.len ≤ b.2)) && !c.overWindow g o.ref.off o.len)

def Operand.overlaps (a b : Operand) : Bool :=
  a.ref.scratch == b.ref.scratch && decide (a.ref.off < b.ref.off + b.len ∧ b.ref.off < a.ref.off + a.len)

/-! ### The check (R285, R286) -/

/-- First failing field of a list of (fails, field offset) pairs, lowest offset first. -/
def firstField (l : List (Bool × Nat)) : Option Nat := (l.find? fun p => p.1).map (·.2)

/-- Code 0x02: kind, flag, out_op, a field the kind does not use, or a reserved field. -/
def Job.badField (j : Job) : Option Nat :=
  let k := j.kind
  let dot : Bool := k = 0
  let att : Bool := k = 1
  let tad : Bool := k = 2
  let drop := att && j.dropout
  let top (field : Nat) : Bool := j.f field 8 / 2 ^ 36 != 0
  firstField [
    (k > 2, 0),
    ((dot && j.flags / 4 != 0) || (att && (j.flags % 4 != 0 || bit j.flags 7 || (j.chainSend && j.isPartial)))
      || (tad && j.flags != 0), 1),
    (j.outOp > 2 || (tad && j.outOp != 0), 2),
    (j.f 3 1 > 1 || (tad && j.f 3 1 != 0), 3),
    ((att && j.ctx && (bits j.count 15 10 != 0 || bits j.count 31 24 != 0)) || (tad && j.count > 255), 4),
    (tad && j.length != 0, 8),
    (tad && j.scale != 0#32, 0x0C),
    (top refA, refA), (top refB, refB), (top refC || (dot && j.f refC 8 != 0), refC),
    (top refOut || (dot && (j.accMode = 1 || j.accMode = 2) && j.f refOut 8 != 0)
      || (att && j.chainSend && j.f refOut 8 != 0), refOut),
    (top refE || (!tad && j.outOp = 0 && j.f refE 8 != 0), refE),
    (!dot && j.accBase != 0, 0x38),
    (j.f 0x3C 4 != 0, 0x3C),
    ((dot || (att && !drop)) && j.f 0x40 8 != 0, 0x40),
    ((dot || (att && !drop)) && j.f 0x48 6 != 0, 0x48),
    ((dot || (att && !drop)) && j.f 0x4E 2 != 0, 0x4E),
    ((dot || (att && !drop)) && j.f 0x50 4 != 0, 0x50),
    (!drop && j.f 0x54 2 != 0, 0x54),
    (j.f 0x56 2 / 1024 != 0, 0x56),
    (j.desc.drop 0x58 |>.any (· != 0#8), 0x58)]

/-- Code 0x03: a count, length, scale, acc_base or keep16 outside its range. -/
def Job.badRange (j : Job) : Option Nat :=
  let dot : Bool := j.kind = 0
  let att : Bool := j.kind = 1
  firstField [
    ((dot && (j.count = 0 || j.count > 16384)) || (att && !j.ctx && (j.count = 0 || j.count > 65536)), 4),
    ((dot && (j.length = 0 || j.length > 2 ^ 24)) || (att && (j.length < 16 || j.length > 128 || j.length % 16 != 0)), 8),
    ((dot || att) && f32NonFinite j.scale, 0x0C),
    (dot && j.accMode != 0 && j.accBase % 4 != 0, 0x38),
    (att && j.dropout && j.keep16 = 0, 0x54)]

/-- Pairs (A, B) of formats that a DOT admits (R286). -/
def dotPair (a b : Nat) : Bool :=
  let e (x : Nat) : Bool := x = 1 || x = 2
  let i (x : Nat) : Bool := x = 3 || x = 4
  let sp (x : Nat) : Bool := x = 6 || x = 7
  (a = 0 && (b = 0 || e b || sp b)) || (b = 0 && (e a || sp a)) || (e a && e b) || (i a && i b)

/-- Code 0x05: a format R286 does not admit. -/
def Job.badFormat (j : Job) : Option Nat :=
  let dot : Bool := j.kind = 0
  let att : Bool := j.kind = 1
  let fm (field : Nat) : Nat := (j.ref field).fmt
  firstField [
    ((dot && !dotPair (fm refA) (fm refB)) || (att && fm refA > 2), refA),
    (att && fm refB > 2, refB), (att && fm refC > 2, refC),
    (((dot || att) && fm refOut > 5)
      || (att && j.isPartial && fm refOut != 5), refOut),
    ((dot || att) && j.outOp != 0 && !([0, 1, 2, 5].contains (fm refE)), refE)]

/-- The fields whose operands a TADPOLE loads into a0 to a4. -/
def ptrFields : List Nat := [refA, refB, refC, refOut, refE]

/-- R285: the refusal code and the failing field, none when the newt takes the descriptor. -/
def Cx.checkDesc (c : Cx) (g : Nat) (j : Job) : Option (Nat × Nat) :=
  let T := if j.ctx then c.sliceTokens (bits j.count 9 0) else j.count
  let ops := j.operands T
  let place : Option Nat :=
    if j.kind = 2 then
      firstField (ptrFields.map fun p => (j.f p 8 != 0 && (match c.ptrBounds g (j.ref p) with
        | none => true
        | some b => !(j.ref p).scratch && c.overWindow g b.1 (b.2 - b.1)), p))
    else firstField (ops.map fun o => (!c.operandOk g o, o.field))
  let lap : Bool := ops.any fun o => o.field = refOut && ops.any fun a =>
    a.field != refOut && a.field != 0x38 && a.overlaps o
      && !(a.field = refE && a.ref.off = o.ref.off && a.len = o.len)
  match j.badField, j.badRange, place, j.badFormat with
  | some o, _, _, _ => some (2, o)
  | none, some o, _, _ => some (3, o)
  | none, none, some o, _ => some (4, o)
  | none, none, none, some o => some (5, o)
  | none, none, none, none => if lap then some (6, refOut) else none

/-! ### Ranges that a job touches, for the hazards of R147 -/

/-- Channel-offset ranges of a job: write flag, channel offset or scratchpad offset, bytes. -/
def Cx.jobRanges (c : Cx) (g : Nat) (j : Job) : List (Bool × Bool × Nat × Nat) :=
  if j.kind = 2 then
    ptrFields.filterMap fun p =>
      if j.f p 8 = 0 then none
      else (c.ptrBounds g (j.ref p)).map fun b => (true, (j.ref p).scratch, b.1, b.2 - b.1)
  else (j.operands (if j.ctx then c.sliceTokens (bits j.count 9 0) else j.count)).map fun o =>
    (o.write, o.ref.scratch, o.ref.off, o.len)

end Sys2Proof.Machine
end

