-- ==== Sys2Proof/Machine/Window.lean ====
section
/-!
DEFINITION. The newt window (R280 to R283): a newt's own memory, bank-compute demand and its grants (R298), taking a job,
and every hub-side access that may meet a window.
-/
namespace Sys2Proof.Machine

/-! ### A newt's own memory (R22, R85, R301) -/

/-- Key of a channel offset or scratchpad offset of newt g. -/
def newtKey (g : Nat) (scratch : Bool) (x : Nat) : Nat :=
  if scratch then padKey g x else stackKey (g / 32) (chanOff (g % 32) x)

/-- Bytes as the newt reads them: from its channel or its scratchpad, past the stack cache. -/
def Cx.newtBytes (c : Cx) (g : Nat) (scratch : Bool) (x n : Nat) : List Byte :=
  (List.range n).map fun i => c.byte (newtKey g scratch (x + i))

/-- First poisoned byte of a range, as its channel offset; the scratchpad holds no poison (R316). -/
def Cx.newtPoison (c : Cx) (g : Nat) (scratch : Bool) (x n : Nat) : Option Nat :=
  if scratch then none
  else ((List.range n).find? fun i => c.poisonAt (newtKey g false (x + i))).map (x + ·)

/-- A newt's write at x of an output that it writes in ascending order from `start`: a codeword that the output has
overwritten whole loses its poison, and every codeword that a poisoned job writes takes it (R301). -/
def Cx.newtPut (c : Cx) (g : Nat) (scratch : Bool) (start x : Nat) (bs : List Byte) (poisoned : Bool) : Cx :=
  let c := (bs.foldl (fun p b => (p.1.poke1 (newtKey g scratch p.2) b, p.2 + 1)) (c, x)).1
  if scratch then c
  else
    let n := bs.length
    let units := (List.range ((x + n + 63) / 64 - x / 64)).map fun i => (x / 64 + i) * 64
    if n = 0 then c
    else if poisoned then units.foldl (fun c u => c.markPoison (newtKey g false u)) c
    else (units.filter fun u => start ≤ u && u + 64 ≤ x + n).foldl (fun c u => c.clearPoison (newtKey g false u)) c

/-- A newt's write of one run of bytes. -/
def Cx.newtWrite (c : Cx) (g : Nat) (scratch : Bool) (x : Nat) (bs : List Byte) (poisoned : Bool) : Cx :=
  c.newtPut g scratch x x bs poisoned

/-! ### Bank-compute demand and grants (R23, R298) -/

/-- A job that reads or writes its channel needs a grant; T is its token count, latched when it started (R291). -/
def Job.usesChannel (j : Job) (T : Nat) : Bool :=
  if j.kind = 2 then ptrFields.any fun p => j.f p 8 != 0 && !(j.ref p).scratch
  else (j.operands T).any fun o => !o.ref.scratch && o.len != 0

/-- The output stage of an ATTEND reaches its channel: OUT, or the E it combines, lies there. -/
def Job.outUsesChannel (j : Job) : Bool := !(j.ref refOut).scratch || (j.outOp != 0 && !(j.ref refE).scratch)

/-- The newt's running job wants its channel. A suspended newt wants it once its refreshes are over (R299); an ATTEND whose
triple stands wants it only for its outputs, since the chain needs no grant (R295). -/
def Cx.newtDemand (c : Cx) (g : Nat) : Bool :=
  let n := c.newt g
  match n.job with
  | none => false
  | some j =>
    (!n.suspended || n.asked)
      && (if n.partialTriple.isNone then j.usesChannel n.tokens
          else !j.chainSend && (!j.chainRecv || n.merged) && j.outUsesChannel)

/-- The update engine of a stack has a pass under way, and so demand on its channels. -/
def Cx.engineDemand (c : Cx) (s : Nat) : Bool := c.wins.any fun p => winStack p.1 = s && p.2.pass.isSome

/-- A grant belongs to a channel, for its newt and for the update engine alike (R298). -/
def Cx.channelDemand (c : Cx) (g : Nat) : Bool := c.newtDemand g || (c.engineDemand (g / 32) && !(c.newt g).retired)

/-- The channel holds a grant; a grant ends with the channel's demand (R298). -/
def Cx.hasGrant (c : Cx) (g : Nat) : Bool := (c.stk (g / 32)).grants.contains (g % 32) && c.channelDemand g

/-- The channel gives its grant back. -/
def Cx.dropGrant (c : Cx) (g : Nat) : Cx :=
  c.modStk (g / 32) fun k => { k with grants := ndel k.grants (g % 32) }

/-- The channel stops waiting for a grant. -/
def Cx.unqueue (c : Cx) (g : Nat) : Cx :=
  c.modStk (g / 32) fun k => { k with grantQueue := k.grantQueue.filter (· != g % 32) }

/-- A channel with demand and no grant joins the back of the round robin; one without demand leaves it, and its grant
ends. -/
def Cx.settleGrant (c : Cx) (g : Nat) : Cx :=
  if !c.channelDemand g then (c.dropGrant g).unqueue g
  else if c.hasGrant g || (c.stk (g / 32)).grantQueue.contains (g % 32) then c
  else c.modStk (g / 32) fun k => { k with grantQueue := k.grantQueue ++ [g % 32] }

/-- `settleGrant` over the channels of a stack, ascending: a pass demands every channel of its stack. -/
def Cx.settleGrants (c : Cx) (s : Nat) : Cx := (List.range 32).foldl (fun c i => c.settleGrant (s * 32 + i)) c

/-- Channels of a stack that may hold a grant at a time (R23, R298). -/
def Cx.grantLimit (c : Cx) (s : Nat) : Nat :=
  min 20 (min ((c.img.cfg.map fun g => g.power.compute).getD 20)
    (min c.gov.admission (min (c.stk s).stackLimit (20 - 2 * (c.stk s).capSteps))))

/-- Grants of a stack that are in force. -/
def Cx.grantsHeld (c : Cx) (s : Nat) : List Nat := (c.stk s).grants.filter fun k => c.hasGrant (s * 32 + k)

/-! ### The neighbour chain (R295) -/

/-- Next channel above, or below, that is not retired, cyclically within the stack. -/
def Cx.neighbour (c : Cx) (up : Bool) (g : Nat) : Nat :=
  let s := g / 32
  let at_ (i : Nat) : Nat := s * 32 + (if up then (g % 32 + i) % 32 else (g % 32 + 32 - i) % 32)
  (((List.range 31).map fun i => at_ (i + 1)).find? fun n => !(c.newt n).retired).getD g

/-- The link and the buffer toward a newt are free for a record. -/
def Newt.takesRecord (n : Newt) : Bool := n.arriving.isNone && n.buffer.isNone

/-- The instruction at the program's place: END after the last word (R297). -/
def Newt.instr? (n : Newt) (t : Tad) : Option TInstr :=
  match kget? n.store t.pc with
  | some w => decodeTad w
  | none => some .end_

/-- The newt's running job waits to send a record: an ATTEND with its triple, or a program at CSEND. -/
def Cx.sendWaits (c : Cx) (g : Nat) : Bool :=
  let n := c.newt g
  !(c.newt (c.neighbour true g)).takesRecord && (match n.job, n.tad with
    | some _, some t => (match n.instr? t with | some (.csend _ _) => true | _ => false)
    | some j, none => j.kind = 1 && j.chainSend && n.partialTriple.isSome && (!j.chainRecv || n.merged)
    | none, _ => false)

/-! ### Taking a job (R282) -/

def Newt.ready (n : Newt) : Bool := n.job.isNone && n.wait.isNone

def Cx.newtEv (c : Cx) (code sev g : Nat) (fields : List Nat) : Cx := c.ev code 1 sev (homeDie (g / 32)) g (g :: fields)

/-- A refusal (R282): the code is recorded and the event raised. -/
def Cx.refuseJob (c : Cx) (g code tag path : Nat) : Cx :=
  (c.modNewt g fun n => { n with error := code, errorValid := true }).newtEv 0x5001 1 g [code, tag, path]

/-- A job starts on an idle newt: the token count of its context is taken now (R291). -/
def Cx.startJob (c : Cx) (g : Nat) (j : Job) : Cx :=
  let c := c.settleGrant g
  (c.modNewt g fun n => { n with job := some j, tokens := c.tokens j }).settleGrant g

/-- A descriptor that passed goes to the job slot or the waiting slot. -/
def Cx.takeJob (c : Cx) (g : Nat) (j : Job) : Cx :=
  if (c.newt g).job.isNone then c.startJob g j else c.modNewt g fun n => { n with wait := some j }

/-- A GO (R282, R279, R294, R303): refused by code, or taken. -/
def Cx.goJob (c : Cx) (g : Nat) (desc : List Byte) (tag : W32) (path : Nat) : Cx :=
  let n := c.newt g
  let j : Job := { desc := desc, tag := tag, path := path }
  if n.retired then c.refuseJob g 8 tag.toNat path
  else if !n.mode || n.exiting then c.refuseJob g 7 tag.toNat path
  else match c.checkDesc g j with
    | some e => c.refuseJob g e.1 tag.toNat path
    | none => if n.job.isSome && n.wait.isSome then c.refuseJob g 1 tag.toNat path else c.takeJob g j

/-! ### The newt window (R280 to R283) -/

/-- Channel and window offset of a stack key that lies in a newt window. -/
def Cx.windowAt (c : Cx) (k : Nat) : Option (Nat × Nat) :=
  if keySpace k != 0 then none
  else
    let s := k / 2 ^ 37
    let off := k % 2 ^ 37
    let g := s * 32 + bits off 16 12
    let x := off / 131072 * 4096 + off % 4096
    match (c.newt g).window with
    | some w => if w ≤ x && x < w + 65536 then some (g, x - w) else none
    | none => none

/-- STATUS of Table 11.2. -/
def Cx.newtStatus (c : Cx) (g : Nat) : Nat :=
  let n := c.newt g
  b2n n.ready + 2 * b2n n.wait.isSome + 4 * b2n n.suspended + 8 * b2n n.chainWait + 16 * b2n (c.hasGrant g)
    + n.error * 2 ^ 8 + n.lastFlags.toNat * 2 ^ 16 + b2n n.lastPoison * 2 ^ 24 + n.lastTag.toNat * 2 ^ 32

/-- The staging descriptor of the window. -/
def Newt.staged (n : Newt) : List Byte := (List.range 128).map fun i => kget 0#8 n.staging i

/-- Entry of the window that an access of n bytes at an offset lies in: 0 JOB, 1 GO, 2 STATUS, 3 scratchpad; none when
R280 drops it. -/
def windowEntry (off n : Nat) : Option Nat :=
  if n = 0 || off % n != 0 || !([8, 16, 32, 64].contains n) then none
  else if off + n ≤ 0x80 then some 0
  else if off = 0x80 && n = 8 then some 1
  else if off = 0x88 && n = 8 then some 2
  else if 0x8000 ≤ off && off + n ≤ 0x10000 then some 3
  else none

/-- `NEWT_WINDOW_DROPPED`. -/
def Cx.windowDrop (c : Cx) (g off n : Nat) (write : Bool) : Cx := c.newtEv 0x5007 1 g [off, n, b2n write]

/-- A hub-side write to a newt window (Table 11.2). -/
def Cx.windowWrite (c : Cx) (g off : Nat) (bs : List Byte) : Cx :=
  match windowEntry off bs.length with
  | some 0 => (bs.foldl (fun (p : Cx × Nat) b =>
      (p.1.modNewt g fun n => { n with staging := kset 0#8 n.staging p.2 b }, p.2 + 1)) (c, off)).1
  | some 1 => c.goJob g (c.newt g).staged (BitVec.ofNat 32 (leNat bs)) 0
  | some 3 => if (c.newt g).ready then c.newtWrite g true (off - 0x8000) bs false else c
  | _ => c.windowDrop g off bs.length true

/-- A hub-side read of a newt window (Table 11.2). -/
def Cx.windowRead (c : Cx) (g off n : Nat) : Cx × List Byte :=
  match windowEntry off n with
  | some 0 => (c, ((c.newt g).staged.drop off).take n)
  | some 1 => (c, List.replicate n 0#8)
  | some 2 => (c, leBytes n (c.newtStatus g))
  | some _ => (c, if (c.newt g).ready then c.newtBytes g true (off - 0x8000) n else List.replicate n 0#8)
  | none => (c.windowDrop g off n false, List.replicate n 0#8)

/-- Lengths of the naturally aligned 8-byte units that a range is made of (R181). -/
def unitsOf : Nat → Nat → Nat → List (Nat × Nat)
  | 0, _, _ => []
  | f + 1, a, n =>
    if n = 0 then []
    else
      let z := min n (8 - a % 8)
      (a, z) :: unitsOf f (a + z) (n - z)

/-- Some byte of a device range lies in a newt window. -/
def Cx.touchesWindow (c : Cx) (a n : Nat) : Bool :=
  decide (bits a 63 60 < 2) && c.newts.any (fun p => p.2.window.isSome)
    && (List.range n).any fun i => (c.windowAt (c.keyAt a i)).isSome

/-- A hub-side write of an operand: units within a newt window act on its entries (R280), all others on memory. Log
entry 47: a command's transfers reach a window in aligned 8-byte units. -/
def Cx.hubWrite (c : Cx) (a : Nat) (bs : List Byte) : Cx :=
  if !c.touchesWindow a bs.length then c.writeAt a bs
  else (unitsOf bs.length a bs.length).foldl (fun c u =>
    let d := (bs.drop (u.1 - a)).take u.2
    match c.windowAt (c.keyAt u.1 0) with
    | some w => c.windowWrite w.1 w.2 d
    | none => c.writeAt u.1 d) c

/-- A hub-side read of an operand. -/
def Cx.hubRead (c : Cx) (a n : Nat) : Cx × List Byte :=
  if !c.touchesWindow a n then (c, c.readAt a n)
  else (unitsOf n a n).foldl (fun (p : Cx × List Byte) u =>
    match p.1.windowAt (p.1.keyAt u.1 0) with
    | some w =>
      let r := p.1.windowRead w.1 w.2 u.2
      (r.1, p.2 ++ r.2)
    | none => (p.1, p.2 ++ p.1.readAt u.1 u.2)) (c, [])

/-- First poisoned byte of a hub-side read; window bytes carry none. -/
def Cx.hubPoison (c : Cx) (a n : Nat) : Option Nat :=
  (List.range n).find? fun i => c.hubPoisonAt (c.keyAt a i) && (c.windowAt (c.keyAt a i)).isNone

/-- Pieces of a device range within one 4 KiB granule each, which one channel holds. -/
def granulesOf : Nat → Nat → Nat → List (Nat × Nat)
  | 0, _, _ => []
  | f + 1, a, n =>
    if n = 0 then []
    else
      let z := min n (4096 - a % 4096)
      (a, z) :: granulesOf f (a + z) (n - z)

/-- A hub-side write that is one access: the host's through the aperture, a completion record. An access to a window that
does not lie within one entry is dropped (R280). -/
def Cx.accessWrite (c : Cx) (a : Nat) (bs : List Byte) : Cx :=
  if !c.touchesWindow a bs.length then c.writeAt a bs
  else (granulesOf bs.length a bs.length).foldl (fun c u =>
    match c.windowAt (c.keyAt u.1 0) with
    | some w => if u.2 = bs.length then c.windowWrite w.1 w.2 bs else c.windowDrop w.1 w.2 u.2 true
    | none => c.writeAt u.1 ((bs.drop (u.1 - a)).take u.2)) c

/-- A hub-side read that is one access: the host's through the aperture, a fetch of a stream. -/
def Cx.accessRead (c : Cx) (a n : Nat) : Cx × List Byte :=
  if !c.touchesWindow a n then (c, c.readAt a n)
  else (granulesOf n a n).foldl (fun (p : Cx × List Byte) u =>
    match p.1.windowAt (p.1.keyAt u.1 0) with
    | some w =>
      if u.2 = n then
        let r := p.1.windowRead w.1 w.2 n
        (r.1, p.2 ++ r.2)
      else (p.1.windowDrop w.1 w.2 u.2 false, p.2 ++ List.replicate u.2 0#8)
    | none => (p.1, p.2 ++ p.1.readAt u.1 u.2)) (c, [])

/-- A little-endian number that one access reads. -/
def Cx.accessNum (c : Cx) (a n : Nat) : Cx × Nat :=
  let r := c.accessRead a n
  (r.1, leNat r.2)

end Sys2Proof.Machine
end

