-- ==== Sys2Proof/Machine/Streams.lean ====
section
/-!
DEFINITION. Streams (chapter 6): descriptors, doorbells, fetches, the start of a command under R147 and R160, its
completion record, pausing and re-initialising, and the one runner that every stream command's meaning is given to.
-/
namespace Sys2Proof.Machine

/-! ### Statuses and halt reasons (Tables 6.5, 6.11) -/

def success (status : Nat) : Bool := decide (status ≤ 2)

def haltDecode : Nat := 5
def haltRing : Nat := 6

/-- What became of a command that ran: done with its status, result and flags; waiting, with the idle cause it counts
for; or refused at decode, which halts the stream. -/
inductive Res where
  | done (status : Nat) (result : Nat) (flags : Flags := 0#8)
  | wait (why : IdleCause)
  | halt (reason : Nat)
  deriving DecidableEq, Repr

/-- A command's meaning: stream, command in flight, complex. -/
abbrev Body := StreamId → Flight → Cx → Cx × Res

/-! ### Fields of a command (Table 6.2) -/

def cmdBits (cmd : BitVec 512) (hi lo : Nat) : Nat := bits cmd.toNat hi lo
/-- A field of the operand word that begins at a byte. -/
def opnd (cmd : BitVec 512) (byte hi lo : Nat) : Nat := bits cmd.toNat (8 * byte + hi) (8 * byte + lo)
def opcode (cmd : BitVec 512) : Nat := cmdBits cmd 7 0
def Flight.op (f : Flight) : Nat := opcode f.cmd
def Flight.arg (f : Flight) (byte hi lo : Nat) : Nat := opnd f.cmd byte hi lo
def Flight.bit (f : Flight) (byte i : Nat) : Bool := Machine.bit f.cmd.toNat (8 * byte + i)

/-- Kinds a command is permitted in (Table 6.3); none for an opcode that is not listed. -/
def opKinds (op : Nat) : Option (List Nat) :=
  match op with
  | 0x00 | 0x01 | 0x10 | 0x11 | 0x12 | 0x13 | 0x14 | 0x31 | 0x40 | 0x41 | 0x42 | 0x43 => some [0, 1, 2, 3, 4]
  | 0x20 => some [0, 1, 2, 3]
  | 0x21 | 0x22 | 0x23 | 0x24 | 0x25 | 0x32 | 0x33 => some [0, 4]
  | 0x30 => some [0, 3, 4]
  | 0x50 | 0x51 => some [0, 1, 4]
  | 0x60 | 0x61 => some [0]
  | _ => none

/-- Class of Table 6.3: some 7 for none, none for the classes that operands give. -/
def opClass (op : Nat) : Option Nat :=
  match op with
  | 0x12 => some 3
  | 0x14 | 0x21 | 0x22 | 0x23 | 0x32 | 0x33 | 0x50 | 0x51 | 0x61 => some 0
  | 0x20 | 0x31 => some 2
  | 0x24 | 0x25 => some 4
  | 0x30 => some 1
  | 0x60 => some 5
  | 0x01 | 0x40 | 0x41 | 0x42 | 0x43 => none
  | _ => some 7

/-- Opcodes whose class Table 6.3 marks fixed. -/
def opFixed (op : Nat) : Bool :=
  [0x12, 0x14, 0x20, 0x21, 0x22, 0x23, 0x24, 0x25, 0x30, 0x31, 0x32, 0x33, 0x50, 0x51, 0x60, 0x61].contains op

/-- Operand bits of bytes 16 to 63 that an opcode does not define, as ranges of command bits; they must be zero
(R145). -/
def opZero (op : Nat) : List (Nat × Nat) :=
  let r (byte hi lo : Nat) : Nat × Nat := (8 * byte + hi, 8 * byte + lo)
  match op with
  | 0x00 => [r 16 383 0]
  | 0x01 => [r 40 63 23, r 48 127 0]
  | 0x10 => [r 16 63 13, r 32 255 0]
  | 0x11 => [r 16 31 13, r 32 255 0]
  | 0x12 => [r 16 31 13, r 16 63 49, r 32 255 0]
  | 0x13 => [r 16 63 6, r 16 3 3, r 24 63 33, r 32 255 0]
  | 0x14 => [r 32 63 1, r 40 191 0]
  | 0x20 => [r 40 63 6, r 48 127 0]
  | 0x21 => [r 16 31 24, r 16 63 52, r 24 63 21, r 32 63 33, r 40 191 0]
  | 0x22 => [r 16 31 24, r 16 63 52, r 24 63 21, r 32 63 48, r 40 191 0]
  | 0x23 => [r 16 31 24, r 16 63 52, r 24 63 21, r 32 63 50, r 48 127 0]
  | 0x24 => [r 16 31 24, r 16 63 52, r 24 31 21, r 40 63 4, r 48 127 0]
  | 0x25 => [r 16 31 24, r 16 63 52, r 24 63 21, r 40 63 52, r 48 127 0]
  | 0x30 => [r 16 31 24, r 16 63 52, r 24 31 21, r 32 63 34, r 48 63 32, r 56 63 48]
  | 0x31 => [r 24 31 13, r 40 191 0]
  | 0x32 => [r 24 63 24, r 40 63 48]
  | 0x33 => [r 24 31 24, r 32 63 50, r 48 63 32, r 56 31 19, r 56 63 49]
  | 0x50 => [r 16 31 5, r 16 63 34, r 24 63 32, r 32 63 32, r 40 191 0]
  | 0x51 => [r 24 31 13, r 24 63 33, r 32 255 0]
  | 0x40 => [r 24 63 27, r 40 63 32, r 48 127 0]
  | 0x41 => [r 24 31 9, r 32 255 0]
  | 0x42 => [r 24 63 9, r 32 255 0]
  | 0x43 => [r 24 63 10, r 32 255 0]
  | 0x60 => [r 16 63 14, r 32 63 27, r 48 63 48, r 56 63 0]
  | 0x61 => [r 16 63 14, r 24 319 0]
  | _ => []

/-- R146: does the header or a reserved bit of the command break its rules for this stream? -/
def cmdMalformed (kind : Nat) (cmd : BitVec 512) : Bool :=
  let op := opcode cmd
  let cls := cmdBits cmd 18 16
  cmdBits cmd 15 11 != 0 || cmdBits cmd 23 19 != 0 || cmdBits cmd 31 24 != 0 || cmdBits cmd 63 48 != 0
    || cmdBits cmd 127 96 != 0 || cls = 6 || (cls != 7 && opFixed op)
    || !((opKinds op).any fun k => k.contains kind)
    || (opZero op).any fun z => cmdBits cmd z.1 z.2 != 0

/-- The class a command runs in (R158, Table 6.8). -/
def cmdClass (cmd : BitVec 512) : Nat :=
  let op := opcode cmd
  let tag (byte : Nat) : Nat := opnd cmd byte 63 60
  if cmdBits cmd 18 16 != 7 then cmdBits cmd 18 16
  else match opClass op with
    | some k => k
    | none =>
      let remote := (op = 0x01 && opnd cmd 40 22 21 != 0) || (op = 0x40 && opnd cmd 24 26 26 = 1)
      let addrs := if op = 0x01 then [tag 16, tag 24] else [tag 16]
      if remote then 3 else if addrs.contains 4 then 4 else if addrs.contains 2 then 5 else 2

/-! ### Descriptors (Table 6.1) -/

/-- The descriptor that 64 bytes spell, none when a field lies outside Table 6.1 or valid is clear (R141). -/
def readDesc (v : Nat) : Option Desc :=
  let f (o n : Nat) : Nat := v / 256 ^ o % 256 ^ n
  let ctl := f 0x1C 1
  let poll := bit ctl 1
  let tagOk (a : Nat) : Bool := bits a 63 60 = 0 || bits a 63 60 = 4
  let ok := bit ctl 0 && bits ctl 7 6 = 0 && bits ctl 5 3 ≤ 4
    && tagOk (f 0 8) && f 0 8 % 4096 = 0 && tagOk (f 8 8) && f 8 8 % 4096 = 0
    && (if poll then tagOk (f 0x10 8) && f 0x10 8 % 8 = 0 else f 0x10 8 = 0)
    && 6 ≤ f 0x1A 1 && f 0x1A 1 ≤ 16 && f 0x1A 1 ≤ f 0x1B 1 && f 0x1B 1 ≤ 16
    && (f 0x1D 1 = 0 || (2 ≤ f 0x1D 1 && f 0x1D 1 ≤ 63)) && f 0x1E 2 < 2 ^ 14
    && (!poll || 100 ≤ f 0x20 2) && f 0x22 30 = 0
  if ok then some
    { ringBase := BitVec.ofNat 64 (f 0 8), completionBase := BitVec.ofNat 64 (f 8 8),
      flagAddr := BitVec.ofNat 64 (f 0x10 8), generation := BitVec.ofNat 16 (f 0x18 2), ringLog2 := f 0x1A 1,
      complLog2 := f 0x1B 1, poll := poll, hubDie := Side.ofNum (bits ctl 2 2), kind := bits ctl 5 3,
      msix := f 0x1D 1, tenant := f 0x1E 2, pollNs := f 0x20 2 }
  else none

/-- Device address of a stream's descriptor (R139). -/
def Cx.descAddr (c : Cx) (n : Nat) : Nat :=
  match c.img.cfg with
  | some g => g.streams.tableBase.toNat + 64 * n
  | none => 0

/-- A read by die d's stream processor of a ring, descriptor or flag succeeds (Table 6.11, `RING_ACCESS`). -/
def Cx.fetchable (c : Cx) (d : Side) (a n : Nat) : Bool :=
  (c.checkRange .read a n).isNone && !c.hostDown a && (c.unreachable? d a).isNone && (c.poisonIn a n).isNone

/-! ### Halting -/

/-- Halt a stream (R141, R143, R146): nothing more is fetched or issued. -/
def Cx.haltStream (c : Cx) (st : StreamId) (reason : Nat) (num : W32) (seen : W16) : Cx :=
  let x := c.strm st.toNat
  let c := c.modStrm st.toNat fun x => { x with st := .halted, halt := reason, cache := [], waiting := [],
                                                fetching := false }
  let d := x.serving.getD .A
  c.ev 0x3001 6 2 d d.num [st.toNat, reason, num.toNat, x.gen.toNat, seen.toNat]

/-- The oldest command not yet started, once fetched, is decoded; a broken one halts the stream (R146). -/
def Cx.haltIfBad (c : Cx) (st : StreamId) : Cx :=
  let x := c.strm st.toNat
  match x.desc, x.cache.find? (fun e => e.1 = x.next) with
  | some d, some e =>
    let gen := BitVec.ofNat 16 (cmdBits e.2 47 32)
    if x.st != .active then c
    else if gen ≠ x.gen then c.haltStream st 3 e.1 gen
    else if cmdBits e.2 95 64 ≠ e.1.toNat then c.haltStream st 4 e.1 gen
    else if cmdMalformed d.kind e.2 then c.haltStream st haltDecode e.1 gen
    else c
  | _, _ => c

/-! ### Doorbells (R91, R92, R140 to R143) -/

def bellLast (v : W64) : W32 := v.setWidth 32
def bellGen (v : W64) : W16 := (v >>> 32).setWidth 16

/-- `DOORBELL_IGNORED` (Table 6.12). -/
def Cx.bellIgnored (c : Cx) (st : StreamId) (v : W64) (cause : Nat) : Cx :=
  let x := c.strm st.toNat
  let d := x.serving.getD .A
  c.ev 0x3002 6 1 d d.num
    [st.toNat, (bellLast v).toNat, (bellGen v).toNat, (x.last.getD (x.next - 1#32)).toNat, x.gen.toNat, cause]

/-- Newest command number that the stream has been given. -/
def Stream.inForce (x : Stream) : W32 := x.last.getD (x.next - 1#32)

/-- Serve a doorbell or a changed flag of a stream whose cached descriptor has its generation (R142, R143): an older value
has no effect. The serving is an acquire: the fetch cache is dropped (R173). -/
def Cx.serveBell (c : Cx) (st : StreamId) (v : W64) (d : Desc) : Cx :=
  let x := c.strm st.toNat
  let fresh := bellGen v != x.gen
  let taken := c.modStrm st.toNat fun x => { x with gen := bellGen v, cache := [], pauseBit := x.pauseBit && !fresh }
  let go (last : W32) : Cx := taken.modStrm st.toNat fun x =>
    { x with last := some last, st := if x.pauseBit then .paused else .active }
  match seqCmp (bellLast v) x.inForce with
  | .older => c.bellIgnored st v 0
  | .equal => if fresh then go x.inForce else taken
  | .newer =>
    if (bellLast v - x.done).toNat > 2 ^ d.ringLog2 then taken.haltStream st 8 (bellLast v) (bellGen v)
    else go (bellLast v)

/-- A doorbell or flag change reaches the stream processor that serves the stream. One whose generation the cached
descriptor lacks waits for a fetch, unless it is older than the value in force. -/
def Cx.takeBell (c : Cx) (st : StreamId) (flag : Bool) (v : W64) : Cx :=
  let x := c.strm st.toNat
  let wait (c : Cx) : Cx := c.modStrm st.toNat fun x =>
    { x with waiting := x.waiting ++ [(flag, v)], fetching := true, desc := none, cache := [] }
  match x.st, x.desc with
  | .halted, _ => c
  | .reinit, _ => c.modStrm st.toNat fun x => { x with waiting := x.waiting ++ [(flag, v)] }
  | _, none => wait c
  | _, some d =>
    if x.fetching then c.modStrm st.toNat fun x => { x with waiting := x.waiting ++ [(flag, v)] }
    else if d.poll && !flag then c.bellIgnored st v 1
    else if seqCmp (bellLast v) x.inForce == .older then c.bellIgnored st v 0
    else if d.generation ≠ bellGen v then wait c
    else c.serveBell st v d

/-- Hub die that serves the streams whose descriptors name a die: its twin while its core is fenced (R375). -/
def Cx.servedBy (c : Cx) (d : Side) : Side := if (c.die d).fenced && c.coreUp d.twin then d.twin else d

/-- Doorbells of a stream that wait at a port go on, in order, to the die that serves it, when no routing fetch holds them
and, for the other die, the bridge carries them (R92, R140). -/
def Cx.forwardBells (c : Cx) (p : Side) (st : StreamId) : Cx :=
  let x := c.strm st.toNat
  match x.serving with
  | none => c
  | some d =>
    if x.routing == some p || (d != p && !(c.bridge && c.coreUp d)) then c
    else
      let vs := (c.port p).doorbells.filter fun b => b.1 = st
      let c := c.modPort p fun q => { q with doorbells := q.doorbells.filter fun b => b.1 != st }
      vs.foldl (fun c b => c.takeBell st false b.2) c

/-- Every doorbell that waits at a port and can go on does so. -/
def Cx.forwardAll (c : Cx) (p : Side) : Cx := ((c.port p).doorbells.map (·.1)).foldl (fun c st => c.forwardBells p st) c

/-- A doorbell at a port of the complex (R140): the die takes it when it serves the stream, forwards it when it knows, under
the doorbell's generation, that the other die does, and else fetches the descriptor first. -/
def Cx.ringBell (c : Cx) (p : Side) (st : StreamId) (v : W64) : Cx :=
  let x := c.strm st.toNat
  if x.st == .halted then c
  else if x.serving == some p && x.routing.isNone then c.takeBell st false v
  else
    let c := c.modPort p fun q => { q with doorbells := q.doorbells ++ [(st, v)] }
    if x.serving.isSome && x.routing.isNone && x.routed == some (bellGen v) then c.forwardBells p st
    else if x.routing.isSome then c else c.modStrm st.toNat fun x => { x with routing := some p }

/-- DOORBELL (R91, R143): a BAR2 access. -/
def execDoorbell (p : Side) (off : BitVec 15) (size : Nat) (write : Bool) (v : W64) (s : State) : R :=
  let c := s.cx
  let n := off.toNat / 8
  let count := (c.img.cfg.map fun g => g.streams.count).getD 0
  if !c.serves p then s.go c
  else if size != 8 || !write || off.toNat % 8 != 0 || !c.enabled || n ≥ count then
    let c := c.hostDrop p 2 off.toNat size write
    s.go (if write then c else c.emit (.read p (List.replicate size 0#8)))
  else
    s.go (c.ringBell p (BitVec.ofNat 12 n) v)

/-- POLL_FLAG_READ (R142): one read of a poll-mode stream's ready flag, an acquire. -/
def execPollFlagRead (st : StreamId) (s : State) : R :=
  let c := s.cx
  let x := c.strm st.toNat
  let a := c.descAddr st.toNat
  let count := (c.img.cfg.map fun g => g.streams.count).getD 0
  match x.desc.orElse fun _ => readDesc (c.accessNum a 64).2 with
  | none => s.go c
  | some d =>
    let e := x.serving.getD (c.servedBy d.hubDie)
    if !c.enabled || !c.img.enableBit || st.toNat ≥ count || !d.poll || !c.serves e || x.st == .halted || x.st == .reinit
        || (x.desc.isNone && !c.fetchable e a 64) then s.go c
    else
      let c := if x.serving.isNone then c.modStrm st.toNat fun x => { x with serving := some e } else c
      if !c.fetchable e d.flagAddr.toNat 8 then s.go (c.haltStream st haltRing x.next x.gen)
      else
        let r := c.accessNum d.flagAddr.toNat 8
        let v : W64 := BitVec.ofNat 64 r.2
        let c := r.1.modStrm st.toNat fun x => { x with flag := some v, cache := [] }
        if x.flag = some v then s.go c else s.go (c.takeBell st true v)

/-- Die e serves the stream from now on and has read its descriptor (R140, R141): the waiting doorbells are served in
order. -/
def Cx.installDesc (c : Cx) (st : StreamId) (e : Side) (seen : W16) (v : Nat) : Cx :=
  let x := c.strm st.toNat
  let c := c.modStrm st.toNat fun x => { x with serving := some e, fetching := false }
  match readDesc v with
  | none => c.haltStream st 1 x.next seen
  | some d =>
    let c := c.modStrm st.toNat fun x => { x with desc := some d, waiting := [] }
    if d.generation ≠ seen then c.haltStream st 2 x.next d.generation
    else x.waiting.foldl (fun c v => c.takeBell st v.1 v.2) c

/-- Die whose core serves the stream that a descriptor's bytes describe: with valid clear, the die that fetched it. -/
def Cx.descServer (c : Cx) (e : Side) (v : Nat) : Side :=
  if bit v (8 * 0x1C) then c.servedBy (Side.ofNum (bits v (8 * 0x1C + 2) (8 * 0x1C + 2))) else e

/-- The stream passes to the other die: what waits for this die's fetch waits there for its own (R140). -/
def Cx.passStream (c : Cx) (st : StreamId) (e : Side) : Cx :=
  c.modStrm st.toNat fun x => { x with serving := some e, desc := none, cache := [], fetching := !x.waiting.isEmpty }

/-- The descriptor read that tells a die where to forward arrives (R140): the die serves the stream itself, or forwards the
doorbells that wait at its port. -/
def Cx.routeFetched (c : Cx) (st : StreamId) (p : Side) (ok : Bool) : Cx :=
  let a := c.descAddr st.toNat
  let x := c.strm st.toNat
  let c := c.modStrm st.toNat fun x => { x with routing := none }
  match (c.port p).doorbells.find? fun b => b.1 = st with
  | none => c
  | some b =>
    let c :=
      if !ok || !c.fetchable p a 64 then
        (c.modStrm st.toNat fun x => { x with serving := some p }).haltStream st haltRing x.next (bellGen b.2)
      else
        let r := c.accessNum a 64
        let c := r.1
        let v := r.2
        let e := c.descServer p v
        if e = p then c.installDesc st p (bellGen b.2) v
        else c.modStrm st.toNat fun x => { x with serving := some e, routed := some (BitVec.ofNat 16 (bits v 207 192)) }
    let c := c.forwardBells p st
    if (c.port p.twin).doorbells.any fun b => b.1 = st then c.modStrm st.toNat fun x => { x with routing := some p.twin }
    else c

/-- DESCRIPTOR_FETCH (R140, R141): a descriptor read arrives, first the one that tells a die where to forward. -/
def execDescriptorFetch (st : StreamId) (ok : Bool) (s : State) : R :=
  let c := s.cx
  let x := c.strm st.toNat
  if !c.img.enableBit then s.go c
  else match x.routing with
    | some p => s.go (c.routeFetched st p ok)
    | none =>
      if !x.fetching then s.go c
      else
        let e := x.serving.getD .A
        let a := c.descAddr st.toNat
        let seen := (x.waiting.head?.map fun w => bellGen w.2).getD x.gen
        if !ok || !c.fetchable e a 64 then s.go (c.haltStream st haltRing x.next seen)
        else
          let r := c.accessNum a 64
          let c := r.1
          let v := r.2
          let n := c.descServer e v
          if n = e then s.go (c.installDesc st e seen v) else s.go (c.passStream st n)

/-! ### Command fetches (R144 to R148) -/

/-- Commands in flight over all streams of one die (R148). -/
def Cx.inFlight (c : Cx) (d : Side) : Nat :=
  ((c.streams.filter fun p => p.2.serving = some d).map fun p => p.2.flights.length).sum

/-- Number of the next command to fetch: valid, at most 16 ahead of the oldest not started (R144). -/
def Stream.toFetch (x : Stream) : Option W32 :=
  match x.last with
  | none => none
  | some l => ((List.range 16).map fun i => x.next + BitVec.ofNat 32 i).find? fun n =>
      newerEq l n && !(x.cache.any fun e => e.1 = n)

/-- COMMAND_FETCH (R144, R146): the 64 bytes of the next command arrive. -/
def execCommandFetch (st : StreamId) (ok : Bool) (s : State) : R :=
  let c := s.cx
  let x := c.strm st.toNat
  match x.desc, x.toFetch, x.serving with
  | some d, some n, some die =>
    if x.st != .active || !c.enabled || !c.img.enableBit || !c.serves die || c.inFlight die ≥ 4096 then s.go c
    else
      let a := d.ringBase.toNat + 64 * (n.toNat % 2 ^ d.ringLog2)
      if !ok || !c.fetchable die a 64 then s.go (c.haltStream st haltRing n x.gen)
      else
        let r := c.accessNum a 64
        let cmd : BitVec 512 := BitVec.ofNat 512 r.2
        s.go ((r.1.modStrm st.toNat fun x => { x with cache := x.cache ++ [(n, cmd)] }).haltIfBad st)
  | _, _, _ => s.go c

/-! ### Operand ranges of a command (R147) -/

/-- A range of keys: writes or reads. -/
structure Rng where
  write : Bool
  lo : Nat
  len : Nat
  deriving DecidableEq, Repr

def Rng.clash (a b : Rng) : Bool := (a.write || b.write) && decide (a.lo < b.lo + b.len ∧ b.lo < a.lo + a.len)

/-- Key ranges of an operand: one, or one per granule for the channel view (R67). -/
def Cx.rangesOf (c : Cx) (write : Bool) (a n : Nat) : List Rng :=
  if n = 0 then []
  else if bits a 63 60 = 1 then
    (List.range ((a % 4096 + n + 4095) / 4096)).map fun i =>
      let at_ := if i = 0 then a else a / 4096 * 4096 + i * 4096
      ⟨write, c.keyAt at_ 0, min (4096 - at_ % 4096) (a + n - at_)⟩
  else [⟨write, c.keyAt a 0, n⟩]

/-- Key ranges of the G arrays, or state slots, of a run of windows of a tensor. -/
def Cx.windowRanges (c : Cx) (write gArr : Bool) (tensor k n : Nat) : List Rng :=
  match c.tensor? tensor with
  | none => []
  | some t => (c.windowIds t k n).filterMap fun w => (kget? c.wins w).map fun v =>
      if gArr then ⟨write, stackKey (winStack w) (c.gOff v.gSlot), 0x200000⟩
      else ⟨write, stackKey (winStack w) (c.slotOff v.stateSlot), 33 * rowBytes⟩

/-- Key ranges of the block headers in the state slots of a run of windows (R71). -/
def Cx.headerRanges (c : Cx) (write : Bool) (tensor k n : Nat) : List Rng :=
  match c.tensor? tensor with
  | none => []
  | some t => (c.windowIds t k n).filterMap fun w => (kget? c.wins w).map fun v => ⟨write, c.stateKey w v offH, rowBytes⟩

/-- Space of the keys that stand for the micro-batch queues among operand ranges. -/
def queueKey (q : Nat) : Nat := 5 * 2 ^ 60 + q

/-- A queue counts as one range that each push and pop writes: the effects of a stream match running its commands one at a
time (R147; DEDUCED, log entry 86). -/
def queueRange (q : Nat) : Rng := ⟨true, queueKey q, 1⟩

/-- Bytes an element of a COPY source and destination takes, by convert code (Table 6.7). -/
def copySize (conv : Nat) : Nat × Nat :=
  match conv with
  | 1 | 2 => (2, 1)
  | 5 | 6 => (4, 1)
  | _ => (1, 1)

/-- Bytes of the export images of windows k … k+n-1 of a tensor (R263). -/
def Tensor.imageBytes (t : Tensor) (k n : Nat) : Nat :=
  ((List.range n).map fun i => 64 + (2 * t.valid (k + i) + 63) / 64 * 64).sum

def Cx.imageBytes (c : Cx) (h k n : Nat) : Nat :=
  match c.tensor? h with
  | some t => t.imageBytes k (min n (t.windows - k))
  | none => 0

/-- Descriptors of a NEWT_JOB list. -/
def Cx.jobList (c : Cx) (a n : Nat) : List Job :=
  (List.range n).map fun i => { desc := c.readAt (a + 128 * i) 128 }

/-- Ranges of the operands of a NEWT_JOB's jobs. -/
def Cx.jobListRanges (c : Cx) (a n : Nat) : List Rng :=
  (c.jobList a n).flatMap fun j => (c.jobRanges j.channel j).flatMap fun r =>
    if r.2.1 then [⟨r.1, padKey j.channel r.2.2.1, r.2.2.2⟩]
    else c.rangesOf r.1 (2 ^ 60 + j.channel * 2 ^ 32 + r.2.2.1) r.2.2.2

/-- A shard-list entry. -/
structure AgEntry where
  node : Nat
  tensor : Nat
  k : Nat
  count : Nat
  version : Nat
  latest : Bool
  off : Nat
  reserved : Bool
  deriving DecidableEq, Repr

def agEntry (l : List Byte) : AgEntry :=
  let f (o n : Nat) : Nat := leNat ((l.drop o).take n)
  { node := bits (f 0 4) 16 0, tensor := bits (f 4 4) 23 0, k := f 8 4, count := f 12 4, version := f 16 4
    latest := bit (f 20 1) 0, off := f 24 8
    reserved := bits (f 0 4) 31 17 != 0 || bits (f 4 4) 31 24 != 0 || bits (f 20 1) 7 1 != 0 || f 21 3 != 0 }

def agEntries (l : List Byte) (n : Nat) : List AgEntry := (List.range n).map fun i => agEntry (l.drop (32 * i))

/-- Bytes between the images of an entry's windows. -/
def agStride : Nat := 2097216

def AgEntry.len (e : AgEntry) : Nat := e.count * agStride

/-- Largest entry of a micro-batch queue (Table 5.11). -/
def Cx.entryBytes (c : Cx) : Nat := (c.img.cfg.map fun g => g.streams.entryBytes).getD 0

/-- Operand byte ranges of a command. -/
def Cx.cmdRanges (c : Cx) (cmd : BitVec 512) : List Rng :=
  let q (b : Nat) : Nat := opnd cmd b 63 0
  let ten := opnd cmd 16 23 0
  let k := opnd cmd 16 51 32
  let n := opnd cmd 24 20 0
  match opcode cmd with
  | 0x01 =>
    let z := copySize (opnd cmd 40 2 0)
    (if opnd cmd 40 21 21 = 1 then [] else c.rangesOf false (q 16) (q 32))
      ++ (if opnd cmd 40 22 22 = 1 then [] else c.rangesOf true (q 24) (q 32 / z.1 * z.2))
  | 0x14 => c.rangesOf true (q 16) (q 24)
  | 0x20 =>
    let arr := opnd cmd 40 4 2
    let cnt := opnd cmd 24 31 0
    c.rangesOf true (q 32) (if arr = 1 || arr = 2 then cnt else if arr = 3 then cnt / 8 else 2 * cnt)
      ++ c.windowRanges false (arr = 4) ten (opnd cmd 16 63 24 / 1048576)
          ((opnd cmd 16 63 24 + cnt + 1048575) / 1048576 - opnd cmd 16 63 24 / 1048576)
  | 0x21 => c.windowRanges true true ten k n ++ c.headerRanges true ten k n
  | 0x22 => c.windowRanges false true ten k n ++ c.headerRanges false ten k n
  | 0x23 => c.windowRanges false true ten k n
      ++ (if q 40 = 0 then [] else c.rangesOf false (q 40) 256)
  | 0x24 => c.rangesOf true (q 32) (c.imageBytes ten k n) ++ c.windowRanges false false ten k n
  | 0x25 => c.rangesOf false (q 32) (c.imageBytes ten k n) ++ c.windowRanges true false ten k n
  | 0x30 => c.windowRanges true true ten k n ++ c.headerRanges true ten k n
      ++ c.rangesOf false (q 40) (4 * opnd cmd 48 15 0)
  | 0x31 => c.rangesOf false (q 16) (32 * opnd cmd 24 12 0)
      ++ (agEntries (c.readAt (q 16) (32 * opnd cmd 24 12 0)) (opnd cmd 24 12 0)).flatMap fun e =>
        c.rangesOf true (q 32 + e.off) e.len
  | 0x32 => c.rangesOf false (q 16) (4 * opnd cmd 24 23 0) ++ c.rangesOf false (q 48) (4 * opnd cmd 56 15 0)
  | 0x33 => c.rangesOf false (q 16) (4 * opnd cmd 24 23 0) ++ c.rangesOf false (q 40) (4 * opnd cmd 48 15 0)
  | 0x40 => c.rangesOf false (q 16) (q 32) ++ (if opnd cmd 24 26 26 = 1 then [] else [queueRange (opnd cmd 24 8 0)])
  | 0x41 => queueRange (opnd cmd 24 8 0) :: c.rangesOf true (q 16) c.entryBytes
  | 0x42 => queueRange (opnd cmd 24 8 0) :: c.rangesOf true (q 16) (64 + c.entryBytes)
  | 0x43 => queueRange (opnd cmd 24 8 0) :: c.rangesOf false (q 16) (64 + c.entryBytes)
  | 0x51 => c.rangesOf false (q 16) (128 * opnd cmd 24 12 0) ++ c.jobListRanges (q 16) (opnd cmd 24 12 0)
  | 0x60 => c.rangesOf false (q 24) (4 * opnd cmd 32 23 0)
  | _ => []

/-! ### Starting and running commands (R147, R160) -/

def Cx.modFlight (c : Cx) (st : StreamId) (num : W32) (f : Flight → Flight) : Cx :=
  c.modStrm st.toNat fun x => { x with flights := x.flights.map fun g => if g.number = num then f g else g }

def Cx.flight? (c : Cx) (st : StreamId) (num : W32) : Option Flight :=
  (c.strm st.toNat).flights.find? fun f => f.number = num

/-- A started command ends with a status (Table 6.5). -/
def Cx.finish (c : Cx) (st : StreamId) (num : W32) (status result : Nat) (fl : Flags) : Cx :=
  c.modFlight st num fun f => { f with status := some status, result := BitVec.ofNat 64 result,
                                       flags := f.flags ||| fl, why := none }

/-- A waiting command whose end the block itself brings about: an UPDATE with a window whose step is being written or
committed, a drain under way, an import or a scrub whose commits are on their way, a signal whose record is, or jobs
that newts hold. Every other wait has no bound (R129). -/
def Cx.bounded (c : Cx) (st : StreamId) (f : Flight) : Bool :=
  let mine : Option (StreamId × W32) := some (st, f.number)
  match f.op with
  | 0x23 => f.wins.any fun x => x.2 == .todo && ((kget? c.wins x.1).any fun v =>
      match v.st with
      | .writeRun _ _ | .committing _ => true
      | .specRun _ | .specReady _ => v.verdict.isSome
      | _ => false)
  | 0x21 => c.wins.any fun p => (p.2.cuts.any fun k => some k.own = mine) && !p.2.hold && !p.2.specValid && p.2.st == .quiet && !p.2.fenced
      && (p.2.resident || p.2.promoting)
  | 0x25 | 0x60 | 0x61 => f.phase = 2
  | 0x10 => f.owed != 0
  | 0x51 => c.newts.any fun p => !p.2.chainWait && !c.sendWaits p.1 && ((p.2.job.toList ++ p.2.wait.toList).any fun j =>
      (j.origin.map fun o => (o.1, o.2.1)) = mine)
  | _ => false

/-- An enabled image is being disabled (R129). -/
def Cx.disabling (c : Cx) : Bool := c.enabled && !c.img.enableBit

/-- Record what a meaning answered. While the image is being disabled, a wait without a bound ends `RETRY_LATER`. -/
def Cx.settle (p : Cx × Res) (st : StreamId) (num : W32) : Cx :=
  match p.2 with
  | .done status result fl => p.1.finish st num status result fl
  | .wait why =>
    if p.1.disabling && ((p.1.flight? st num).all fun f => !p.1.bounded st f) then
      ({ p.1 with free := p.1.free + 1 }).finish st num stRetry (Config.remainingWait p.1.free).toNat 0#8
    else p.1.modFlight st num fun f => { f with why := some why }
  | .halt reason =>
    (p.1.modStrm st.toNat fun x => { x with
      flights := x.flights.filter fun f => f.number != num
      next := if x.next = num + 1#32 then num else x.next }).haltStream st reason num (p.1.strm st.toNat).gen

/-- Tenant of a stream. -/
def Cx.tenantOf (c : Cx) (st : StreamId) : Nat := (((c.strm st.toNat).desc).map (·.tenant)).getD 0

/-- Quota record of a tenant (R122). -/
def Cx.tenantRec (c : Cx) (t : Nat) : TenantRec :=
  match c.img.cfg with
  | none => ⟨t, 0, 0⟩
  | some g => (g.tenants.find? fun r => r.tenant = t).getD g.tenant0

/-- Commands of a tenant that have started and not completed (R160); a refused one has not started. -/
def Cx.tenantInFlight (c : Cx) (t : Nat) : Nat :=
  (c.streams.map fun p => (p.2.flights.filter fun f => (f.desc.map (·.tenant)) = some t && !f.refused).length).sum

/-- The tenant's command quota is exhausted (R160). -/
def Cx.overQuota (c : Cx) (t : Nat) : Bool :=
  (c.tenantRec t).maxCommands != 0 && decide ((c.tenantRec t).maxCommands ≤ c.tenantInFlight t)

/-- `QUOTA_EXHAUSTED`, once until a command of the tenant has started (R160). -/
def Cx.sayQuota (c : Cx) (st : StreamId) (num : W32) (which : Nat) : Cx :=
  let t := c.tenantOf st
  if c.quotaSaid.contains t then c
  else
    let d := ((c.strm st.toNat).serving).getD .A
    ({ c with quotaSaid := nput c.quotaSaid t }).ev 0x3004 6 1 d d.num [t, which, st.toNat, num.toNat] none (some t)

/-- Commands after which none starts until they complete: WAIT, and the releases and acquires (R155, R172, R173). -/
def Flight.blocks (f : Flight) : Bool :=
  match f.op with
  | 0x11 => true
  | 0x10 | 0x12 | 0x13 => f.status.isNone || f.owed != 0
  | _ => false

/-- The command that the stream may start now, if any (R147). -/
def Cx.startable (c : Cx) (st : StreamId) : Option (W32 × BitVec 512) :=
  let x := c.strm st.toNat
  match x.cache.find? (fun e => e.1 = x.next), x.serving with
  | some e, some d =>
    let rs := c.cmdRanges e.2
    if x.st == .active && c.enabled && c.img.enableBit && c.serves d && x.flights.length < 16 && c.inFlight d < 4096
        && !(x.flights.any Flight.blocks) && !(bit e.2.toNat 8 && !x.flights.isEmpty)
        && !(x.flights.any fun f => (c.cmdRanges f.cmd).any fun a => rs.any fun b => a.clash b)
    then some e else none
  | _, _ => none

/-- A command as it stands in flight at its start. -/
def newFlight (c : Cx) (st : StreamId) (num : W32) (cmd : BitVec 512) : Flight :=
  { number := num, cmd := cmd, cls := cmdClass cmd, desc := (c.strm st.toNat).desc }

/-- A command leaves the fetch cache and takes its place in flight. -/
def Cx.takePlace (c : Cx) (st : StreamId) (f : Flight) : Cx :=
  c.modStrm st.toNat fun x => { x with
    next := f.number + 1#32, cache := x.cache.filter (fun e => e.1 != f.number), flights := x.flights ++ [f] }

/-- Start a command: the tenant's quota may be exhausted again from now on (R160). -/
def Cx.start (c : Cx) (st : StreamId) (num : W32) (cmd : BitVec 512) : Cx :=
  { c.takePlace st (newFlight c st num cmd) with quotaSaid := ndel c.quotaSaid (c.tenantOf st) }

/-- Refuse a command at its start: the tenant's command quota is exhausted (R160). -/
def Cx.refuseStart (c : Cx) (st : StreamId) (num : W32) (cmd : BitVec 512) : Cx :=
  (c.takePlace st { newFlight c st num cmd with status := some stQuota, refused := true }).sayQuota st num 0

/-- Run a meaning on a command in flight that has no status yet. -/
def Cx.runFlight (c : Cx) (body : Body) (st : StreamId) (num : W32) : Cx :=
  match c.flight? st num with
  | some f => if f.status.isNone then Cx.settle (body st f c) st num else c
  | none => c

/-- A command that may start does: a broken operand rule halts the stream before the start (R146), an exhausted quota refuses
the command, and else its meaning runs. -/
def Cx.launch (c : Cx) (body : Body) (st : StreamId) (num : W32) (cmd : BitVec 512) : Cx :=
  match body st (newFlight c st num cmd) (c.start st num cmd) with
  | (d, .halt reason) => Cx.settle ({ d with quotaSaid := c.quotaSaid }, .halt reason) st num
  | r => if c.overQuota (c.tenantOf st) then c.refuseStart st num cmd else Cx.settle r st num

/-- Waiting commands of an opcode are tried again, oldest first. -/
def Cx.retryStream (c : Cx) (op : Nat) (body : Body) (st : StreamId) : Cx :=
  ((c.strm st.toNat).flights.filter fun f => f.op = op).foldl (fun c f => c.runFlight body st f.number) c

/-- One step of a stream command (log entry 17): when the stream may start a command of this opcode it starts and
runs; otherwise its waiting commands of this opcode are tried again, oldest first. -/
def Cx.runStream (c : Cx) (op : Nat) (body : Body) (st : StreamId) : Cx :=
  match c.startable st with
  | some e => if opcode e.2 = op then (c.launch body st e.1 e.2).haltIfBad st else c.retryStream op body st
  | none => c.retryStream op body st

/-- Result of a completed command whose definition names none (log entry 15). -/
def Cx.openResult (c : Cx) (op : Nat) : Nat := (Config.openResult op c.free).toNat

/-- Done with `OK` and a result the spec does not name. -/
def okOpen (c : Cx) (op : Nat) : Cx × Res := ({ c with free := c.free + 1 }, .done stOk (c.openResult op))

/-- `RETRY_LATER`; its result may report the remaining wait (Table 6.5). -/
def retryLater (c : Cx) (fl : Flags := 0#8) : Cx × Res :=
  ({ c with free := c.free + 1 }, .done stRetry (Config.remainingWait c.free).toNat fl)

/-- A command fails the check of R64: `POISONED`, the byte offset, and one `ADDR_INVALID`. -/
def badOperand (c : Cx) (st : StreamId) (f : Flight) (pos addr off : Nat) : Cx × Res :=
  (c.addrInvalid (((c.strm st.toNat).serving).getD .A) 0 st f.number pos addr, .done stPoison off)

/-- `REFUSED_FENCED` whose result names the fenced unit (Table 6.5). -/
def refuseFenced (c : Cx) (unit : Nat) (fl : Flags := 0#8) : Cx × Res := (c, .done stFenced unit fl)

/-- A status that keeps a command of die d from an operand: its PCIe port is down (R65), or the place it names cannot be
reached now (Table 6.5). -/
def Cx.away? (c : Cx) (d : Side) (a : Nat) : Option (Nat × Nat) :=
  if c.hostDown a then some (stFenced, bits a 57 57) else c.unreachable? d a

/-- The end of a command that a status keeps from its target. -/
def refuseBy (c : Cx) (p : Nat × Nat) : Cx × Res := if p.1 = stRetry then retryLater c else refuseFenced c p.2

/-- The checks of an address operand (R64, R65, Table 6.5): none when it passes. -/
def Cx.badOperand? (c : Cx) (st : StreamId) (f : Flight) (k : Acc) (pos addr n : Nat) : Option (Cx × Res) :=
  match c.checkRange k addr n with
  | some off => some (badOperand c st f pos addr off)
  | none => (c.away? (((c.strm st.toNat).serving).getD .A) addr).map (refuseBy c)

/-- A command on hub die d needs the ledger, the accumulation cut or the collective engine of the other die, which it
cannot reach while R17 applies. -/
def Cx.needsTwin (c : Cx) (d : Side) (s : Nat) : Bool := c.r17 && c.owner s != d

/-- A command of this stream may not name the tensor: it is bound to another tenant (R325). -/
def Cx.boundAway (c : Cx) (st : StreamId) (tensor : Nat) : Bool :=
  match kget? c.binding tensor with
  | some t => c.tenantOf st != t && c.tenantOf st != 0
  | none => false

/-- A command of this stream cannot reach the journal master (R17). -/
def Cx.noMaster (c : Cx) (st : StreamId) : Bool := c.r17 && ((c.strm st.toNat).serving).getD .A != c.master

/-- A command that commits or fences windows needs the journal and their ledgers, and a lost bridge keeps it from one of them
(R17, R366). -/
def Cx.cutOff (c : Cx) (st : StreamId) (ws : List Nat) : Bool :=
  c.noMaster st || ws.any fun w => c.needsTwin (((c.strm st.toNat).serving).getD .A) (winStack w)

/-- Earlier commands of the stream are still in flight. -/
def Cx.earlier (c : Cx) (st : StreamId) (f : Flight) : Bool :=
  (c.strm st.toNat).flights.any fun g => g.number != f.number && seqCmp g.number f.number == .older

/-- Die that serves a stream. -/
def Cx.dieOf (c : Cx) (st : StreamId) : Side := ((c.strm st.toNat).serving).getD .A

/-! ### Completion records (R149 to R151) -/

/-- delay_bucket of Table 6.4, from always-on ticks of 40 ns. -/
def delayBucket (ticks : Nat) : Nat := let us := ticks / 25; if us = 0 then 0 else min 15 (Nat.log2 us + 1)

/-- Status as recorded: a success delayed by 1 µs or more, or by a promotion (Table 6.5). -/
def Flight.finalStatus (f : Flight) (ticks : Nat) : Nat :=
  match f.status with
  | some 0 => if f.slow then stSlow else if ticks ≥ 25 then stDelayed else stOk
  | some k => k
  | none => stOk

/-- The 32 bytes of a completion record (Table 6.4). -/
def Flight.record (f : Flight) (ticks log2 endTick : Nat) : List Byte :=
  leBytes 4 f.number.toNat ++ leBytes 1 (f.finalStatus ticks) ++ leBytes 1 f.flags.toNat
    ++ leBytes 1 (delayBucket ticks + 16 * f.cls) ++ leBytes 1 (1 - b2n (Machine.bit f.number.toNat log2))
    ++ leBytes 8 f.result.toNat ++ leBytes 8 endTick ++ List.replicate 8 0#8

/-- Re-initialisation ends once no started command is left (R162). -/
def Cx.endReinit (c : Cx) (st : StreamId) : Cx :=
  let x := c.strm st.toNat
  if x.st == .reinit && x.flights.isEmpty then
    let d := x.serving.getD .A
    (c.modStrm st.toNat fun x => { x with
      st := .idle, next := x.reinitNum, done := x.reinitNum - 1#32, last := none
      pauseBit := false, fetching := !x.waiting.isEmpty, serving := if x.waiting.isEmpty then none else x.serving
      routed := none, routing := none }).ev 0x3005 6 0 d d.num [st.toNat, x.reinitNum.toNat]
  else c

/-- Clip factor of a norm against a threshold, both binary64 patterns, with the flags of its three operations (R206). -/
def normClip (threshold norm : Nat) : W32 × Flags :=
  let n := Fmt.f64.unpack norm
  let t := Fmt.f64.unpack threshold
  if n.lt t || n.eqv t then (f32One, 0#8)
  else
    let q := Fmt.f64.div threshold norm
    let r := Fmt.f64.sqrt q.1
    let k := f64To32 (BitVec.ofNat 64 r.1)
    (k.1, q.2 ||| r.2 ||| k.2)

/-- The clip factor alone. -/
def clipFactor (threshold norm : Nat) : W32 := (normClip threshold norm).1

/-- A binary64 pattern is an infinity or a NaN. -/
def f64NonFinite (v : Nat) : Bool := decide (Fmt.f64.inf ≤ v % Fmt.f64.sgn)

/-- The norm record of a NORM that completed (R206 to R208): its result field holds the norm. -/
def Flight.normRec (f : Flight) : NormRec :=
  let norm := f.result.toNat
  let step : Step := BitVec.ofNat 48 (f.arg 40 47 0)
  if f64NonFinite norm then { sumSq := f.result, step := step, valid := true, nonfinite := true }
  else
    let k := clipFactor (f.arg 32 63 0) norm
    { sumSq := f.result, clip := k, step := step, valid := true, clipped := k != f32One }

/-- A command completes: its holds end, its flags and delay are counted, and DONE moves when its record is written. -/
def Cx.retireCommand (c : Cx) (st : StreamId) (f : Flight) (ticks : Nat) (d : Side) (written : Bool) : Cx :=
  let c := c.modStrm st.toNat fun x => { x with flights := x.flights.filter (fun g => g.number != f.number),
                                                done := if written then f.number else x.done }
  let c := { c with holds := c.holds.filter fun h => !(h.2.2.1 = st.toNat && h.2.2.2 = f.number.toNat) }
  let c := if f.op = 0x32 && success (f.finalStatus ticks) then c.modDie d fun k => { k with norm := f.normRec } else c
  if f.cls < 6 && ticks != 0 then
    (c.bump (hubBase d + 0x300 + 16 * f.cls) 64 d).bump (hubBase d + 0x308 + 16 * f.cls) 64 d ticks
  else c

/-- Port through which a stream's interrupt leaves (R90). -/
def Desc.irqPort (d : Desc) (serving : Side) : Side :=
  if bits d.completionBase.toNat 63 60 = 4 then Side.ofNum (bits d.completionBase.toNat 57 57) else serving

/-- A disable ends once every started command has completed and every departing port is down: the image, the window
map, the versions and the streams are gone, and hub die A holds the roles again (R18, R129). -/
def Cx.endDisable (c : Cx) : Cx :=
  if c.enabled && !c.img.enableBit && c.streams.all (fun p => p.2.flights.isEmpty)
      && c.ports.all (fun p => !p.2.departing) then
    let id := (c.img.cfg.map fun g => g.id.toNat).getD 0
    let c := c.ev 0x2005 11 1 c.master c.master.num [id]
    { c with
      master := if c.coreUp .A then .A else .B
      img := { c.img with st := .empty, cfg := none, checked := none, part := .none, agreed := false, agreedMinor := 0 }
      wins := [], verdicts := [], abandoned := [], binding := [], charge := [], quotaSaid := [], streams := [], queues := []
      turns := [], holds := []
      acc := [], arrivals := 0, seqs := [], gradHeld := [], gatherHeld := [], finals := [], journal := {}
      fab := { uid := c.fab.uid }
      stks := c.stks.map fun p => (p.1, { p.2 with releasing := [], tags := [], stashTags := [], engine := {} }) }
  else c

/-- A completion record is a release at host scope that covers its command's own writes (R175): the dirty bytes among them are
written back, and each PCIe port that took some gets a zero-length read (Table 7.3). -/
def Cx.releaseOwn (c : Cx) (st : StreamId) (f : Flight) : Cx :=
  let own := if success (f.status.getD 0) then (c.cmdRanges f.cmd).filter (·.write) else []
  let c := c.writeBack fun k => own.any fun r => decide (r.lo ≤ k ∧ k < r.lo + r.len)
  let ports := (c.strm st.toNat).wroteHost.filter fun p => own.any fun r => keySpace r.lo = 4 && bits r.lo 57 57 = p
  ports.foldl (fun c p => c.emit (.zeroRead (Side.ofNum p))) c

/-- COMPLETION_WRITE (R149): the record of the oldest command in flight, once the command has ended and its journal
records are held. -/
def execCompletionWrite (st : StreamId) (delayTicks : Nat) (ok : Bool) (s : State) : R :=
  let c := s.cx
  let x := c.strm st.toNat
  match x.flights, x.serving with
  | f :: _, some d =>
    if f.status.isNone || f.owed != 0 || !c.serves d then s.go c
    else match f.desc with
      | none => s.go ((c.retireCommand st f delayTicks d false).endReinit st).endDisable
      | some desc =>
        let a := desc.completionBase.toNat + 32 * (f.number.toNat % 2 ^ desc.complLog2)
        let host := bits a 63 60 = 4
        let q := c.port (Side.ofNum (bits a 57 57))
        if host && q.up && !q.busMaster then
          s.go (c.modFlight st f.number fun g => if g.status.getD 0 < stFenced then
            { g with status := some stFenced, result := BitVec.ofNat 64 (bits a 57 57) } else g)
        else if !ok || (c.checkRange .write a 32).isSome || c.hostDown a || (c.unreachable? d a).isSome then
          s.go (((c.retireCommand st f delayTicks d false).haltStream st haltRing f.number x.gen).endReinit st).endDisable
        else
          let c := (c.releaseOwn st f).accessWrite a (f.record delayTicks desc.complLog2 c.ticks)
          let c := c.retireCommand st f delayTicks d true
          let c := if Machine.bit f.cmd.toNat 9 && desc.msix != 0 then c.msix (desc.irqPort d) desc.msix else c
          let c := if Machine.bit f.cmd.toNat 10 && !success (f.finalStatus delayTicks) && x.st != .reinit
            then c.haltStream st 7 f.number x.gen else c
          s.go (c.endReinit st).endDisable
  | _, _ => s.go c

/-- timeout_us of a command that has one (Tables 6.7, 8.5, 10.9). -/
def Flight.timeout (f : Flight) : Nat :=
  match f.op with
  | 0x11 => f.arg 16 63 32
  | 0x41 => f.arg 24 63 32
  | 0x33 => f.arg 24 63 32
  | 0x30 | 0x31 => f.arg 24 63 32
  | 0x32 => f.arg 56 63 32
  | _ => 0

/-- COMMAND_TIMEOUT (R151, R155): timeout_us of a waiting command has passed. -/
def execCommandTimeout (st : StreamId) (number : W32) (s : State) : R :=
  let c := s.cx
  match c.flight? st number with
  | none => s.go c
  | some f =>
    if f.status.isSome || f.timeout = 0 || (f.op = 0x33 && f.phase ≥ 2) then s.go c
    else s.go (Cx.settle (retryLater c) st number)

/-! ### Pausing and re-initialising (R161, R162) -/

/-- Stream that HUB_STREAM_SEL of a die names. -/
def Cx.selected (c : Cx) (d : Side) : StreamId := BitVec.ofNat 12 (c.die d).sel

/-- Die that a stream's descriptor names: the one that serves it; before a die has read the descriptor, the one that its
hub_die bit in the table names, or the survivor for a fenced die; none past the table's end (R161, R375, log entry 40). -/
def Cx.namedDie (c : Cx) (n : Nat) : Option Side :=
  match (c.strm n).serving, c.img.cfg with
  | some d, _ => some d
  | none, some g =>
    if n < g.streams.count then
      some (c.servedBy (Side.ofNum (bits (c.hubByte (c.keyAt (c.descAddr n + 0x1C) 0)).toNat 2 2)))
    else none
  | none, none => none

/-- The selected stream's descriptor does not name this die: FOREIGN (R161). With no image enabled there is no
descriptor table, and the registers read their reset values (log entry 40). -/
def Cx.foreign (c : Cx) (d : Side) : Bool := c.img.cfg.isSome && c.namedDie (c.selected d).toNat != some d

/-- STREAM_PAUSE (R162). -/
def execStreamPause (d : Side) (s : State) : R :=
  let c := s.cx
  if !c.serves d then s.go c
  else if c.foreign d then s.go (c.hostAccess d 0 (hubBase d + 0x414) 4 true)
  else s.go (c.modStrm (c.selected d).toNat fun x =>
    { x with pauseBit := true, st := if x.st == .active then .paused else x.st })

/-- STREAM_REINIT (R162). -/
def execStreamReinit (d : Side) (s : State) : R :=
  let c := s.cx
  if !c.serves d then s.go c
  else if c.foreign d then s.go (c.hostAccess d 0 (hubBase d + 0x414) 4 true)
  else if (c.strm (c.selected d).toNat).st == .reinit then s.go c
  else
    let st := c.selected d
    let drop (q : Port) : Port := { q with doorbells := q.doorbells.filter fun b => b.1 != st }
    s.go ((((c.modPort .A drop).modPort .B drop).modStrm st.toNat fun x => { x with
      st := .reinit, halt := 0, desc := none, cache := [], waiting := [], fetching := false, routing := none }).endReinit st)

end Sys2Proof.Machine
end

