-- ==== Sys2Proof/Machine/Accum.lean ====
section
/-!
DEFINITION. The accumulation buffer (chapter 8): GRAD_ADD, entries, epochs and spills (R182 to R195).
-/
namespace Sys2Proof.Machine

/-! ### Entries (R186) -/

/-- Entries of a stack in use: distinct (window, block, epoch, slot). -/
def Cx.accEntries (c : Cx) (s : Nat) : List Nat :=
  (c.acc.filter fun p => winStack (accWin p.1) = s).foldl (fun l p => nput l (p.1 / 64)) []

/-- Windows of a stack in the directory. -/
def Cx.accWindows (c : Cx) (s : Nat) : List Nat :=
  (c.acc.filter fun p => winStack (accWin p.1) = s).foldl (fun l p => nput l (accWin p.1)) []

def accCapacity : Nat := 184320
def accDirectory : Nat := 4096

/-- Entries that a run of values would have to allocate. -/
def Cx.newEntries (c : Cx) (w epoch slot start n : Nat) : Nat :=
  let b0 := start / 64
  let b1 := (start + n - 1) / 64
  ((List.range (b1 + 1 - b0)).filter fun i =>
    let e := accIdx w (b0 + i) epoch slot 0 / 64
    !(c.acc.any fun p => p.1 / 64 = e)).length

/-- The buffer has room for a run. -/
def Cx.accRoom (c : Cx) (w epoch slot start n : Nat) : Bool :=
  let s := winStack w
  decide ((c.accEntries s).length + c.newEntries w epoch slot start n ≤ accCapacity)
    && ((c.accWindows s).contains w || decide ((c.accWindows s).length < accDirectory))

/-! ### Adding values (R187, R188) -/

/-- The NaN record of the accumulation buffer (R58, R212): a GRAD_ADD's value has no step of its own. -/
def accNan (s : Nat) (tensor element : Nat) (step : Option Step := none) : NanRec :=
  { step := step, unitClass := 3, index := s, tensorValid := true, tensor := tensor, element := element,
    die := homeDie s }

/-- One value reaches its lane: the first replaces, later ones add with RNE. -/
def Cx.addValue (c : Cx) (w : Nat) (t : Tensor) (k epoch slot i : Nat) (step : Option Step) (x : W16) : Cx :=
  let s := winStack w
  let key := accIdx w (i / 64) epoch slot (i % 64)
  let r := w32 (convert .s16 .f32 .rne x.toNat)
  let y := match kget? c.acc key with
    | none => r
    | some a => let z := f32Add a r.1; (z.1, r.2 ||| z.2)
  let nan := f32IsNan r.1 || (f32IsNan y.1 && !(((kget? c.acc key).map f32IsNan).getD false))
  let c := { c with acc := kput c.acc key y.1 }
  let c := c.orFlags (updFlagsReg s) y.2
  if nan then c.nan (accNan s t.handle (k * 1048576 + i) step) else c

/-- A run of values from parameter `i` of the window on. -/
def Cx.addRun (c : Cx) (w : Nat) (t : Tensor) (k epoch slot i : Nat) (vals : List W16) (step : Option Step := none) : Cx :=
  let c := (vals.foldl (fun (a : Cx × Nat) x => (a.1.addValue w t k epoch slot a.2 step x, a.2 + 1)) (c, i)).1
  ({ c with arrivals := c.arrivals + 1 }).modWin w fun v => { v with newestArrival := c.arrivals + 1 }

/-! ### Spill (R193, R194) -/

/-- A window may be spilled. -/
def Win.spillable (v : Win) : Bool :=
  v.mode == some false && v.resident && !v.specValid && !v.hold && v.cut.isNone

/-- The victim: the eligible window of the stack whose newest arrival is oldest, lowest id first. -/
def Cx.victim (c : Cx) (s : Nat) : Option Nat :=
  let has := c.accWindows s
  let ok := c.wins.filter fun p => winStack p.1 = s && p.2.spillable && has.contains p.1
    && c.acc.any fun a => accWin a.1 = p.1 && accEpoch a.1 = p.2.openEpoch
  (ok.foldl (fun (m : Option (Nat × Nat)) p =>
    match m with
    | none => some (p.1, p.2.newestArrival)
    | some q => if p.2.newestArrival < q.2 then some (p.1, p.2.newestArrival) else m) none).map (·.1)

/-- acc_epoch of a block's live header. -/
def Cx.accEpochOf (c : Cx) (s slot b : Nat) : Nat := bits (c.header s slot b) 19 17

def Cx.setAccEpoch (c : Cx) (s slot b e : Nat) : Cx :=
  c.basePut s (c.slotOff slot + offH + 8 * b) (leBytes 8 (setBits (c.header s slot b) 19 17 e))

/-- G element i of a window. -/
def Cx.gAt (c : Cx) (s gslot i : Nat) : W16 := BitVec.ofNat 16 (leNat (c.dram s (c.gOff gslot + 2 * i) 2))

/-- Rounding of a spill: RTO, and RNE in a Pyroimet region, whose intermediate roundings are RNE (R194, Table 2.7). -/
def Cx.spillMode (c : Cx) (v : Win) : Rnd :=
  if ((c.region? v.region).map (·.pyroimet)).getD false then .rne else .rto

/-- One spilled lane: the sum with G, or the lane alone, rounded once to S16; the flags, and the NaNs that are read from G
or produced by the addition (R55). -/
def spillLane (mode : Rnd) (g : Option W16) (a : W32) : W16 × Flags × Nat :=
  match g with
  | none => let r := f32ToS16 mode a; (r.1, r.2, 0)
  | some g =>
    let w := w32 (convert .s16 .f32 .rne g.toNat)
    let t := (f32Num w.1).add (f32Num a)
    let r := Fmt.s16.round mode t.1
    (BitVec.ofNat 16 r.1, w.2 ||| r.2 ||| flagIf t.2 Flag.nv, b2n (f32IsNan w.1) + b2n t.2)

/-- Spill one block of a window. -/
def Cx.spillBlock (c : Cx) (w : Nat) (v : Win) (eo b : Nat) : Cx :=
  let s := winStack w
  let same := c.accEpochOf s v.stateSlot b = eo
  let rs := (List.range 64).map fun j =>
    let g := c.gAt s v.gSlot (64 * b + j)
    match kget? c.acc (accIdx w b eo 0 j) with
    | some a => spillLane (c.spillMode v) (if same then some g else none) a
    | none => (if same then g else 0#16, 0#8, 0)
  let c := c.basePut s (c.gOff v.gSlot + 128 * b) (rs.flatMap fun r => leBytes 2 r.1.toNat)
  let c := c.orFlags (updFlagsReg s) (rs.foldl (fun f r => f ||| r.2.1) 0#8)
  let c := (List.range 64).foldl (fun c j => (List.range (rs.getD j (0#16, 0#8, 0)).2.2).foldl (fun c _ =>
    c.nan (accNan s v.tensor (v.k * 1048576 + 64 * b + j))) c) c
  { (c.setAccEpoch s v.stateSlot b eo) with acc := c.acc.filter fun p => p.1 / 64 != accIdx w b eo 0 0 / 64 }

/-- Spill a window: every entry of its open epoch. -/
def Cx.spill (c : Cx) (w : Nat) : Cx :=
  match kget? c.wins w with
  | none => c
  | some v =>
    let eo := v.openEpoch
    let bs := (c.acc.filter fun p => accWin p.1 = w && accEpoch p.1 = eo).foldl (fun l p => nput l (accBlock p.1)) []
    (bs.foldl (fun c b => c.spillBlock w v eo b) c).bump (updBase (winStack w) + 0x804) 31 (homeDie (winStack w))

/-- Spill until the run fits or no window is eligible. -/
def Cx.makeRoom : Nat → Nat → Nat → Nat → Nat → Nat → Cx → Cx
  | 0, _, _, _, _, _, c => c
  | k + 1, w, epoch, slot, start, n, c =>
    if c.accRoom w epoch slot start n then c
    else match c.victim (winStack w) with
      | some x => Cx.makeRoom k w epoch slot start n (c.spill x)
      | none => c

/-! ### GRAD_ADD (R182 to R185, R190, R195) -/

/-- The checks of R183 that a die-to-die header shares: the lowest reason that fails, given the largest count. -/
def Cx.badRun (c : Cx) (tensor e n most : Nat) (reserved : Bool) : Option Nat :=
  match c.tensor? tensor with
  | none => some 1
  | some t =>
    if e % 1048576 + n > 1048576 then some 2
    else if e + n > t.count then some 3
    else if n = 0 || n > most || reserved then some 4
    else none

/-- Fields of a GRAD_ADD header (Table 8.1). -/
structure GradHdr where
  ordered : Bool
  slot : Nat
  tensor : Nat
  start : Nat
  count : Nat
  seq : W16
  reserved : Bool
  deriving DecidableEq, Repr

def gradHdr (h : BitVec 128) : GradHdr :=
  let f (hi lo : Nat) : Nat := bits h.toNat hi lo
  { ordered := bit h.toNat 8, slot := f 12 9, tensor := f 39 16, start := f 79 40, count := f 89 80
    seq := BitVec.ofNat 16 (f 111 96)
    reserved := f 7 0 != 2 || f 15 13 != 0 || f 95 90 != 0 || f 127 112 != 0 || (!bit h.toNat 8 && f 12 9 != 0) }

def seqKey (m s : Nat) : Nat := m * 32 + s

/-- Hub die of a UCIe module. -/
def moduleDie (m : Nat) : Side := if m < 32 then .A else .B

/-- `GRAD_REJECTED` (Table 8.7). -/
def Cx.gradRejected (c : Cx) (reason m : Nat) (g : GradHdr) : Cx :=
  c.ev 0x4101 3 2 (moduleDie m) m [reason, m, g.seq.toNat, g.tensor, g.start, g.count]

/-- A request whose seq is not newer than the newest applied is a duplicate (R185). -/
def Cx.gradDup (c : Cx) (m s : Nat) (g : GradHdr) : Bool :=
  match kget? c.seqs (seqKey m s) with
  | some n => !newer g.seq n
  | none => false

/-- Apply a request whose values have room, recording its seq; a duplicate is answered `OK` and adds nothing (R185). -/
def Cx.gradApply (c : Cx) (m w : Nat) (t : Tensor) (k epoch : Nat) (g : GradHdr) (vals : List W16) (status bucket : Nat) :
    Cx :=
  let s := winStack w
  if c.gradDup m s g then (c.bump (updBase s + 0x80C) 31 (homeDie s)).emit (.gradResp m stOk 0 g.seq.toNat)
  else (({ c with seqs := kput c.seqs (seqKey m s) g.seq }).addRun w t k epoch g.slot (g.start % 1048576)
    (vals.take g.count)).emit (.gradResp m status bucket g.seq.toNat)

/-- An earlier request of the module to the stack still waits. -/
def Cx.gradBehind (c : Cx) (m s : Nat) : Bool :=
  c.gradHeld.any fun q => q.m = m && (match c.tensor? (gradHdr q.hdr).tensor with
    | some t => winStack (c.windowId t ((gradHdr q.hdr).start / 1048576)) = s
    | none => false)

/-- Try a request that passed its checks; none when it has to wait (R195). A duplicate needs no room. -/
def Cx.gradTry (c : Cx) (m epoch : Nat) (h : BitVec 128) (vals : List W16) (status bucket : Nat) : Option Cx :=
  let g := gradHdr h
  match c.tensor? g.tensor with
  | none => some c
  | some t =>
    let k := g.start / 1048576
    let w := c.windowId t k
    if c.gradBehind m (winStack w) then none
    else if c.gradDup m (winStack w) g then some (c.gradApply m w t k epoch g vals status bucket)
    else
      let c := Cx.makeRoom (c.accWindows (winStack w)).length w epoch g.slot (g.start % 1048576) g.count c
      if !c.accRoom w epoch g.slot (g.start % 1048576) g.count then none
      else some (c.gradApply m w t k epoch g vals status bucket)

/-- Condition of Table 6.5 that a window puts on a GRAD_ADD: fenced, or its stack cannot be used now (R184, R271). -/
def Cx.gradStatus (c : Cx) (w : Nat) (ingress : Side) : Option Nat :=
  match kget? c.wins w with
  | none => some stRetry
  | some v =>
    if v.fenced && !(c.fab.repairs.any fun r => r.w = w) then some stFenced
    else if v.fenced || c.stackBusy (winStack w) || c.needsTwin ingress (winStack w) then some stRetry
    else none

/-- Window that a held request adds to. -/
def Cx.heldWindow (c : Cx) (q : GradHeld) : Option Nat :=
  (c.tensor? (gradHdr q.hdr).tensor).map fun t => c.windowId t ((gradHdr q.hdr).start / 1048576)

/-- Try one request that waits: answered with what its wait makes of it (R184, R195), or still held. -/
def Cx.serveGrad (c : Cx) (q : GradHeld) : Cx :=
  match c.heldWindow q with
  | none => c
  | some w =>
    match c.gradStatus w (moduleDie q.m) with
    | some k => c.emit (.gradResp q.m k 0 (gradHdr q.hdr).seq.toNat)
    | none =>
      let dt := c.ticks - q.since
      match c.gradTry q.m q.epoch q.hdr q.vals (if q.slow then stSlow else if dt ≥ 25 then stDelayed else stOk)
          (delayBucket dt) with
      | some c => c
      | none => { c with gradHeld := c.gradHeld ++ [{ q with slow := q.slow || !((kget? c.wins w).all (·.resident)) }] }

/-- The requests that wait are tried again, in order of arrival. -/
def Cx.serveGrads (c : Cx) : Cx := c.gradHeld.foldl Cx.serveGrad { c with gradHeld := [] }

/-! ### Fencing a window (R272, R315) -/

/-- Fence a window: a running pass stops, the speculative slot is discarded (Table 10.2), and the GRAD_ADDs that wait for it
are answered (R184). -/
def Cx.fenceWin (c : Cx) (w : Nat) : Cx :=
  let c := (c.dropSpec w).modWin w fun v => { v with fenced := true, st := .fenced, hold := false }
  (c.submit (c.owner (winStack w)) (.flags w)).serveGrads

def Cx.unfenceWin (c : Cx) (w : Nat) : Cx :=
  let c := c.modWin w fun v => { v with fenced := false, st := .quiet, hold := false }
  c.submit (c.owner (winStack w)) (.flags w)

/-- GRAD_ADD (R184): a contribution arrives at its window's home hub die. -/
def execGradAdd (m : Fin 64) (hdr : BitVec 128) (vals : List W16) (s : State) : R :=
  let c := s.cx
  let g := gradHdr hdr
  let answer (c : Cx) (k : Nat) : R := s.go (c.emit (.gradResp m.val k 0 g.seq.toNat))
  if (kget? c.modules m.val).isNone || !c.shellServes (moduleDie m.val) then s.go c
  else match c.badRun g.tensor g.start g.count 512 g.reserved, c.tensor? g.tensor with
    | some r, _ => answer (c.gradRejected r m.val g) stPoison
    | none, none => answer c stPoison
    | none, some t =>
      let w := c.windowId t (g.start / 1048576)
      match kget? c.wins w with
      | none => answer c stRetry
      | some v =>
        if v.mode.isSome && v.mode != some g.ordered then answer (c.gradRejected 5 m.val g) stPoison
        else match c.gradStatus w (moduleDie m.val) with
          | some k => answer c k
          | none =>
            let c := c.modWin w fun v => { v with mode := some g.ordered
                                                  promoting := v.promoting || (v.mode.isNone && !v.resident)
                                                  writingBack := v.writingBack && v.mode.isSome }
            match c.gradTry m.val v.openEpoch hdr vals stOk 0 with
            | some c => s.go c
            | none =>
              let q : GradHeld := { m := m.val, epoch := v.openEpoch, hdr := hdr, vals := vals, since := c.ticks
                                    slow := !v.resident, die := c.owner (winStack w) }
              s.go (({ c with gradHeld := c.gradHeld ++ [q] }).bump (updBase (winStack w) + 0x808) 31 (homeDie (winStack w)))

end Sys2Proof.Machine
end

