-- ==== Sys2Proof/Machine/Fabric.lean ====
section
/-!
DEFINITION. The fabric's link layer and message transport (R331 to R346, R350, R351, R354): frames, credits,
acknowledgement and replay, link reset, HELLO, and sending, forwarding and answering messages.
-/
namespace Sys2Proof

open Machine

/-! ### Fields of frames (Table 13.2) -/

def Frame.type (f : Frame) : Nat := bits f.hdr.toNat 3 0
def Frame.vc (f : Frame) : Nat := bits f.hdr.toNat 5 4
def Frame.seq (f : Frame) : BitVec 12 := f.hdr.extractLsb' 6 12
def Frame.ack (f : Frame) : BitVec 12 := f.hdr.extractLsb' 18 12
def Frame.ackValid (f : Frame) : Bool := f.hdr.getLsbD 30
def Frame.nak (f : Frame) : Bool := f.hdr.getLsbD 31
def Frame.words (f : Frame) : Nat := bits f.hdr.toNat 37 32
def Frame.creditVc (f : Frame) : Nat := bits f.hdr.toNat 39 38
def Frame.creditTotal (f : Frame) : Nat := bits f.hdr.toNat 47 40

/-- R334: the CRC holds, the type is listed and the length matches. -/
def Frame.good (f : Frame) : Bool :=
  decide (f.crc = crc32 (leBytes 8 f.hdr.toNat ++ f.payload)) && [0, 1, 2, 8, 9].contains f.type
    && decide (f.words * 8 = f.payload.length)


/-- Two messages are the same but for how their bytes are read into fields. -/
def Msg.same (a b : Msg) : Bool := { a with fields := [] } == { b with fields := [] }

end Sys2Proof

namespace Sys2Proof.Machine

def fabOff (p off : Nat) : Nat := fabBase p + off
/-- Hub die that holds a fabric port (Table 4.4). -/
def portDie (p : Nat) : Side := if p < 6 then .A else .B

/-! ### Message operations (Table 13.5) -/

/-- Virtual channels an op may use. -/
def opChannels (op : Nat) : List Nat :=
  match op with
  | 0x01 | 0x02 | 0x07 | 0x19 | 0x28 => [0]
  | 0x03 | 0x04 | 0x06 | 0x09 | 0x1A | 0x29 | 0x2A => [1]
  | 0x05 => [0, 2, 3]
  | 0x08 => [3]
  | 0x10 | 0x11 | 0x12 | 0x13 | 0x14 | 0x15 | 0x16 | 0x17 | 0x18 => [2]
  | 0x20 | 0x21 | 0x22 | 0x23 | 0x24 | 0x25 | 0x26 | 0x27 => [1]
  | _ => []

/-- Frames of a message (R335). -/
def frameCount (size : Nat) : Nat := if size ≤ 224 then 1 else 1 + (size - 224 + 255) / 256

/-- The message that a route header and its bytes spell (Table 13.4). -/
def msgOf (h : BitVec 256) (vc : Nat) (data : List Byte) : Msg where
  op := h.extractLsb' 34 6
  vc := BitVec.ofNat 2 vc
  dest := h.extractLsb' 0 17
  src := h.extractLsb' 17 17
  linkLocal := h.getLsbD 40
  hops := (h.extractLsb' 41 7).toNat
  tag := h.extractLsb' 48 16
  size := (h.extractLsb' 64 16).toNat
  addr := h.extractLsb' 128 64
  arg := h.extractLsb' 192 64
  fields := []
  data := data


/-! ### Frames out (R333, R337 to R341) -/

/-- Advance a channel's entry of a list of four. -/
def setNth (l : List Nat) (i v : Nat) : List Nat := l.set i v

/-- Header of the next frame (Table 13.2): it carries ack, nak and the credit total of the channel whose turn it is. -/
def FabPort.header (q : FabPort) (type vc : Nat) (seq : BitVec 12) (words : Nat) : W64 :=
  BitVec.ofNat 64 (type + vc * 2 ^ 4 + seq.toNat * 2 ^ 6 + (if q.accepted then (q.rxNext - 1#12).toNat else 0) * 2 ^ 18
    + b2n q.accepted * 2 ^ 30 + b2n q.nakPending * 2 ^ 31 + words * 2 ^ 32 + q.creditTurn * 2 ^ 38
    + q.totals.getD q.creditTurn 0 * 2 ^ 40)

/-- What a sent frame reports is no longer pending (R338, R339). -/
def FabPort.reportedBy (q : FabPort) : FabPort :=
  { q with reported := setNth q.reported q.creditTurn (q.totals.getD q.creditTurn 0)
           creditTurn := (q.creditTurn + 1) % 4, ackPending := false, nakPending := false }

/-- Words of payload of frame i of a message. -/
def payloadWords (size i : Nat) : Nat :=
  let n := if i = 0 then 32 + min 224 size else min 256 (size - 224 - 256 * (i - 1))
  (n + 7) / 8

/-- Put one sequenced frame on the wire, new or replayed. -/
def Cx.wire (c : Cx) (p : Nat) (t : TxFrame) : Cx :=
  let q := c.fp p
  let h := q.header (if t.idx = 0 then 1 else 2) t.vc t.seq (payloadWords t.msg.size t.idx)
  (c.modFp p FabPort.reportedBy).emit (.frame p h (some t.msg) t.idx)

/-- First queued message whose channel may send: no earlier message of the same channel waits before it, and the
channel has credit (R335, R337). -/
def FabPort.sendable (q : FabPort) : Option (Msg × Nat) :=
  (List.range q.queue.length).findSome? fun i =>
    match q.queue[i]? with
    | none => none
    | some e => if q.avail.getD e.1.vc.toNat 0 != 0 && !((q.queue.take i).any fun x => x.1.vc = e.1.vc)
        then some e else none

/-- Send one new frame (R337, R341). -/
def Cx.sendOne (c : Cx) (p : Nat) : Option Cx :=
  let q := c.fp p
  if q.st != .up || q.replay.length ≥ 512 then none
  else match q.sendable with
    | none => none
    | some (m, i) =>
      let v := m.vc.toNat
      let head := if i = 0 then q.nextSeq else BitVec.ofNat 12 (q.txHead.getD v 0)
      let t : TxFrame := { seq := q.nextSeq, head := head, vc := v, msg := m, idx := i }
      let pos := q.queue.findIdx fun e => e.1 = m && e.2 = i
      let queue := if i + 1 ≥ frameCount m.size then q.queue.eraseIdx pos else q.queue.set pos (m, i + 1)
      some ((c.modFp p fun q => { q with
        replay := q.replay ++ [t], nextSeq := q.nextSeq + 1#12, queue := queue, txHead := setNth q.txHead v head.toNat
        avail := setNth q.avail v (q.avail.getD v 0 - 1) }).wire p t)

/-- Send new frames while the port may. -/
def Cx.pumpFuel : Nat → Nat → Cx → Cx
  | 0, _, c => c
  | n + 1, p, c =>
    match c.sendOne p with
    | some c => Cx.pumpFuel n p c
    | none => c

def Cx.pump (c : Cx) (p : Nat) : Cx :=
  Cx.pumpFuel ((c.fp p).queue.map fun e => frameCount e.1.size).sum p c

/-- Replay: every held frame again, from the oldest (R341). -/
def Cx.replayAll (c : Cx) (p : Nat) : Cx := (c.fp p).replay.foldl (fun c t => c.wire p t) c

/-- Put a message at a port's queue. -/
def Cx.portSend (c : Cx) (p : Nat) (m : Msg) : Cx :=
  if (c.fp p).salvaging then c.modFp p fun q => { q with heldBack := q.heldBack ++ [m] }
  else (c.modFp p fun q => { q with queue := q.queue ++ [(m, 0)] }).pump p

/-! ### Routing (R350, R351) -/

/-- Ports of a table entry's set, none when it is invalid. -/
def entryPorts (e : W64) (setD : Bool) : List Nat :=
  let o := if setD then 32 else 0
  let v := e.toNat
  if bit v (o + 18) then (List.range (bits v (o + 17) (o + 16) + 1)).map fun i => bits v (o + 4 * i + 3) (o + 4 * i)
  else []

/-- Port that a triple takes from a list: the mist choice, then the next that is UP (R351). A triple that used a port whose
held messages await salvage stays with that port, which holds the message back, if `hold` is set (R353). -/
def Cx.choosePort (c : Cx) (ports : List Nat) (src dest vc : Nat) (hold : Bool) : Option Nat :=
  let seed := (c.img.cfg.map fun g => g.fabric.seed.toNat).getD 0
  let x := (mist (BitVec.ofNat 64 seed) (BitVec.ofNat 128 (src + dest * 2 ^ 32 + vc * 2 ^ 64))).toNat % 2 ^ 64
  let n := ports.length
  if n = 0 then none
  else
    let order := (List.range n).map fun i => ports.getD ((x + i) % n) 0
    some ((order.find? fun p => (c.fp p).st == .up || (hold && (c.fp p).salvaging)).getD (order.headD 0))

/-- Next hop of a message (R350): none when its set is invalid. SALVAGE goes around the failed port (R353). -/
def Cx.route (c : Cx) (m : Msg) : Option Nat :=
  match c.fab.id with
  | none => none
  | some own =>
    let d := m.dest.toNat
    let e := if d / 256 = own.toNat / 256 then kget 0#64 c.fab.member (d % 256) else kget 0#64 c.fab.group (d / 256)
    c.choosePort (entryPorts e (m.vc = 2#2)) m.src.toNat d m.vc.toNat (m.op != 0x27#6)

/-- A message without a route, or at its hop limit, is discarded and counted (R335, R350). -/
def Cx.unreachable (c : Cx) (p : Nat) : Cx := c.bump (fabOff p 0x5C) 31 (portDie p)

/-- Send a message from this node, or pass one on that arrived at port `p`. -/
def Cx.sendMsg (c : Cx) (p : Nat) (m : Msg) : Cx :=
  if some m.dest = c.fab.id && !m.linkLocal then { c with fab := { c.fab with loop_ := c.fab.loop_ ++ [m] } }
  else match c.route m with
    | some o => c.portSend o m
    | none => c.unreachable p

/-- Own node id, 0 while none is assigned. -/
def Cx.node (c : Cx) : BitVec 17 := c.fab.id.getD 0#17

/-- A message of this node. -/
def Cx.mkMsg (c : Cx) (op vc : Nat) (dest : BitVec 17) (tag : W16) (addr arg : W64) (size : Nat) (data : List Byte)
    (fields : List Nat) : Msg :=
  { op := BitVec.ofNat 6 op, vc := BitVec.ofNat 2 vc, dest := dest, src := c.node, linkLocal := false, hops := 0,
    tag := tag, size := max 1 size, addr := addr, arg := arg, fields := fields, data := data }

/-- A link-local message to the partner of a port. -/
def Cx.localMsg (c : Cx) (op vc : Nat) (addr arg : W64) (data : List Byte) (fields : List Nat) : Msg :=
  { c.mkMsg op vc 0#17 0#16 addr arg data.length data fields with linkLocal := true }

/-- Send a request that expects a response: it is outstanding at this node for its command (R336, R354). -/
def Cx.request (c : Cx) (st : StreamId) (num : W32) (op vc : Nat) (dest : BitVec 17) (addr arg : W64) (size : Nat)
    (data : List Byte) (off len : Nat) (fields : List Nat := []) : Cx :=
  let tag := c.fab.nextTag
  let r : Req := { tag := tag, dest := dest.toNat, op := op, stream := st, command := num, off := off, len := len }
  let c := { c with fab := { c.fab with nextTag := tag + 1#16, reqs := c.fab.reqs ++ [r] } }
  let c := c.modFlight st num fun f => { f with awaits := f.awaits ++ [tag.toNat], why := some .fabricCredit }
  c.sendMsg 0 (c.mkMsg op vc dest tag addr arg size data fields)

/-- Answer a request (R336): the response carries its tag. -/
def Cx.respond (c : Cx) (m : Msg) (op : Nat) (addr arg : W64) (data : List Byte) (fields : List Nat) : Cx :=
  c.sendMsg 0 (c.mkMsg op 1 m.src m.tag addr arg data.length data fields)

/-- Drop a request from the outstanding ones. -/
def Cx.dropReq (c : Cx) (tag : W16) : Cx :=
  { c with fab := { c.fab with reqs := c.fab.reqs.filter fun r => r.tag != tag } }

def Cx.req? (c : Cx) (tag : W16) : Option Req := c.fab.reqs.find? fun r => r.tag = tag

/-- A response reached its command: the tag is no longer awaited and the worst status is kept (R151, R354). -/
def Cx.answered (c : Cx) (r : Req) (status : Nat) (result : Nat) : Cx :=
  (c.dropReq r.tag).modFlight r.stream r.command fun f =>
    { f with awaits := f.awaits.filter (· != r.tag.toNat)
             result := if status > f.worst then BitVec.ofNat 64 result else f.result
             worst := max f.worst status }

/-! ### Messages in -/

/-- Free the receive buffers of a message: the credit total of its channel grows by its frames (R338). -/
def Cx.freeBuffers (c : Cx) (p vc n : Nat) : Cx :=
  c.modFp p fun q => { q with totals := setNth q.totals vc ((q.totals.getD vc 0 + n) % 256) }

/-- Messages that wait at port p (12: the loop back to this node). -/
def Cx.msgsAt (c : Cx) (p : Nat) : List Msg := if p = 12 then c.fab.loop_ else (c.fp p).delivered.map (·.1)

/-- A message waits at a port for its step: the oldest of its source, destination and virtual channel there (R180). -/
def Cx.arrived (c : Cx) (p : Nat) (m : Msg) : Bool :=
  ((c.msgsAt p).find? fun e => e.src = m.src && e.dest = m.dest && e.vc = m.vc && e.linkLocal == m.linkLocal).any (Msg.same m)

/-- Take it: its buffers are free again. -/
def Cx.consume (c : Cx) (p : Nat) (m : Msg) : Cx :=
  if p = 12 then
    { c with fab := { c.fab with loop_ := c.fab.loop_.eraseIdx (c.fab.loop_.findIdx (Msg.same m)) } }
  else
    let q := c.fp p
    let i := q.delivered.findIdx fun e => e.1.same m
    let n := (q.delivered[i]?.map (·.2)).getD 0
    (c.modFp p fun q => { q with delivered := q.delivered.eraseIdx i }).freeBuffers p m.vc.toNat n

/-- A message step: on a message with this op that waits at the port, its effect; else nothing. -/
def Cx.onMsg (c : Cx) (p : Nat) (m : Msg) (op : Nat) (f : Cx → Cx) : Cx :=
  if m.op.toNat = op && c.arrived p m then f (c.consume p m) else c

/-- Messages that a port with bootstrap settings accepts (R345). -/
def bootOk (m : Msg) : Bool := m.linkLocal && [0x28, 0x29, 0x2A].contains m.op.toNat

/-- Discovery messages travel hop by hop and are handled at every node (R347 to R349). -/
def hopByHop (m : Msg) : Bool := decide (0x20 ≤ m.op.toNat ∧ m.op.toNat ≤ 0x26)

/-- A whole message at a port: for this node, or forwarded (R335, R350). -/
def Cx.deliver (c : Cx) (p : Nat) (m : Msg) (frames : Nat) : Cx :=
  if (c.fp p).bootstrap && !bootOk m then c.freeBuffers p m.vc.toNat frames
  else if m.linkLocal || hopByHop m || some m.dest = c.fab.id then
    c.modFp p fun q => { q with delivered := q.delivered ++ [(m, frames)] }
  else
    let c := c.freeBuffers p m.vc.toNat frames
    if m.hops + 1 ≥ 64 then c.unreachable p else c.sendMsg p { m with hops := m.hops + 1 }

/-! ### Link reset (R342, R343) -/

/-- A link resets: RESET goes to the partner, sequenced frames stop and the lanes retrain. -/
def Cx.startReset (c : Cx) (p cause : Nat) : Cx :=
  let c := (c.bump (fabOff p 0x4C) 31 (portDie p)).emit (.ctl p 9 [cause])
  c.modFp p fun q => { q with st := .reset, wasUp := q.st == .up || (q.wasUp && q.st != .down && q.st != .failed)
                              sawHello := false, timeouts := 0, resetting := cause + 1 }

/-- A port that may run: its die is up, and an enabled image's fabric record enables it (R345). -/
def Cx.portOn (c : Cx) (p : Nat) : Bool :=
  (c.die (portDie p)).shell && (match c.img.cfg with
    | none => true
    | some g => bit (g.fabric.ports.getD p 0) 0)

/-- The causes of R342: a link under reset goes on with it; a DOWN or FAILED port starts again on the partner's RESET
(cause 4) and on FAB_PORT_CTRL.reset (cause 5) where it may run (log entry 82). -/
def Cx.resetLink (c : Cx) (p cause : Nat) : Cx :=
  let q := c.fp p
  if q.st == .reset then c
  else if (q.st == .down || q.st == .failed) && !((cause = 4 || cause = 5) && c.portOn p) then c
  else c.startReset p cause

/-- `FAB_PROTOCOL_ERROR`, and the reset it causes (R336, R340, R342). -/
def Cx.protocolError (c : Cx) (p cause : Nat) : Cx :=
  (c.ev 0x700A 7 1 (portDie p) p [p, cause]).resetLink p 3

/-- Clear the link-layer state: a cold reset (R343). -/
def FabPort.cold (q : FabPort) (credits : List Nat) : FabPort :=
  { q with avail := credits, lastTotal := [0, 0, 0, 0], totals := [0, 0, 0, 0], reported := [0, 0, 0, 0]
           creditTurn := 0, rxNext := 0#12, accepted := false, nakPending := false, nakSent := false
           txHead := [0, 0, 0, 0]
           ackPending := false, nextSeq := 0#12, newestAck := none, replay := [], parts := [], delivered := []
           timeouts := 0, queue := q.queue.map fun e => (e.1, 0) }

/-! ### Frames in (R334, R338 to R341) -/

/-- A cumulative ack frees held frames; one that names a frame not yet sent is a protocol error (R340). -/
def Cx.takeAck (c : Cx) (p : Nat) (f : Frame) : Cx :=
  let q := c.fp p
  if !f.ackValid then c
  else if newerEq f.ack q.nextSeq then c.protocolError p 0
  else if q.newestAck.any fun a => seqCmp f.ack a == .older then c
  else
    let kept := q.replay.filter fun t => newer t.seq f.ack
    c.modFp p fun q => { q with newestAck := some f.ack, replay := kept
                                timeouts := if kept.length < q.replay.length then 0 else q.timeouts }

/-- A credit total restores credits (R338). -/
def Cx.takeCredit (c : Cx) (p : Nat) (f : Frame) : Cx :=
  c.modFp p fun q =>
    let v := f.creditVc
    let k := (f.creditTotal + 256 - q.lastTotal.getD v 0) % 256
    { q with avail := setNth q.avail v (q.avail.getD v 0 + k), lastTotal := setNth q.lastTotal v f.creditTotal }

/-- A nak starts a replay (R341). -/
def Cx.takeNak (c : Cx) (p : Nat) (f : Frame) : Cx :=
  if f.nak && !(c.fp p).replay.isEmpty && (c.fp p).st == .up then
    (c.bump (fabOff p 0x44) 31 (portDie p)).replayAll p
  else c

/-- An accepted frame joins its message; a whole message is delivered, or discarded when its op is not listed for its
channel (R335, R336). -/
def Cx.assemble (c : Cx) (p : Nat) (f : Frame) : Cx :=
  let q := c.fp p
  let step (part : RxPart) : Cx :=
    let m := msgOf part.head f.vc part.data
    if part.frames < frameCount m.size then c.modFp p fun q => { q with parts := kput q.parts f.vc part }
    else
      let c := c.modFp p fun q => { q with parts := kdel q.parts f.vc }
      if (opChannels m.op.toNat).contains f.vc then c.deliver p { m with data := part.data.take m.size } part.frames
      else (c.freeBuffers p f.vc part.frames).protocolError p 1
  match f.type, kget? q.parts f.vc with
  | 1, none =>
    step { seq := f.seq, head := BitVec.ofNat 256 (leNat (f.payload.take 32)), data := f.payload.drop 32, frames := 1 }
  | 2, some part => step { part with data := part.data ++ f.payload, frames := part.frames + 1 }
  | _, _ => (c.freeBuffers p f.vc 1).protocolError p 2

/-- A sequenced frame against rx_next (R339). -/
def Cx.takeSequenced (c : Cx) (p : Nat) (f : Frame) : Cx :=
  match seqCmp f.seq (c.fp p).rxNext with
  | .equal =>
    (c.modFp p fun q => { q with rxNext := q.rxNext + 1#12, accepted := true, ackPending := true, nakSent := false }).assemble
      p f
  | .older => (c.bump (fabOff p 0x54) 31 (portDie p)).modFp p fun q => { q with ackPending := true }
  | .newer =>
    (c.bump (fabOff p 0x58) 31 (portDie p)).modFp p fun q =>
      if q.nakSent then q else { q with nakPending := true, nakSent := true }

/-- Ack, nak and credit total of a good frame on an UP link (R338, R340, R341). -/
def Cx.takeControl (c : Cx) (p : Nat) (f : Frame) : Cx := (((c.takeAck p f).takeCredit p f).takeNak p f).pump p

/-- A frame that fails R334 is only counted. -/
def Cx.badFrame (c : Cx) (p : Nat) : Cx := c.bump (fabOff p 0x40) 31 (portDie p)

/-- SEQUENCED_FRAME (R339): a HEAD or CONT frame arrives. -/
def execSequencedFrame (p : Fin 12) (f : Frame) (s : State) : R :=
  let c := s.cx
  if !f.good then s.go (c.badFrame p)
  else if (c.fp p).st != .up then s.go c
  else if f.type = 1 || f.type = 2 then
    let c := c.takeControl p f
    s.go (if (c.fp p).st == .up then c.takeSequenced p f else c)
  else s.go c

/-- NULL_FRAME (R338): ack, nak and a credit total. -/
def execNullFrame (p : Fin 12) (f : Frame) (s : State) : R :=
  let c := s.cx
  if !f.good then s.go (c.badFrame p)
  else if (c.fp p).st != .up then s.go c
  else if f.type = 0 then s.go (c.takeControl p f) else s.go c

/-- NULL_SEND_TIMER (R338): 100 ns passed with an unreported ack or total. -/
def execNullSendTimer (p : Fin 12) (s : State) : R :=
  let c := s.cx
  let q := c.fp p
  if q.st == .up && (q.ackPending || q.nakPending || q.totals != q.reported) then
    s.go ((c.modFp p FabPort.reportedBy).emit (.frame p (q.header 0 0 0#12 0) none 0))
  else s.go c

/-- ACK_TIMEOUT (R341, R342): 4 µs without a freeing ack start a replay; the eighth in a row resets the link. -/
def execAckTimeout (p : Fin 12) (s : State) : R :=
  let c := s.cx
  let q := c.fp p
  if q.st == .up && !q.replay.isEmpty then
    let c := (c.bump (fabOff p 0x48) 31 (portDie p)).bump (fabOff p 0x44) 31 (portDie p)
    let c := (c.modFp p fun q => { q with timeouts := q.timeouts + 1 }).replayAll p
    s.go (if q.timeouts + 1 ≥ 8 then c.resetLink p 0 else c)
  else s.go c

/-- RESET_FRAME (R342): the partner resets the link. -/
def execResetFrame (p : Fin 12) (f : Frame) (s : State) : R :=
  if !f.good then s.go (s.cx.badFrame p) else if f.type = 9 then s.go (s.cx.resetLink p 4) else s.go s.cx

/-- FAB_PORT_RESET (R342): FAB_PORT_CTRL.reset. -/
def execFabPortReset (p : Fin 12) (s : State) : R := s.go (s.cx.resetLink p 5)

/-- LANE_ALIGNMENT_LOSS (R342). -/
def execLaneAlignmentLoss (p : Fin 12) (s : State) : R := s.go (s.cx.resetLink p 2)

/-- UNCORRECTED_BLOCK_BURST (R342): n uncorrectable blocks within 1 ms. -/
def execUncorrectedBlockBurst (p : Fin 12) (n : Nat) (s : State) : R :=
  let c := s.cx.bump (fabOff p 0x50) 31 (portDie p) n
  s.go (if n > 1000 then c.resetLink p 1 else c)

/-! ### HELLO (R344, Table 13.6) -/

/-- Fabric link protocol minor that a port advertises (R133). -/
def Cx.fabMinor (c : Cx) (p : Nat) : Nat :=
  if (c.fp p).bootstrap then 1 else min 1 ((c.img.cfg.map fun g => (g.limits 1).2).getD 0xFF)

/-- The HELLO this port sends, field by field in the order of Table 13.6. -/
def Cx.helloFields (c : Cx) (p : Nat) : List Nat :=
  let q := c.fp p
  [c.fab.uid.toNat, c.node.toNat, b2n c.fab.id.isSome, p, q.role,
   b2n (bit ((c.img.cfg.map fun g => g.fabric.ports.getD p 0).getD 0) 2), 3, c.fabMinor p, b2n c.enabled, b2n q.wasUp,
   b2n q.sawHello, q.rxNext.toNat, 64, 64, 128, 128, c.fab.rootUid.toNat, c.fab.epoch.toNat]

def Cx.sendHello (c : Cx) (p : Nat) : Cx := c.emit (.ctl p 8 (c.helloFields p))

/-- A port's change is reported toward the root (R349), if the parent port is UP. -/
def Cx.linkChange (c : Cx) (p : Nat) : Cx :=
  if c.fab.st = 0 || c.fab.root then (if c.fab.root then { c with fab := { c.fab with st := 2, topos := [] } } else c)
  else if (c.fp c.fab.parent).st != .up then c
  else c.portSend c.fab.parent (c.localMsg 0x26 1 0#64 0#64 [] [c.fab.uid.toNat, p])

/-- The link of a port fails: a load whose push is bound to it ends (R126). -/
def Cx.pushBroken (c : Cx) (p : Nat) : Cx :=
  if c.img.push.any fun x => x.1 = p then c.refuseImage false (0x0810, 0, 0) else c

/-- A port is DOWN for a cause of Table 13.10: its event, and the report toward the root. -/
def Cx.portDown (c : Cx) (p cause : Nat) : Cx := ((c.pushBroken p).ev 0x7002 7 1 (portDie p) p [p, cause]).linkChange p

/-- The lanes did not train in a permitted form: the port stays DOWN (R332). -/
def Cx.noTraining (c : Cx) (p : Nat) : Cx :=
  (c.modFp p fun q => { q with st := .down, resetting := 0 }).portDown p 3

/-- LANE_TRAINING_DONE (R332, R344): the lanes trained in a form, or did not. -/
def execLaneTrainingDone (p : Fin 12) (form : Option LaneForm) (s : State) : R :=
  let c := s.cx
  let q := c.fp p
  if q.st != .training && q.st != .reset then s.go c
  else
    let reduced := bit ((c.img.cfg.map fun g => g.fabric.ports.getD p 0).getD 0) 2
    let okForm (l : LaneForm) : Bool := (q.bootstrap || reduced || (!l.width4 && !l.speed56))
      && (!q.force4 || l.width4) && (!q.force56 || l.speed56)
    match form with
    | some l =>
      if okForm l then
        s.go ((c.modFp p fun q => { q with st := .hello, width4 := l.width4, speed56 := l.speed56, sawHello := false }).sendHello
          p)
      else s.go (c.noTraining p)
    | none => s.go (c.noTraining p)

/-- HELLO_TIMER (R344): HELLO goes out again until one with seen has arrived. -/
def execHelloTimer (p : Fin 12) (s : State) : R :=
  if (s.cx.fp p).st == .hello then s.go (s.cx.sendHello p) else s.go s.cx

/-- Key with which this node offers itself as root, none when it makes no offer (R347). -/
def Cx.offer (c : Cx) : Option (Nat × Nat) :=
  match c.img.cfg with
  | none => none
  | some g =>
    if g.fabric.role = 0 then none
    else if g.fabric.rootUid = c.fab.uid then some (0, c.fab.uid.toNat)
    else if g.fabric.role = 2 && g.fabric.rootUid = 0#64 then some (1, c.fab.uid.toNat) else none

/-- Send ELECT on a port: the best key and the distance to it (R347). -/
def Cx.sendElect (c : Cx) (p : Nat) : Cx :=
  match c.fab.best with
  | some k => c.portSend p (c.localMsg 0x20 1 0#64 0#64 [] [k.1, k.2, c.fab.dist])
  | none => c

def Cx.upPorts (c : Cx) : List Nat := (List.range 12).filter fun p => (c.fp p).st == .up

def Cx.sendElectAll (c : Cx) : Cx := c.upPorts.foldl Cx.sendElect c

/-- The link comes UP, warm or cold (R343, R344). -/
def Cx.linkUp (c : Cx) (p : Nat) (warm : Bool) (credits : List Nat) : Cx :=
  let q := c.fp p
  let c := c.modFp p fun q => { (if warm then q else q.cold credits) with st := .up, wasUp := true, resetting := 0 }
  let c := c.ev 0x7001 7 0 (portDie p) p
    [p, q.partnerUid.toNat, q.partnerPort, b2n q.width4, b2n q.speed56, b2n warm]
  let c := if q.resetting != 0 then
      let o := c.drawOpen 0x7003
      o.2.ev 0x7003 7 1 (portDie p) p [p, q.resetting - 1, b2n warm, o.1.toNat]
    else c
  let c := if warm && !(c.fp p).replay.isEmpty then (c.bump (fabOff p 0x44) 31 (portDie p)).replayAll p else c
  let c := if c.fab.st != 0 then (c.sendElect p).linkChange p else c
  c.pump p

/-- HELLO (R344): the partner's HELLO arrives; the link goes UP on one with seen set. -/
def execHello (p : Fin 12) (f : Frame) (s : State) : R :=
  let c := s.cx
  let q := c.fp p
  if !f.good then s.go (c.badFrame p)
  else if q.st != .hello || f.type != 8 then s.go c
  else
    let v := leNat f.payload
    let g (o n : Nat) : Nat := v / 256 ^ o % 256 ^ n
    let uid := BitVec.ofNat 64 (g 0 8)
    let port := bits (g 12 1) 3 0
    let lim := if q.bootstrap then (0, 0xFF) else (c.img.cfg.map fun g => g.limits 1).getD (0, 0xFF)
    let minor := min (g 14 1) (min 1 lim.2)
    if g 13 1 != 3 || minor < lim.1 then
      s.go (((c.modFp p fun q => { q with st := .down, resetting := 0 }).ev 0x2007 7 1 (portDie p) p
        [1, p.val, 3, c.fabMinor p, g 13 1, g 14 1, lim.1]).portDown p 2)
    else
      let same : Bool := uid = q.partnerUid && port = q.partnerPort
      let warm := q.wasUp && same && bit (g 15 1) 1
      let node := if bit (g 8 4) 17 then some (BitVec.ofNat 17 (g 8 4)) else none
      let c := c.modFp p fun q => { q with sawHello := true, partnerUid := uid, partnerPort := port, partnerNode := node
                                           minor := minor, wasUp := q.wasUp && same }
      let c := if q.sawHello then c else c.sendHello p
      if bit (g 15 1) 2 then
        s.go ((c.ev 0x2006 7 0 (portDie p) p [1, p.val, 3, c.fabMinor p, g 13 1, g 14 1, minor]).linkUp p warm
          [g 18 1, g 19 1, g 20 1, g 21 1])
      else s.go c

/-- Messages of a failing port whose frames are held, or that are sent in part, each once, with the sequence number of its
HEAD (R353, log entry 82). -/
def FabPort.heldMsgs (q : FabPort) : List (BitVec 12 × Msg) :=
  let put (l : List (BitVec 12 × Msg)) (h : BitVec 12) (m : Msg) := if l.any fun x => x.1 = h then l else l ++ [(h, m)]
  (q.queue.filter fun e => e.2 != 0).foldl (fun l e => put l (BitVec.ofNat 12 (q.txHead.getD e.1.vc.toNat 0)) e.1)
    (q.replay.foldl (fun l t => put l t.head t.msg) [])

/-- Messages that wait with no frame sent. -/
def FabPort.unsent (q : FabPort) : List Msg := (q.queue.filter fun e => e.2 = 0).map (·.1)

/-- Send messages of a failed port on their new routes; a link-local one ends with its link (log entry 82). -/
def Cx.resend (c : Cx) (p : Nat) (l : List Msg) : Cx := (l.filter fun m => !m.linkLocal).foldl (fun c m => c.sendMsg p m) c

/-- `FAB_PORT_FAILED`: messages salvaged and lost (R353). -/
def Cx.portFailed (c : Cx) (p salvaged lost : Nat) : Cx :=
  c.ev 0x7004 7 2 (portDie p) p [p, (c.fp p).partnerUid.toNat, salvaged, lost]

/-- A failing port with nothing to salvage, or with no node to ask: what waits goes out on new routes. -/
def Cx.failPort (c : Cx) (p : Nat) (held : List (BitVec 12 × Msg)) (unsent : List Msg) : Cx :=
  (c.resend p unsent).portFailed p 0 held.length

/-- A failing port with messages to salvage: SALVAGE goes to the partner, new messages are held back. -/
def Cx.askSalvage (c : Cx) (p : Nat) (n : BitVec 17) (held : List (BitVec 12 × Msg)) (unsent : List Msg) : Cx :=
  (c.sendMsg p (c.mkMsg 0x27 1 n 0#16 0#64 0#64 0 [] [0, (c.fp p).partnerPort])).modFp p fun q =>
    { q with salvaging := true, salvage := held, heldBack := unsent }

/-- LINK_UP_TIMEOUT (R343, R353): 4 ms after the reset began the link is not UP; held messages go to salvage. -/
def execLinkUpTimeout (p : Fin 12) (s : State) : R :=
  let c := s.cx
  let q := c.fp p
  if q.resetting = 0 || q.st == .up || q.st == .failed then s.go c
  else
    let c := c.modFp p fun q => { q with st := .failed, resetting := 0, wasUp := false, replay := [], queue := [] }
    let c := (c.pushBroken p).linkChange p
    match q.heldMsgs.isEmpty, q.partnerNode with
    | false, some n => s.go (c.askSalvage p n q.heldMsgs q.unsent)
    | _, _ => s.go (c.failPort p q.heldMsgs q.unsent)

/-- DEPART_WAIT_EXPIRY (R346): the replay buffer is empty, or 1 ms has passed: DEPART goes out and the port goes
DOWN. -/
def execDepartWaitExpiry (p : Fin 12) (s : State) : R :=
  let c := s.cx
  if !(c.fp p).departing then s.go c
  else
    let c := c.portSend p (c.localMsg 0x2A 1 0#64 0#64 [] [])
    s.go ((c.modFp p fun q => { q.cold [0, 0, 0, 0] with st := .down, departing := false, queue := [], wasUp := false
                                                         bootstrap := true }).ev
      0x7002 7 1 (portDie p) p [p.val, 1]).endDisable

/-- DEPART (R346): the partner departs: the port goes DOWN with a cold reset and no salvage. -/
def execDepart (p : Fin 13) (m : Msg) (s : State) : R :=
  s.go (s.cx.onMsg p m 0x2A fun c =>
    (c.modFp p fun q => { q.cold [0, 0, 0, 0] with st := .down, queue := [], wasUp := false }).portDown p 0)

/-! ### Salvage (R353, R376) -/

/-- Sequence number that a SALVAGE reply names: the oldest incomplete message's HEAD, or rx_next. -/
def FabPort.salvageSeq (q : FabPort) : BitVec 12 :=
  q.parts.foldl (fun a x => if newer a x.2.seq then x.2.seq else a) q.rxNext

/-- The end of a salvage: the held-back messages are released. -/
def Cx.endSalvage (c : Cx) (p salvaged lost : Nat) : Cx :=
  let back := (c.fp p).heldBack
  ((c.modFp p fun q => { q with heldBack := [] }).resend p back).portFailed p salvaged lost

/-- Take the held messages of a port: it salvages no more. -/
def Cx.takeHeld (c : Cx) (p : Nat) : Cx := c.modFp p fun q => { q with salvaging := false, salvage := [] }

/-- SALVAGE_TIMEOUT (R353): no reply within 2 ms: the held messages are lost and the held-back ones go out. -/
def execSalvageTimeout (p : Fin 12) (s : State) : R :=
  let c := s.cx
  if (c.fp p).salvaging then s.go ((c.takeHeld p).endSalvage p 0 (c.fp p).salvage.length) else s.go c

end Sys2Proof.Machine
end

