-- ==== Sys2Proof/Machine/Newts.lean ====
section
/-!
DEFINITION. Newts (chapter 11): newt mode and the newt window, taking and ending jobs, DOT and ATTEND, the neighbour
chain, bank-compute grants, refresh suspension and the commands NEWT_MODE and NEWT_JOB.
-/
namespace Sys2Proof.Machine

/-! ### What a job gathers while it runs -/

/-- Flags, elements whose reading or computing produced a NaN, the first poisoned byte read, and whether the job counts as
poisoned without one. -/
structure JobFx where
  fl : Flags := 0#8
  nans : List Nat := []
  poison : Option Nat := none
  taint : Bool := false
  deriving DecidableEq, Repr

/-- What the job writes or sends from now on carries poison (R301). -/
def JobFx.bad (x : JobFx) : Bool := x.poison.isSome || x.taint

/-- A produced NaN counts. R301 leaves out only values read from poisoned codewords, so a NaN that an operation makes is
recorded whatever its operands were read from (DEDUCED, log entry 88). -/
def JobFx.nan (x : JobFx) (made : Bool) (at_ : Nat) : JobFx := if made then { x with nans := x.nans ++ [at_] } else x

def JobFx.flag (x : JobFx) (f : Flags) : JobFx := { x with fl := x.fl ||| f }

/-- A two-operand operation under R48 at an element. -/
def JobFx.op2 (x : JobFx) (f : W32 → W32 → W32 × Flags) (a b : W32) (at_ : Nat) : W32 × JobFx :=
  let r := newtOp2 f a b
  (r.1, (x.flag r.2).nan (produces r.1 [a, b]) at_)

/-- An E8 pattern that is a subnormal of its format. -/
def e8Sub (b : Bool) (v : Nat) : Bool := decide (v % 128 ≠ 0 ∧ v % 128 < if b then 4 else 8)

/-- An element widened exactly to binary32, a subnormal of its format flushed (Table 2.3, R48, R286). -/
def widen (fmt v : Nat) : W32 × Flags :=
  let e8 (b : Bool) : W32 × Flags :=
    if e8Sub b v then (BitVec.ofNat 32 (v / 128 % 2 * 2 ^ 31), Flag.flushed ||| Flag.uf)
    else w32 (convert (e8Fmt b) .f32 .rne v)
  match fmt with
  | 3 => (intToF32 (signed 8 v), 0#8)
  | 4 => (natToF32 v, 0#8)
  | _ =>
    let r : W32 × Flags := match fmt with
      | 0 => w32 (convert .s16 .f32 .rne v)
      | 1 => e8 false
      | 2 => e8 true
      | _ => (canonical (BitVec.ofNat 32 v), (Fmt.f32.unpack v).readFlags)
    let z := flush r.1
    (z.1, r.2 ||| z.2)

/-- Read elements i … i+n-1 of an operand: a NaN that stands in an unpoisoned codeword is produced by its reading
(R55); poison is noted (R301). -/
def Cx.load (c : Cx) (g : Nat) (r : ORef) (i n : Nat) (x : JobFx) : List W32 × JobFx :=
  let z := fmtSize r.fmt
  let at_ := r.off + i * z
  let x := { x with poison := x.poison <|> c.newtPoison g r.scratch at_ (n * z) }
  (List.range n).foldl (fun (p : List W32 × JobFx) k =>
    let o := at_ + k * z
    let v := widen r.fmt (leNat (c.newtBytes g r.scratch o z))
    let bad := (c.newtPoison g r.scratch o z).isSome
    let y := p.2.flag v.2
    (p.1 ++ [v.1], if f32IsNan v.1 && !bad then { y with nans := y.nans ++ [o] } else y)) ([], x)

/-- A store's bytes in an output format, with R48 on the output (R288, Table 2.3). -/
def outBytes (fmt : Nat) (rto : Bool) (y : W32) : List Byte × Flags :=
  let z := flush y
  let mode : Rnd := if rto then .rto else .rne
  match fmt with
  | 0 =>
    let p := f32ToS16 mode z.1
    let sub := decide (p.1.toNat % 32768 ≠ 0 ∧ p.1.toNat % 32768 < 128)
    (leBytes 2 (if sub then p.1 &&& 0x8000#16 else p.1).toNat, z.2 ||| p.2 ||| flagIf sub (Flag.flushed ||| Flag.uf))
  | 1 | 2 =>
    let p := f32ToE8 (fmt = 2) mode z.1
    let sub := e8Sub (fmt = 2) p.1.toNat
    ([if sub then p.1 &&& 0x80#8 else p.1], z.2 ||| p.2 ||| flagIf sub (Flag.flushed ||| Flag.uf))
  | 3 | 4 => let p := f32ToI8 (fmt = 3) z.1
    ([p.1], z.2 ||| p.2)
  | _ => (leBytes 4 (canonical z.1).toNat, z.2)

/-- One R47 pass over at most 64 element pairs. -/
def JobFx.dot (x : JobFx) (acc : W32) (a b : List W32) (at_ : Nat) : W32 × JobFx :=
  let r := dotPass acc (List.zipWith (fun u v => (f32Num u).mul (f32Num v)) a b)
  (r.1, (x.flag r.2).nan (produces r.1 (acc :: (a ++ b))) at_)

/-- Successive passes over chunks of 64 pairs (R287). -/
def JobFx.dotAll : Nat → JobFx → W32 → List W32 → List W32 → Nat → W32 × JobFx
  | 0, x, acc, _, _, _ => (acc, x)
  | n + 1, x, acc, a, b, at_ =>
    if a.isEmpty then (acc, x)
    else
      let r := x.dot acc (a.take 64) (b.take 64) at_
      JobFx.dotAll n r.2 r.1 (a.drop 64) (b.drop 64) at_

def JobFx.chunks (x : JobFx) (acc : W32) (a b : List W32) (at_ : Nat) : W32 × JobFx :=
  x.dotAll (a.length / 64 + 1) acc a b at_

/-- Pieces of an operand in pass order: last piece first for a split format (R51), each flushed. -/
def passes (fmt : Nat) (v : List W32) (x : JobFx) : List (List W32) × JobFx :=
  if fmt < 6 then ([v], x)
  else
    let n := fmt - 4
    let ps := v.map fun e => splitPieces e n
    let cols := ((List.range n).reverse).map fun i => ps.map fun l => flush (s16ToF32 (l.getD i 0#16))
    (cols.map fun l => l.map (·.1), x.flag ((cols.flatMap fun l => l.map (·.2)).foldl (· ||| ·) 0#8))

/-- The output stage of R288 after the first rounding: out_op with element i of E, then the conversion. -/
def Cx.stage (c : Cx) (g : Nat) (j : Job) (y : W32) (i : Nat) (x : JobFx) : List Byte × JobFx :=
  let out := j.ref refOut
  let o := out.off + i * fmtSize out.fmt
  let r : W32 × JobFx :=
    if j.outOp = 0 then (y, x)
    else
      let e := c.load g (j.ref refE) i 1 x
      let f := if j.outOp = 1 then f32Add else f32Mul
      e.2.op2 f y (e.1.headD 0#32) o
  let b := outBytes out.fmt j.rto r.1
  (b.1, r.2.flag b.2)

/-! ### DOT (R287) -/

/-- One row of a DOT: B stands widened, its passes in order. -/
def Cx.dotRow (c : Cx) (g : Nat) (j : Job) (b : List W32) (i : Nat) (x : JobFx) : Cx × JobFx :=
  let ra := j.ref refA
  let rb := j.ref refB
  let acc : ORef := ⟨true, j.accBase + 4 * i, 5⟩
  let out := j.ref refOut
  let o := if j.accMode = 0 || j.accMode = 3 then out.off + i * fmtSize out.fmt else acc.off
  let a := c.load g ra (i * j.length) j.length x
  let s : List W32 × JobFx := if j.accMode = 2 || j.accMode = 3 then c.load g acc 0 1 a.2 else ([0#32], a.2)
  let pa := passes ra.fmt a.1 s.2
  let pb := passes rb.fmt b pa.2
  let runs := if pa.1.length < pb.1.length then pb.1.map fun p => (a.1, p)
    else pa.1.map fun p => (p, pb.1.headD [])
  let r := runs.foldl (fun (p : W32 × JobFx) q => p.2.chunks p.1 q.1 q.2 o) (s.1.headD 0#32, pb.2)
  if j.accMode = 0 || j.accMode = 3 then
    let y := r.2.op2 f32Mul r.1 j.scale o
    let z := c.stage g j y.1 i y.2
    (c.newtPut g out.scratch out.off o z.1 z.2.bad, z.2)
  else (c.newtWrite g true acc.off (leBytes 4 r.1.toNat) r.2.bad, r.2)

/-- A whole DOT: rows in ascending order. -/
def Cx.runDot (c : Cx) (g : Nat) (j : Job) (x : JobFx) : Cx × JobFx :=
  let b := c.load g (j.ref refB) 0 j.length x
  (List.range j.count).foldl (fun (p : Cx × JobFx) i => p.1.dotRow g j b.1 i p.2) (c, b.2)

/-! ### ATTEND (R289 to R292) -/

/-- R204's tree with every sum flushed (R48). -/
def newtTree : Nat → JobFx → List W32 → Nat → W32 × JobFx
  | 0, x, v, _ => (v.headD 0#32, x)
  | k + 1, x, v, at_ =>
    match v with
    | [] => (0#32, x)
    | [a] => (a, x)
    | _ =>
      let m := powBelow v.length
      let l := newtTree k x (v.take m) at_
      let r := newtTree k l.2 (v.drop m) at_
      r.2.op2 f32Add l.1 r.1 at_

/-- MAX of Table 9.4 under R48. -/
def JobFx.max (x : JobFx) (a b : W32) : W32 × JobFx :=
  let r := newtOp2 f32Max a b
  (r.1, x.flag r.2)

/-- e^v of R276. -/
def JobFx.exp (x : JobFx) (v : W32) : W32 × JobFx :=
  let r := f32Exp v
  (r.1, x.flag r.2)

/-- S16_RNE of R289, widened back and flushed. -/
def JobFx.s16 (x : JobFx) (v : W32) : W32 × JobFx :=
  let p := f32ToS16 .rne v
  let z := flush (s16ToF32 p.1)
  (z.1, x.flag (p.2 ||| z.2))

/-- keep(t) of R292 for a token. -/
def Job.keeps (j : Job) (t : Nat) : Bool :=
  let e := (j.elemBase + t) % 2 ^ 48
  decide (mistSlice j.seed (newtCounter j.layer j.microBatch 0x10 e) e < j.keep16)

/-- Running values of an ATTEND: m, l and o[0 .. D-1]. -/
structure Triple where
  m : W32
  l : W32
  o : List W32
  deriving DecidableEq, Repr

/-- One tile of n tokens from token t0 (R289). -/
def Cx.tile (c : Cx) (g : Nat) (j : Job) (q : List W32) (t0 n : Nat) (p : Triple × JobFx) : Triple × JobFx :=
  let D := j.length
  let out := (j.ref refOut).off
  let at_ (f t : Nat) : Nat := (j.ref f).off + t * D * fmtSize (j.ref f).fmt
  let toks := (List.range n).map (t0 + ·)
  let sc := toks.foldl (fun (a : List W32 × JobFx) t =>
    let k := c.load g (j.ref refB) (t * D) D a.2
    let d := k.2.chunks 0#32 q k.1 (at_ refB t)
    let s := d.2.op2 f32Mul d.1 j.scale (at_ refB t)
    (a.1 ++ [s.1], s.2)) (([] : List W32), p.2)
  let m := p.1.m
  let mt := sc.1.foldl (fun (a : W32 × JobFx) s => a.2.max a.1 s) (m, sc.2)
  let cp : W32 × List W32 × JobFx :=
    if mt.1 = f32NegInf then (f32One, sc.1.map (fun _ => 0#32), mt.2)
    else
      let d := mt.2.op2 f32Sub m mt.1 out
      let e := d.2.exp d.1
      let ps := sc.1.foldl (fun (a : List W32 × JobFx) s =>
        let d := a.2.op2 f32Sub s mt.1 out
        let e := d.2.exp d.1
        let z := e.2.s16 e.1
        (a.1 ++ [z.1], z.2)) (([] : List W32), e.2)
      (e.1, ps.1, ps.2)
  let tr := newtTree 8 cp.2.2 cp.2.1 out
  let lc := tr.2.op2 f32Mul p.1.l cp.1 out
  let l := lc.2.op2 f32Add lc.1 tr.1 out
  let pd : List W32 × JobFx :=
    if j.dropout then
      let ks := f32Div (natToF32 65536) (natToF32 j.keep16)
      let l : W32 × JobFx := (l.1, l.2.flag ks.2)
      (List.range n).foldl (fun (a : List W32 × JobFx) i =>
        if j.keeps (t0 + i) then
          let r := a.2.op2 f32Mul (cp.2.1.getD i 0#32) ks.1 out
          let z := r.2.s16 r.1
          (a.1 ++ [z.1], z.2)
        else (a.1 ++ [0#32], a.2)) (([] : List W32), l.2)
    else (cp.2.1, l.2)
  let vs := toks.foldl (fun (a : List (List W32) × JobFx) t =>
    let v := c.load g (j.ref refC) (t * D) D a.2
    (a.1 ++ [v.1], v.2)) (([] : List (List W32)), pd.2)
  let o := (List.range D).foldl (fun (a : List W32 × JobFx) d =>
    let s := a.2.op2 f32Mul (p.1.o.getD d 0#32) cp.1 out
    let r := s.2.dot s.1 pd.1 (vs.1.map fun v => v.getD d 0#32) out
    (a.1 ++ [r.1], r.2)) (([] : List W32), vs.2)
  (⟨mt.1, l.1, o.1⟩, o.2)

/-- The tiles of an ATTEND in ascending order (R289); no token gives m = −∞, l = +0, o = +0 (R291). -/
def Cx.attend (c : Cx) (g : Nat) (j : Job) (x : JobFx) : Triple × JobFx :=
  let T := (c.newt g).tokens
  let start : Triple := ⟨f32NegInf, 0#32, List.replicate j.length 0#32⟩
  let q := c.load g (j.ref refA) 0 j.length x
  (List.range ((T + 63) / 64)).foldl (fun p i => c.tile g j q.1 (64 * i) (min 64 (T - 64 * i)) p) (start, q.2)

/-- The merge of R295: the incoming record first. -/
def mergeTriple (a b : Triple) (at_ : Nat) (x : JobFx) : Triple × JobFx :=
  let m := x.max a.m b.m
  let fac (v : W32) (x : JobFx) : W32 × JobFx :=
    if v = f32NegInf then (0#32, x)
    else
      let d := x.op2 f32Sub v m.1 at_
      d.2.exp d.1
  let c1 := fac a.m m.2
  let c2 := fac b.m c1.2
  let comb (u v : W32) (x : JobFx) : W32 × JobFx :=
    let p := x.op2 f32Mul u c1.1 at_
    let q := p.2.op2 f32Mul v c2.1 at_
    q.2.op2 f32Add p.1 q.1 at_
  let l := comb a.l b.l c2.2
  let o := (List.range b.o.length).foldl (fun (s : List W32 × JobFx) i =>
    let r := comb (a.o.getD i 0#32) (b.o.getD i 0#32) s.2
    (s.1 ++ [r.1], r.2)) (([] : List W32), l.2)
  (⟨m.1, l.1, o.1⟩, o.2)

def Triple.vals (t : Triple) : List W32 := t.m :: t.l :: t.o

def Triple.ofVals (v : List W32) : Triple := ⟨v.getD 0 0#32, v.getD 1 0#32, v.drop 2⟩

/-- The outputs of an ATTEND that sends nothing (R290). -/
def Cx.attendOut (c : Cx) (g : Nat) (j : Job) (t : Triple) (x : JobFx) : Cx × JobFx :=
  let out := j.ref refOut
  if j.isPartial then
    (c.newtWrite g out.scratch out.off (t.vals.flatMap fun v => leBytes 4 (canonical v).toNat) x.bad, x)
  else
    (List.range j.length).foldl (fun (p : Cx × JobFx) d =>
      let o := out.off + d * fmtSize out.fmt
      let y := p.2.op2 f32Div (t.o.getD d 0#32) t.l o
      let z := p.1.stage g j y.1 d y.2
      (p.1.newtPut g out.scratch out.off o z.1 z.2.bad, z.2)) (c, x)

/-! ### Starting and ending jobs (R282, R283, R293, R301, R303) -/

/-- A channel enters newt mode: its cache lines are written back first (R169, R278). -/
def Cx.enterMode (c : Cx) (g : Nat) (window : Option Nat) : Cx :=
  (c.flushChannel g).modNewt g fun n => { n with mode := true, window := window }

/-- Some newt holds job i of a command. -/
def Cx.jobHeld (c : Cx) (st : StreamId) (num : W32) (i : Nat) : Bool :=
  c.newts.any fun p => (p.2.job.bind (·.origin)) = some (st, num, i) || (p.2.wait.bind (·.origin)) = some (st, num, i)

/-- Job i of a NEWT_JOB in flight. -/
def Flight.job (f : Flight) (st : StreamId) (i : Nat) : Job :=
  { desc := (f.data.drop (128 * i)).take 128, origin := some (st, f.number, i) }

/-- Submit the next jobs of a NEWT_JOB: in list order on each channel, through the slots (R293 steps 4 and 5). -/
def Cx.submitJobs (c : Cx) (st : StreamId) (f : Flight) : Cx :=
  let todo := f.awaits.filter fun i => !c.jobHeld st f.number i
  (todo.foldl (fun (p : Cx × List Nat) i =>
    let j := f.job st i
    let g := j.channel
    let n := p.1.newt g
    if p.2.contains g || n.exiting || (n.job.isSome && n.wait.isSome) then (p.1, g :: p.2)
    else
      let c := if n.mode then p.1 else p.1.enterMode g none
      let t := c.drawOpen 0x51
      (t.2.takeJob g { j with tag := t.1.setWidth 32 }, p.2)) (c, [])).1

/-- A NEWT_JOB whose jobs have all ended completes (R293 step 6). -/
def Cx.endNewtJob (c : Cx) (st : StreamId) (f : Flight) : Cx :=
  if !f.awaits.isEmpty then c
  else if f.worst = stOk then c.finish st f.number stOk (f.arg 24 12 0) 0#8
  else if f.worst = stRetry then
    let r := retryLater c
    Cx.settle r st f.number
  else c.finish st f.number f.worst f.result.toNat 0#8

/-- Job i of a NEWT_JOB ended: its flags, its status, and the first poisoned byte of the least job that read poison. -/
def Cx.jobEnded (c : Cx) (st : StreamId) (num : W32) (i : Nat) (fl : Flags) (status off : Nat) : Cx :=
  let c := c.modFlight st num fun f =>
    let first := status = stPoison && (f.worst != stPoison || decide (i < bits f.result.toNat 44 32))
    { f with awaits := f.awaits.filter (· != i), flags := f.flags ||| fl, worst := max f.worst status
             result := if first then BitVec.ofNat 64 (off % 2 ^ 32 + i * 2 ^ 32) else f.result }
  match c.flight? st num with
  | some f => (c.submitJobs st f).endNewtJob st (((c.submitJobs st f).flight? st num).getD f)
  | none => c

/-- The running job ends: what the newt records of it, then the waiting job starts; when none waits the newt is ready
(R283). `why` is the refusal code of a job that failed, `status` what its NEWT_JOB hears. -/
def Cx.endJob (c : Cx) (g : Nat) (why : Option Nat) (status : Nat) : Cx :=
  let n := c.newt g
  match n.job with
  | none => c
  | some j =>
    let c := c.orFlags (nwtFlagsReg g) n.flags
    let off := n.poisoned <|> n.tainted
    let c := c.modNewt g fun n => { n with
      job := n.wait, wait := none, lastTag := j.tag, lastFlags := n.flags, lastPoison := off.isSome
      poisonOff := off.getD n.poisonOff
      error := why.getD n.error, errorValid := n.errorValid || why.isSome
      tokens := (n.wait.map c.tokens).getD 0
      flags := 0#8, poisoned := none, tainted := none, tad := none, partialTriple := none, merged := false
      chainWait := false, suspended := false, asked := false }
    let c := (c.settleGrant g).takeStore g
    let c := c.endApply
    match j.origin with
    | some o => c.jobEnded o.1 o.2.1 o.2.2 n.flags status (off.getD 0)
    | none => c

/-- What the NEWT_JOB of a job that ran hears of it (R293). -/
def Newt.jobStatus (n : Newt) : Nat := if n.poisoned.isSome || n.tainted.isSome then stPoison else stOk

/-- The running job ends as it stands. -/
def Cx.closeJob (c : Cx) (g : Nat) : Cx := c.endJob g none (c.newt g).jobStatus

/-- Keep what a stretch of a job gathered: its flags, its NaNs toward the arbiter (R305), and the one
`NEWT_POISON_READ` of the job (R301). -/
def Cx.keepFx (c : Cx) (g pc : Nat) (x : JobFx) : Cx :=
  let n := c.newt g
  match n.job with
  | none => c
  | some j =>
    let rec_ (e : Nat) : NanRec := { step := none, unitClass := 1, index := g
                                     stream := (j.origin.map fun o => o.1.toNat).getD 0
                                     command := (j.origin.map fun o => o.2.1.toNat).getD 0
                                     element := e, pc := pc, die := homeDie (g / 32) }
    let c := x.nans.foldl (fun c e => c.nan (rec_ e)) c
    let c := c.modNewt g fun n => { n with flags := n.flags ||| x.fl, poisoned := n.poisoned <|> x.poison }
    match n.poisoned, x.poison with
    | none, some o =>
      match j.origin with
      | some r => c.newtEv 0x5003 2 g [r.1.toNat, r.2.1.toNat, o]
      | none => c.newtEv 0x5003 2 g [j.tag.toNat, o]
    | _, _ => c

/-- What a job's next stretch starts from. -/
def Newt.fx (n : Newt) : JobFx := { poison := n.poisoned, taint := n.tainted.isSome }

/-- The running job counts as poisoned from now on without a poisoned read; the offset it then shows is open. -/
def Cx.taint (c : Cx) (g : Nat) : Cx :=
  let o := c.drawOpen 0x51
  o.2.modNewt g fun n => { n with tainted := n.tainted <|> some (o.1.toNat % 2 ^ 32) }

/-! ### The neighbour chain (R295) -/

/-- Send or write the triple of an ATTEND that has merged what it was to receive (R290). A send waits for the successor's
buffer; outputs in the channel wait for a grant. -/
def Cx.deliverAttend (c : Cx) (g : Nat) (j : Job) (r : ChainRec) : Cx :=
  let n := c.newt g
  if j.chainSend then
    let d := c.neighbour true g
    if (c.newt d).takesRecord then
      (c.modNewt d fun m => { m with arriving := some { r with poison := r.poison || n.fx.bad } }).closeJob g
    else c
  else if j.outUsesChannel && (n.suspended || !c.hasGrant g) then c.settleGrant g
  else
    let p := c.attendOut g j (Triple.ofVals r.vals) n.fx
    (p.1.keepFx g 0 p.2).closeJob g

/-- Finish an ATTEND whose own triple stands: merge, then send or write (R290, R295). -/
def Cx.finishAttend (c : Cx) (g : Nat) (j : Job) : Cx :=
  let n := c.newt g
  match n.partialTriple with
  | none => c
  | some own =>
    if j.chainRecv && !n.merged then
      match n.buffer with
      | none => (c.modNewt g fun n => { n with chainWait := true }).settleGrant g
      | some r =>
        let c := c.modNewt g fun n => { n with buffer := none, chainWait := false }
        if r.vals.length != 2 + j.length then (c.taint g).endJob g (some 0x0A) stPoison
        else
          let c := if r.poison then c.taint g else c
          let m := mergeTriple (Triple.ofVals r.vals) (Triple.ofVals own.vals) (j.ref refOut).off (c.newt g).fx
          let rec_ : ChainRec := ⟨m.1.vals, own.poison || r.poison⟩
          let c := (c.keepFx g 0 m.2).modNewt g fun n => { n with partialTriple := some rec_, merged := true }
          c.deliverAttend g j rec_
    else c.deliverAttend g j own

/-- A predecessor that waits to send proceeds into the freed buffer. -/
def Cx.resumeSender (c : Cx) (g : Nat) : Cx :=
  let p := c.neighbour false g
  match (c.newt p).job with
  | some j => if j.kind = 1 && j.chainSend && (c.newt p).partialTriple.isSome then c.finishAttend p j else c
  | none => c

/-- CHAIN_RECORD (R295): the record on the link reaches the buffer; an ATTEND that waits for it merges it. -/
def execChainRecord (ch : Fin 640) (s : State) : R :=
  let c := s.cx
  let n := c.newt ch
  match n.arriving with
  | none => s.go c
  | some r =>
    if n.buffer.isSome then s.go c
    else
      let c := c.modNewt ch fun n => { n with buffer := some r, arriving := none }
      match n.job with
      | some j =>
        if j.kind = 1 && n.partialTriple.isSome && j.chainRecv && !n.merged then
          s.go ((c.finishAttend ch j).resumeSender ch)
        else s.go (c.resumeSender ch)
      | none => s.go (c.resumeSender ch)

/-! ### Running jobs -/

/-- The running job of a kind, free to stream: granted when it uses its channel, not suspended. -/
def Cx.runningJob (c : Cx) (g kind : Nat) : Option Job :=
  match (c.newt g).job with
  | some j =>
    if j.kind = kind && !(c.newt g).suspended && (!j.usesChannel (c.newt g).tokens || c.hasGrant g) then some j else none
  | none => none

/-- DOT_JOB (R287): the running DOT job runs to its end. -/
def execDotJob (ch : Fin 640) (s : State) : R :=
  let c := s.cx
  match c.runningJob ch 0 with
  | none => s.go c
  | some j =>
    let p := c.runDot ch j (c.newt ch).fx
    s.go ((p.1.keepFx ch 0 p.2).closeJob ch)

/-- ATTEND_JOB (R289): the running ATTEND computes its triple and ends, or waits on the chain. -/
def execAttendJob (ch : Fin 640) (s : State) : R :=
  let c := s.cx
  match (c.newt ch).job with
  | none => s.go c
  | some j =>
    if j.kind != 1 then s.go c
    else if (c.newt ch).partialTriple.isSome then s.go ((c.finishAttend ch j).resumeSender ch)
    else match c.runningJob ch 1 with
      | none => s.go c
      | some j =>
        let p := c.attend ch j (c.newt ch).fx
        let c := c.keepFx ch 0 p.2
        let c := c.modNewt ch fun n => { n with partialTriple := some ⟨p.1.vals, p.2.bad⟩, merged := false }
        s.go ((c.finishAttend ch j).resumeSender ch)

/-! ### The newt window's rows (R280 to R283) -/

/-- NEWT_WINDOW_JOB_WRITE (R280): a hub-side write to the JOB entry of a channel's window. -/
def execNewtWindowJobWrite (ch : Fin 640) (off : Nat) (data : List Byte) (s : State) : R :=
  let c := s.cx
  if (c.newt ch).window.isNone then s.go c
  else if off < 0x80 then s.go (c.windowWrite ch off data)
  else s.go (c.windowDrop ch off data.length true)

/-- NEWT_WINDOW_GO (R282): a write to the GO entry. -/
def execNewtWindowGo (ch : Fin 640) (size : Nat) (v : W64) (s : State) : R :=
  let c := s.cx
  if (c.newt ch).window.isNone then s.go c
  else s.go (c.windowWrite ch 0x80 (leBytes size v.toNat))

/-- NEWT_WINDOW_SCRATCHPAD (R280): an access to the scratchpad view; a read's data leaves through the home die. -/
def execNewtWindowScratchpad (ch : Fin 640) (off size : Nat) (write : Option (List Byte)) (s : State) : R :=
  let c := s.cx
  if (c.newt ch).window.isNone then s.go c
  else match write with
    | some d => s.go (if 0x8000 ≤ off then c.windowWrite ch off d else c.windowDrop ch off d.length true)
    | none =>
      if 0x8000 ≤ off then
        let r := c.windowRead ch off size
        s.go (r.1.emit (.read (homeDie (ch / 32)) r.2))
      else s.go ((c.windowDrop ch off size false).emit (.read (homeDie (ch / 32)) (List.replicate size 0#8)))

/-! ### The command register area and re-initialisation (R294, R303, R304) -/

/-- Bytes of NWT_DESC[0..31]. -/
def Cx.descRegs (c : Cx) (g : Nat) : List Byte :=
  (List.range 32).flatMap fun w => leBytes 4 (c.reg (nwtBase g + 0x40 + 4 * w)).toNat

/-- NWT_GO (R294). -/
def execNwtGo (ch : Fin 640) (tag : W32) (s : State) : R := s.go (s.cx.goJob ch (s.cx.descRegs ch) tag 1)

/-- A job that reinit ends: its command hears RETRY_LATER and starts no further job; a GO's job records 0x0B. -/
def Cx.dropJob (c : Cx) (g : Nat) : Cx :=
  match (c.newt g).job with
  | none => c
  | some j =>
    let c := match j.origin with
      | some o => c.modFlight o.1 o.2.1 fun f => { f with
          awaits := f.awaits.filter fun i => c.jobHeld o.1 o.2.1 i, worst := max f.worst stRetry }
      | none => c
    c.endJob g (if j.origin.isNone then some 0x0B else none) stRetry

/-- NWT_REINIT (R303): NWT_CTRL.reinit. -/
def execNwtReinit (ch : Fin 640) (s : State) : R :=
  let c := s.cx
  let n := c.newt ch
  let ended := b2n n.job.isSome + b2n n.wait.isSome
  let c := (c.dropJob ch).dropJob ch
  let c := (c.modNewt ch fun n => { n with buffer := none, suspended := false, forced := false }).resumeSender ch
  s.go (c.newtEv 0x5006 1 ch [ended])

/-- NWT_CLEAR_COUNTERS (R304). -/
def execNwtClearCounters (ch : Fin 640) (s : State) : R :=
  s.go ((s.cx.ctrClear (nwtBase ch + 0x20)).ctrClear (nwtBase ch + 0x28))

/-! ### Bank-compute admission and refresh (R298 to R300) -/

/-- Class of largest credit among the waiting ones; ties go to the lowest (R159). -/
def Arb.richest (credit : List Int) (waiting : List Nat) : Option Nat :=
  waiting.find? fun k => waiting.all fun x => credit.getD x 0 ≤ credit.getD k 0

/-- One slot of a resource (R159): the class that it goes to, and the counts after it. The waiting classes are in
ascending order. -/
def Arb.slot (a : Arb) (share weight waiting : List Nat) : Option Nat × Arb :=
  let after (a : Arb) : Arb :=
    if a.slots + 1 ≥ 256 then { a with slots := 0, served := List.replicate 6 0 } else { a with slots := a.slots + 1 }
  match waiting.find? fun k => a.served.getD k 0 < share.getD k 0 with
  | some k => (some k, after { a with served := a.served.set k (a.served.getD k 0 + 1) })
  | none =>
    let credit := (List.range 6).map fun k =>
      if waiting.contains k then a.credit.getD k 0 + ((weight.getD k 0 : Nat) : Int) else 0
    match Arb.richest credit waiting with
    | none => (none, a)
    | some k =>
      let sum := (waiting.map fun x => weight.getD x 0).sum
      (some k, after { a with credit := credit.set k (credit.getD k 0 - (sum : Int)) })

/-- Give channel k of a stack a grant: one slot of the admission unit's arbiter, to class 0, the class of every
bank-compute request (R159, R298). -/
def Cx.giveGrant (c : Cx) (s k : Nat) : Cx :=
  let r := c.img.cfg.map fun g => (g.streams.share, g.streams.weight)
  c.modStk s fun x => { x with
    grants := nput x.grants k, grantQueue := x.grantQueue.filter (· != k)
    admission := (x.admission.slot (r.getD ([], [])).1 (r.getD ([], [])).2 [0]).2 }

/-- Next channel to serve: the first of the round robin that still has demand and is not in refresh (R23). Class 0 holds
every request, so each slot goes to that class. -/
def Cx.nextGrant (c : Cx) (s : Nat) : Option Nat :=
  (c.stk s).grantQueue.find? fun k => c.channelDemand (s * 32 + k) && !(c.stk s).refreshing.contains k

/-- GRANT (R298): the admission unit serves the next waiting channel; a suspended newt resumes (R299). -/
def execGrant (stk : Fin 20) (s : State) : R :=
  let c := s.cx
  if (c.grantsHeld stk).length ≥ c.grantLimit stk then s.go c
  else match c.nextGrant stk with
    | none => s.go c
    | some k =>
      s.go ((c.giveGrant stk k).modNewt (stk.val * 32 + k) fun n => { n with suspended := n.suspended && !n.asked, asked := false })

/-- GRANT_WINDOW_END (R298): the window ends; a channel with demand left joins the back of the round robin. -/
def execGrantWindowEnd (ch : Fin 640) (s : State) : R :=
  if s.cx.hasGrant ch then s.go ((s.cx.dropGrant ch).settleGrant ch) else s.go s.cx

/-- The channel's newt streams an operand: its running job uses the grant that the channel holds. -/
def Cx.streaming (c : Cx) (g : Nat) : Bool := c.hasGrant g && c.newtDemand g && !(c.newt g).suspended

/-- REFRESH_DUE (R299, R300): a refresh ends the channel's grant, and no grant is given while it is under way (R23). A newt
that streams is suspended, at its granule boundary or, when a fifth refresh falls due, at its next access. -/
def execRefreshDue (ch : Fin 640) (forced : Bool) (s : State) : R :=
  let c := s.cx
  let streaming := c.streaming ch
  let c := (c.dropGrant ch).modStk (ch / 32) fun k => { k with refreshing := nput k.refreshing (ch % 32) }
  if !streaming then s.go (c.settleGrant ch)
  else
    let c := (c.modNewt ch fun n => { n with suspended := true, asked := false, forced := forced }).settleGrant ch
    if forced then s.go ((c.bump (nwtBase ch + 0x34) 31 (homeDie (ch / 32))).newtEv 0x5004 0 ch [4]) else s.go c

/-- REFRESH_DONE (R299): after the last refresh the newt requests a grant, once for its suspension. -/
def execRefreshDone (ch : Fin 640) (s : State) : R :=
  let c := s.cx.modStk (ch / 32) fun k => { k with refreshing := ndel k.refreshing (ch % 32) }
  let n := c.newt ch
  if !n.suspended || n.asked then s.go c
  else
    let c := if n.forced then c else c.bump (nwtBase ch + 0x30) 31 (homeDie (ch / 32))
    s.go ((c.modNewt ch fun n => { n with forced := false, asked := true }).settleGrant ch)

/-! ### NEWT_MODE (R277 to R279) -/

/-- Named channels of a mask. -/
def maskChannels (s mask : Nat) : List Nat := ((List.range 32).filter (bit mask)).map (s * 32 + ·)

/-- Enter newt mode on one channel, or change its window, when it may change now. -/
def Cx.tryEnter (c : Cx) (g : Nat) (window : Option Nat) : Option Cx :=
  let n := c.newt g
  if n.exiting then none
  else if !n.mode then some (c.enterMode g window)
  else if n.ready then some (c.modNewt g fun n => { n with window := window })
  else none

/-- Leave newt mode on every named channel, once every one's newt is ready (R279). -/
def Cx.tryExit (c : Cx) (gs : List Nat) : Option Cx :=
  if gs.all fun g => !(c.newt g).mode || (c.newt g).ready then
    some (gs.foldl (fun c g => c.modNewt g fun n => { n with mode := false, window := none, exiting := false }) c)
  else none

/-- Change the channels that may change; the rest stay in the command's list. -/
def Cx.changeAll (c : Cx) (gs : List Nat) (f : Cx → Nat → Option Cx) : Cx × List Nat :=
  gs.foldl (fun p g => match f p.1 g with | some c => (c, p.2) | none => (p.1, p.2 ++ [g])) (c, [])

def bodyNewtMode : Body := fun st f c =>
  let s := f.arg 16 4 0
  let exit_ := f.bit 16 32
  let window := f.bit 16 33
  let mask := f.arg 24 31 0
  let base := f.arg 32 31 0
  let gs := maskChannels s mask
  let go (c : Cx) (gs : List Nat) : Cx × Res :=
    let r := if exit_ then (match c.tryExit gs with | some c => (c, []) | none => (c, gs))
      else c.changeAll gs fun c g => c.tryEnter g (if window then some base else none)
    if r.2.isEmpty then okOpen r.1 0x50
    else (r.1.modFlight st f.number fun g => { g with phase := 1, awaits := r.2 }, .wait .other)
  if f.phase = 1 then go c f.awaits
  else if s > 19 || !c.active s || mask = 0 || (window && exit_) || base % 65536 != 0 then (c, .halt haltDecode)
  else
    let addr (g : Nat) : Nat := 2 ^ 60 + g * 2 ^ 32 + base
    let bad := if window then gs.find? (fun g => !(c.regionAt g base).any fun b => decide (base + 65536 ≤ b.2)) else none
    match bad with
    | some g => badOperand c st f 3 (addr g) ((c.checkRange .write (addr g) 65536).getD 0)
    | none =>
      match gs.find? (fun g => !exit_ && (c.newt g).retired) with
      | some g => refuseFenced c g
      | none =>
        if c.stackBusy s || c.needsTwin (c.dieOf st) s then retryLater c
        else go (if exit_ then gs.foldl (fun c g =>
          if (c.newt g).mode then c.modNewt g fun n => { n with exiting := true } else c) c else c) gs

/-- NEWT_MODE (R278). -/
def execNewtMode (st : StreamId) (s : State) : R := s.go (s.cx.runStream 0x50 bodyNewtMode st)

/-! ### NEWT_JOB (R293) -/

/-- Contexts that the ctx descriptors of a list name. -/
def jobContexts (js : List Job) : List Nat :=
  (js.filter fun j => j.kind = 1 && j.ctx).foldl (fun l j => nput l (bits j.count 9 0)) []

/-- A record of a context is on its way: its new count is not known yet. -/
def Cx.contextPending (c : Cx) (ns : List Nat) : Bool :=
  (c.journal.queue ++ c.journal.entries).any fun e => !e.acked && (match e.body with
    | .context n _ _ => ns.contains n
    | _ => false)

/-- Token counts advanced once each (R293 step 3): a change of mirrored state, so it goes through the journal (R366). -/
def Cx.advance (c : Cx) (st : StreamId) (num : W32) (ns : List Nat) : Cx :=
  let c := ns.foldl (fun c n =>
    let e := kget (0#32, 0#32) c.attCtx n
    let t := if e.1 = 0xFFFFFFFF#32 then e.1 else e.1 + 1#32
    c.submit c.master (.context n t e.2) (some (st, num))) c
  c.modFlight st num fun f => { f with owed := f.owed + ns.length }

/-- R293 step 1 for one descriptor: code and field offset. -/
def Cx.badJob (c : Cx) (j : Job) : Option (Nat × Nat) :=
  if j.channel ≥ 640 || !c.active (j.channel / 32) then some (3, 0x56) else c.checkDesc j.channel j

/-- Device address that an operand field of a descriptor names: a channel or a scratchpad of the job's channel. -/
def Job.operandAddr (j : Job) (field : Nat) : Nat :=
  let r := if field = 0x38 then (⟨true, j.accBase, 5⟩ : ORef) else j.ref field
  if r.scratch then 3 * 2 ^ 60 + 2 * 2 ^ 44 + j.channel * 2 ^ 32 + r.off else 2 ^ 60 + j.channel * 2 ^ 32 + r.off

def bodyNewtJob : Body := fun st f c =>
  let addr := f.arg 16 63 0
  let n := f.arg 24 12 0
  if f.phase = 3 then
    if f.owed != 0 then (c, .wait .other)
    else ((c.modFlight st f.number fun x => { x with phase := 1 }).submitJobs st { f with phase := 1 }, .wait .other)
  else if f.phase = 1 then (c.submitJobs st f, .wait .other)
  else if n = 0 || n > 4096 then (c, .halt haltDecode)
  else if addr % 128 != 0 || !([0, 3, 4].contains (bits addr 63 60)) then badOperand c st f 1 addr 0
  else match c.badOperand? st f .read 1 addr (128 * n) with
    | some r => r
    | none =>
      match c.hubPoison addr (128 * n) with
      | some off => (c, .done stPoison off)
      | none =>
        let rd := c.hubRead addr (128 * n)
        let c := rd.1
        let js := (List.range n).map fun i => ({ desc := (rd.2.drop (128 * i)).take 128 } : Job)
        let d := c.dieOf st
        match (List.range n).findSome? fun i => (c.badJob (js.getD i { desc := [] })).map fun e => (i, e) with
        | some (i, e) =>
          let c := if e.1 = 4 then c.addrInvalid d 0 st f.number 1 ((js.getD i { desc := [] }).operandAddr e.2) else c
          (c.ev 0x5002 6 2 d d.num [st.toNat, f.number.toNat, 128 * i + e.2, e.1], .done stPoison (128 * i + e.2))
        | none =>
          match js.find? fun j => (c.newt j.channel).retired with
          | some j => refuseFenced c j.channel
          | none =>
            if js.any fun j => c.stackBusy (j.channel / 32) || c.needsTwin d (j.channel / 32) then retryLater c
            else
              let ns := if f.bit 24 32 then jobContexts js else []
              if !ns.isEmpty && c.noMaster st then retryLater c
              else if c.contextPending ns then (c, .wait .other)
              else
                let ph := if ns.isEmpty then 1 else 3
                let g := { f with phase := ph, data := rd.2, awaits := List.range n }
                let c := c.modFlight st f.number fun x => { x with phase := ph, data := rd.2, awaits := List.range n }
                if ns.isEmpty then (c.submitJobs st g, .wait .other) else (c.advance st f.number ns, .wait .other)

/-- NEWT_JOB (R293). -/
def execNewtJob (st : StreamId) (s : State) : R := s.go (s.cx.runStream 0x51 bodyNewtJob st)

end Sys2Proof.Machine
end

