-- ==== Sys2Proof/Machine/BasicCmds.lean ====
section
/-!
DEFINITION. The stream commands of chapters 6 and 7: NOP, COPY, sync objects, FENCE, FLUSH_RANGE and the micro-batch
queues, with their remote halves (R355).
-/
namespace Sys2Proof.Machine

/-! ### NOP (R145) -/

def bodyNop : Body := fun _ _ c => okOpen c 0x00

/-- NOP (R145). -/
def execNop (st : StreamId) (s : State) : R := s.go (s.cx.runStream 0x00 bodyNop st)

/-! ### Reaching an operand (R17, Table 6.5) -/

/-- R64, R65 and Table 6.5 for the operands of a command, each with its access, position, address and length: the first that
fails the check of R64 ends it `POISONED`; a refusal outranks `RETRY_LATER` (R151). -/
def Cx.refuseOperands (c : Cx) (st : StreamId) (f : Flight) (ops : List (Acc × Nat × Nat × Nat)) : Option (Cx × Res) :=
  match ops.find? fun o => (c.checkRange o.1 o.2.2.1 o.2.2.2).isSome with
  | some o => some (badOperand c st f o.2.1 o.2.2.1 ((c.checkRange o.1 o.2.2.1 o.2.2.2).getD 0))
  | none =>
    match (ops.filterMap fun o => c.away? (c.dieOf st) o.2.2.1).find? fun r => r.1 = stFenced with
    | some r => some (refuseFenced c r.2)
    | none => if ops.any fun o => (c.away? (c.dieOf st) o.2.2.1).isSome then some (retryLater c) else none

/-- A stream wrote host memory through a port (Table 7.3). -/
def Cx.noteWrite (c : Cx) (st : StreamId) (a : Nat) : Cx :=
  if bits a 63 60 = 4 then c.modStrm st.toNat fun x => { x with wroteHost := nput x.wroteHost (bits a 57 57) } else c

/-- A stream wrote to a node in a virtual channel (Table 7.5, R355). -/
def Cx.noteNode (c : Cx) (st : StreamId) (node vc : Nat) : Cx :=
  c.modStrm st.toNat fun x =>
    if x.wroteNodes.contains (node, vc) then x else { x with wroteNodes := x.wroteNodes ++ [(node, vc)] }

/-! ### COPY (R66, Table 6.7) -/

/-- Pieces of at most 4,096 bytes of n bytes: offset and length (R355). -/
def chunksOf (n : Nat) : List (Nat × Nat) := (List.range ((n + 4095) / 4096)).map fun i => (4096 * i, min 4096 (n - 4096 * i))

/-- Convert one element: source bytes to destination bytes, flags, and whether a NaN was read (Tables 2.3, 6.7). -/
def copyElem (conv : Nat) (rto : Bool) (src : List Byte) : List Byte × Flags × Bool :=
  let v := leNat src
  let mode : Rnd := if rto then .rto else .rne
  let go (a b : Fmt) (m : Rnd) : List Byte × Flags × Bool :=
    let r := convert a b m v
    (leBytes 1 r.1, r.2, (a.unpack v).isNan)
  match conv with
  | 1 => go .s16 .e8a .rne
  | 2 => go .s16 .e8b .rne
  | 3 => go .e8a .e8b .rne
  | 4 => go .e8b .e8a .rne
  | 5 => go .f32 .e8a mode
  | 6 => go .f32 .e8b mode
  | _ => (src, 0#8, false)

/-- Convert a run of source bytes: destination bytes, flags, and the byte offsets of the NaNs read. -/
def copyBytes (conv : Nat) (rto : Bool) (src : List Byte) : List Byte × Flags × List Nat :=
  if conv = 0 then (src, 0#8, [])
  else
    let z := (copySize conv).1
    let r := (List.range (src.length / z)).map fun i => (z * i, copyElem conv rto ((src.drop (z * i)).take z))
    (r.flatMap (fun p => p.2.1), (r.map fun p => p.2.2.1).foldl (· ||| ·) 0#8, (r.filter fun p => p.2.2.2).map (·.1))

/-- NaNs that a converting COPY read (R58). -/
def Cx.copyNans (c : Cx) (st : StreamId) (f : Flight) (offs : List Nat) : Cx :=
  let d := c.dieOf st
  offs.foldl (fun c o => c.nan { step := none, unitClass := 5, index := d.num, stream := st.toNat
                                 command := f.number.toNat, element := o, die := d }) c

/-- Node of a remote COPY. -/
def Flight.copyNode (f : Flight) : BitVec 17 := BitVec.ofNat 17 (f.arg 40 20 4)

/-- Write a COPY's bytes at its destination: here, or at the node in WRITE messages. -/
def Cx.copyOut (c : Cx) (st : StreamId) (f : Flight) (src : List Byte) : Cx × Res :=
  let dst := f.arg 24 63 0
  let r := copyBytes (f.arg 40 2 0) (f.bit 40 3) src
  let c := c.copyNans st f r.2.2
  let c := c.modFlight st f.number fun g => { g with flags := g.flags ||| r.2.1 }
  let c := c.orFlags (hubFlagsReg (c.dieOf st)) r.2.1
  if f.bit 40 22 then
    if r.1.isEmpty then (c, .done stOk 0)
    else
      let c := c.noteNode st f.copyNode.toNat 0
      let c := (chunksOf r.1.length).foldl (fun c p => c.request st f.number 0x01 0 f.copyNode
        (BitVec.ofNat 64 (dst + p.1)) 0#64 p.2 ((r.1.drop p.1).take p.2) p.1 p.2) c
      (c.modFlight st f.number fun g => { g with phase := 2 }, .wait .fabricCredit)
  else (((c.hubWrite dst r.1).noteWrite st dst), .done stOk r.1.length)

def bodyCopy : Body := fun st f c =>
  let src := f.arg 16 63 0
  let dst := f.arg 24 63 0
  let n := f.arg 32 63 0
  let conv := f.arg 40 2 0
  let z := copySize conv
  let remoteSrc := f.bit 40 21
  let remoteDst := f.bit 40 22
  let bytes := n / z.1 * z.2
  if f.phase != 0 then
    -- the responses have come (R354, R151), or are still awaited
    if !f.awaits.isEmpty then (c, .wait .fabricCredit)
    else if f.worst > 2 then (c, .done f.worst f.result.toNat)
    else if f.phase = 1 then c.copyOut st f f.data
    else (c, .done stOk bytes)
  else if conv = 7 || n % z.1 != 0 then (c, .halt haltDecode)
  else
    let far (remote : Bool) (pos a : Nat) : Option (Cx × Res) :=
      if remote && decide (bits a 63 60 > 3) then some (badOperand c st f pos a 0) else none
    let near (remote : Bool) (o : Acc × Nat × Nat × Nat) : List (Acc × Nat × Nat × Nat) := if remote then [] else [o]
    let node := f.copyNode.toNat
    let srcOp : Acc × Nat × Nat × Nat := (.read, 1, src, n)
    let dstOp : Acc × Nat × Nat × Nat := (.write, 2, dst, bytes)
    let srcBad := match far remoteSrc 1 src with
      | some r => some r
      | none => if remoteSrc then none else
        (c.checkRange .read src n).map fun off => badOperand c st f 1 src off
    match srcBad, far remoteDst 2 dst with
    | some r, _ | none, some r => r
    | none, none =>
      if (remoteSrc || remoteDst) && c.fab.unreachable.contains node
          && ((near remoteDst dstOp).all fun o => (c.checkRange o.1 o.2.2.1 o.2.2.2).isNone) then refuseFenced c node
      else match c.refuseOperands st f (near remoteSrc srcOp ++ near remoteDst dstOp) with
      | some r => r
      | none =>
        if remoteSrc then
          if n = 0 then c.copyOut st f []
          else
            let c := (chunksOf n).foldl (fun c p => c.request st f.number 0x02 0 f.copyNode
              (BitVec.ofNat 64 (src + p.1)) 0#64 p.2 [] p.1 p.2) c
            (c.modFlight st f.number fun g => { g with phase := 1, data := List.replicate n 0#8 }, .wait .fabricCredit)
        else
          match c.hubPoison src n with
          | some off => (c, .done stPoison off)
          | none =>
            let r := c.hubRead src n
            r.1.copyOut st f r.2

/-- COPY (R66). -/
def execCopy (st : StreamId) (s : State) : R := s.go (s.cx.runStream 0x01 bodyCopy st)

/-! ### Sync objects (R153 to R155) -/

def Cx.sync (c : Cx) (o : Nat) : W64 := kget 0#64 c.syncs o

/-- Lines and dirty bytes of every active stack written back: complex-scope release work (Table 7.3). -/
def Cx.releaseComplex (c : Cx) : Cx := c.writeBack fun k => c.active (k / 2 ^ 37)

/-- An acquire: the stream's fetch cache is invalidated (R173). -/
def Cx.acquire (c : Cx) (st : StreamId) : Cx := c.modStrm st.toNat fun x => { x with cache := [] }

/-- Waits that an object's value now satisfies complete (R155). -/
def Cx.wakeWaits (c : Cx) (o : Nat) : Cx :=
  let v := c.sync o
  c.streams.foldl (fun c p => p.2.flights.foldl (fun c f =>
    let st : StreamId := BitVec.ofNat 12 p.1
    if f.op = 0x11 && f.status.isNone && f.arg 16 12 0 = o && newerEq v (BitVec.ofNat 64 (f.arg 24 63 0))
        && !c.noMaster st then
      let r := okOpen (c.acquire st) 0x11
      Cx.settle r st f.number
    else c) c) c

/-- A signal takes effect at the journal master (R154): the object's new value, or none when it does not compare
NEWER. -/
def Cx.takeSignal (c : Cx) (o : Nat) (v : W64) : Option Cx :=
  if newer v (c.sync o) then some ({ c with syncs := kset 0#64 c.syncs o v }.wakeWaits o) else none

/-- A SIGNAL's record is held by the journal: it takes effect and the command completes (R154, R366). -/
def Cx.endSignal (c : Cx) (st : StreamId) (num : W32) (o : Nat) (v : W64) : Cx :=
  match c.takeSignal o v with
  | some c =>
    let r := okOpen c 0x10
    Cx.settle r st num
  | none =>
    let d := c.dieOf st
    (c.ev 0x3003 6 1 d d.num [o, (c.sync o).toNat, v.toNat, st.toNat, num.toNat]).finish st num stOk (c.sync o).toNat 0#8

def bodySignal : Body := fun st f c =>
  if f.phase = 1 then (c, .wait .other)
  else if c.noMaster st then retryLater c
  else if c.earlier st f then (c, .wait .other)
  else
    let c := c.releaseComplex
    let c := c.modFlight st f.number fun g => { g with phase := 1, owed := g.owed + 1 }
    (c.submit (c.dieOf st) (.sync (f.arg 16 12 0) (BitVec.ofNat 64 (f.arg 24 63 0))) (some (st, f.number)), .wait .other)

/-- SIGNAL (R154). -/
def execSignal (st : StreamId) (s : State) : R := s.go (s.cx.runStream 0x10 bodySignal st)

def bodyWait : Body := fun st f c =>
  if c.noMaster st then retryLater c
  else if newerEq (c.sync (f.arg 16 12 0)) (BitVec.ofNat 64 (f.arg 24 63 0)) then okOpen (c.acquire st) 0x11
  else (c, .wait .other)

/-- WAIT (R155). -/
def execWait (st : StreamId) (s : State) : R := s.go (s.cx.runStream 0x11 bodyWait st)

/-! ### Fabric-scope releases (R355) -/

/-- FENCE_REQ toward each covered node in every virtual channel used toward it. -/
def Cx.fabRelease (c : Cx) (st : StreamId) (f : Flight) (covered : Nat → Bool) : Cx :=
  let ws := (c.strm st.toNat).wroteNodes
  let go := ws.filter fun p => covered p.1
  let c := c.modStrm st.toNat fun x => { x with wroteNodes := ws.filter fun p => !covered p.1 }
  go.foldl (fun c p => c.request st f.number 0x05 p.2 (BitVec.ofNat 17 p.1) 0#64 0#64 1 [] 0 0) c

/-- SIGNAL goes out once the release ended well (R355). -/
def Cx.sendSignal (c : Cx) (f : Flight) : Cx × Res :=
  let node : BitVec 17 := BitVec.ofNat 17 (f.arg 16 48 32)
  let m := c.mkMsg 0x07 0 node 0#16 (BitVec.ofNat 64 (f.arg 16 12 0)) (BitVec.ofNat 64 (f.arg 24 63 0)) 1 [] []
  okOpen (c.sendMsg 0 m) 0x12

def bodySignalRemote : Body := fun st f c =>
  let node := f.arg 16 48 32
  if f.phase = 1 then
    if !f.awaits.isEmpty then (c, .wait .fabricCredit)
    else if f.worst > 2 then (c, .done f.worst f.result.toNat)
    else c.sendSignal f
  else if c.fab.unreachable.contains node then refuseFenced c node
  else if c.earlier st f then (c, .wait .other)
  else
    let c := (c.releaseComplex).fabRelease st f (· == node)
    if ((c.flight? st f.number).getD f).awaits.isEmpty then c.sendSignal f
    else (c.modFlight st f.number fun g => { g with phase := 1 }, .wait .fabricCredit)

/-- SIGNAL_REMOTE (R355). -/
def execSignalRemote (st : StreamId) (s : State) : R := s.go (s.cx.runStream 0x12 bodySignalRemote st)

/-! ### FENCE and FLUSH_RANGE (R176, R177) -/

/-- Dirty bytes that a release at a scope writes back (Table 7.3). -/
def Cx.scopeSel (c : Cx) (scope channel stack : Nat) (k : Nat) : Bool :=
  if scope = 0 then decide (k / 2 ^ 37 = channel / 32 ∧ bits k 16 12 = channel % 32)
  else if scope = 1 then decide (k / 2 ^ 37 = stack)
  else c.active (k / 2 ^ 37)

/-- The zero-length reads of a host-scope release (Table 7.3). A host write is in host memory as soon as it is issued (the model
posts none), so their completions have nothing left to wait for. -/
def Cx.releaseHost (c : Cx) (st : StreamId) : Cx :=
  (c.strm st.toNat).wroteHost.foldl (fun c p => c.emit (.zeroRead (Side.ofNum p)))
    (c.modStrm st.toNat fun x => { x with wroteHost := [] })

def bodyFence : Body := fun st f c =>
  let scope := f.arg 16 2 0
  let kind := f.arg 16 5 4
  let channel := f.arg 24 9 0
  let stack := f.arg 24 14 10
  let node := f.arg 24 31 15
  let all := f.bit 24 32
  let rel := bit kind 0
  let acq := bit kind 1
  if f.phase = 1 then
    if !f.awaits.isEmpty then (c, .wait .fabricCredit)
    else
      let c := if acq then c.acquire st else c
      if f.worst > 2 then (c, .done f.worst f.result.toNat) else (c, .done stOk f.data.length)
  else if scope > 4 || kind = 0 || (scope = 0 && (channel ≥ 640 || !c.active (channel / 32)))
      || (scope = 1 && (stack ≥ 20 || !c.active stack)) then (c, .halt haltDecode)
  else if scope = 4 && !all && c.fab.unreachable.contains node then refuseFenced c node
  else if scope = 4 && all && (c.strm st.toNat).wroteNodes.any fun p => c.fab.unreachable.contains p.1 then
    refuseFenced c ((((c.strm st.toNat).wroteNodes.map (·.1)).find? c.fab.unreachable.contains).getD 0)
  else if rel && c.earlier st f then (c, .wait .other)
  else
    let sel := c.scopeSel scope channel stack
    let lines := if rel then (c.dirtyLines sel).length else 0
    let c := if rel then c.writeBack sel else c
    let c := if rel && scope = 3 then c.releaseHost st else c
    if rel && scope = 4 then
      let bad := (c.strm st.toNat).wroteNodes.find? fun p => (all || p.1 = node) && c.fab.unreachable.contains p.1
      match bad with
      | some p => refuseFenced c p.1
      | none =>
        let c := c.fabRelease st f fun n => all || n = node
        if ((c.flight? st f.number).getD f).awaits.isEmpty then (if acq then c.acquire st else c, .done stOk lines)
        else (c.modFlight st f.number fun g => { g with phase := 1, data := List.replicate lines 0#8 }, .wait .fabricCredit)
    else (if acq then c.acquire st else c, .done stOk lines)

/-- FENCE (R176). -/
def execFence (st : StreamId) (s : State) : R := s.go (s.cx.runStream 0x13 bodyFence st)

def bodyFlushRange : Body := fun st f c =>
  let a := f.arg 16 63 0
  let n := f.arg 24 63 0
  if n = 0 || bits a 63 60 > 1 then (c, .halt haltDecode)
  else match c.badOperand? st f .write 1 a n with
    | some r => r
    | none =>
      let rs := c.rangesOf true a n
      let sel (k : Nat) : Bool := rs.any fun r => lineIn r.lo r.len k
      (c.writeBack sel, .done stOk (c.dirtyLines sel).length)

/-- FLUSH_RANGE (R177); a line dropped with invalidate holds nothing the model keeps. -/
def execFlushRange (st : StreamId) (s : State) : R := s.go (s.cx.runStream 0x14 bodyFlushRange st)

/-! ### Micro-batch queues (R156, R157) -/

def Cx.streamsRec (c : Cx) : StreamsRec :=
  match c.img.cfg with
  | some g => g.streams
  | none => { tableBase := 0#64, count := 0, queuesA := 0, queuesB := 0, depth := 0, entryBytes := 0, share := []
              weight := [], sramA := (0, 0), sramB := (0, 0) }

/-- The queue exists: bit [8] of its number names the hub die. -/
def Cx.queueOk (c : Cx) (q : Nat) : Bool :=
  let r := c.streamsRec
  decide (q % 256 < if q < 256 then r.queuesA else r.queuesB)

def Cx.queue (c : Cx) (q : Nat) : List QEntry := kget [] c.queues q
def Cx.setQueue (c : Cx) (q : Nat) (l : List QEntry) : Cx := { c with queues := kset [] c.queues q l }
def Cx.queueFull (c : Cx) (q : Nat) : Bool := decide (c.streamsRec.depth ≤ (c.queue q).length)
def queueDie (q : Nat) : Side := Side.ofNum (q / 256)

/-- A queue on a fenced die, or across a lost bridge. -/
def Cx.queueAway (c : Cx) (d : Side) (q : Nat) : Option (Nat × Nat) :=
  if !c.coreUp (queueDie q) then some (stFenced, (queueDie q).num)
  else if queueDie q != d && c.r17 then some (stRetry, 0) else none

/-- Number under which a message waits for its turn at a queue. -/
def msgTurn (m : Msg) : Nat := m.src.toNat * 65536 + m.tag.toNat

/-- A turn still waits: its command, or its message, is there. -/
def Cx.turnLive (c : Cx) (t : QueueTurn) : Bool :=
  if t.who < 4096 then (c.flight? (BitVec.ofNat 12 t.who) (BitVec.ofNat 32 t.num)).any (·.status.isNone)
  else (c.msgsAt (t.who - 4096)).any fun m => msgTurn m = t.num

/-- No push, or pop, that came to the queue earlier waits for it (R156). -/
def Cx.myTurn (c : Cx) (t : QueueTurn) : Bool :=
  ((c.turns.filter fun u => u.q = t.q && u.pop == t.pop && c.turnLive u).head?).all (· = t)

/-- Wait at a queue: behind those that wait already. -/
def Cx.takeTurn (c : Cx) (t : QueueTurn) : Cx := if c.turns.contains t then c else { c with turns := c.turns.filter c.turnLive ++ [t] }

def Cx.leaveTurn (c : Cx) (t : QueueTurn) : Cx := { c with turns := c.turns.filter (· != t) }

def Flight.turn (f : Flight) (st : StreamId) (pop : Bool) (q : Nat) : QueueTurn :=
  { q := q, pop := pop, who := st.toNat, num := f.number.toNat }

def bodyQueuePush : Body := fun st f c =>
  let src := f.arg 16 63 0
  let q := f.arg 24 8 0
  let node := f.arg 24 25 9
  let remote := f.bit 24 26
  let n := f.arg 32 63 0
  let tag : W32 := BitVec.ofNat 32 (f.arg 40 31 0)
  if f.phase = 1 then
    if !f.awaits.isEmpty then (c, .wait .fabricCredit)
    else if f.worst > 2 then (c, .done f.worst f.result.toNat) else okOpen c 0x40
  else if n > c.streamsRec.entryBytes || (!remote && !c.queueOk q) then (c, .halt haltDecode)
  else match c.badOperand? st f .read 1 src n with
    | some r => r
    | none =>
      if remote && c.fab.unreachable.contains node then refuseFenced c node
      else match (if remote then none else c.queueAway (c.dieOf st) q) with
        | some p => refuseBy c p
        | none =>
          if !remote && (c.queueFull q || !c.myTurn (f.turn st false q)) then (c.takeTurn (f.turn st false q), .wait .other)
          else match c.hubPoison src n with
            | some off => (c, .done stPoison off)
            | none =>
              let r := c.hubRead src n
              if remote then
                let c := r.1.noteNode st node 3
                let c := c.request st f.number 0x08 3 (BitVec.ofNat 17 node) 0#64 (BitVec.ofNat 64 (q + tag.toNat * 2 ^ 32)) n
                  r.2 0 n [q, tag.toNat]
                (c.modFlight st f.number fun g => { g with phase := 1 }, .wait .fabricCredit)
              else okOpen ((r.1.setQueue q (c.queue q ++ [⟨tag, r.2⟩])).leaveTurn (f.turn st false q)) 0x40

/-- QUEUE_PUSH (R156). -/
def execQueuePush (st : StreamId) (s : State) : R := s.go (s.cx.runStream 0x40 bodyQueuePush st)

def bodyQueuePop : Body := fun st f c =>
  let dst := f.arg 16 63 0
  let q := f.arg 24 8 0
  if !c.queueOk q then (c, .halt haltDecode)
  else match c.queueAway (c.dieOf st) q, c.queue q with
    | some p, _ => refuseBy c p
    | none, [] => (match c.badOperand? st f .write 1 dst 0 with
      | some r => r
      | none => (c.takeTurn (f.turn st true q), .wait .other))
    | none, e :: rest =>
      match c.badOperand? st f .write 1 dst e.data.length with
      | some r => r
      | none =>
        if !c.myTurn (f.turn st true q) then (c.takeTurn (f.turn st true q), .wait .other)
        else ((((c.setQueue q rest).hubWrite dst e.data).noteWrite st dst).leaveTurn (f.turn st true q),
          .done stOk (e.tag.toNat + e.data.length * 2 ^ 32))

/-- QUEUE_POP (R156). -/
def execQueuePop (st : StreamId) (s : State) : R := s.go (s.cx.runStream 0x41 bodyQueuePop st)

/-- Header of an offloaded entry (R157). -/
def offloadHeader (e : QEntry) (q : Nat) : List Byte :=
  leBytes 4 e.tag.toNat ++ leBytes 4 e.data.length ++ leBytes 2 q ++ List.replicate 54 0#8

def bodyOffload : Body := fun st f c =>
  let dst := f.arg 16 63 0
  let q := f.arg 24 8 0
  if !c.queueOk q || !([2, 4].contains (bits dst 63 60)) then (c, .halt haltDecode)
  else match c.queueAway (c.dieOf st) q, c.queue q with
    | some p, _ => refuseBy c p
    | none, [] => (match c.badOperand? st f .write 1 dst 64 with
      | some r => r
      | none => (c.takeTurn (f.turn st true q), .wait .other))
    | none, e :: rest =>
      match c.badOperand? st f .write 1 dst (64 + e.data.length) with
      | some r => r
      | none =>
        if !c.myTurn (f.turn st true q) then (c.takeTurn (f.turn st true q), .wait .other)
        else okOpen ((((c.setQueue q rest).writeAt dst (offloadHeader e q ++ e.data)).noteWrite st dst).leaveTurn
          (f.turn st true q)) 0x42

/-- OFFLOAD (R157). -/
def execOffload (st : StreamId) (s : State) : R := s.go (s.cx.runStream 0x42 bodyOffload st)

/-- First byte of an offloaded entry's header that R157 refuses. -/
def badOffload (h : List Byte) (limit : Nat) : Option Nat :=
  if leNat ((h.drop 4).take 4) > limit then some 4 else (List.range 54).map (· + 10) |>.find? fun i => h.getD i 0#8 != 0#8

def bodyPrefetch : Body := fun st f c =>
  let src := f.arg 16 63 0
  let q := f.arg 24 8 0
  let atHead := f.bit 24 9
  if !c.queueOk q || !([2, 4].contains (bits src 63 60)) then (c, .halt haltDecode)
  else match c.queueAway (c.dieOf st) q, c.badOperand? st f .read 1 src 64 with
    | some p, _ => refuseBy c p
    | none, some r => r
    | none, none =>
      let h := c.readAt src 64
      match c.poisonIn src 64, badOffload h c.streamsRec.entryBytes with
      | some off, _ | none, some off => (c, .done stPoison off)
      | none, none =>
        let n := leNat ((h.drop 4).take 4)
        match c.badOperand? st f .read 1 src (64 + n) with
        | some r => r
        | none =>
          if c.queueFull q || !c.myTurn (f.turn st false q) then (c.takeTurn (f.turn st false q), .wait .other)
          else match c.poisonIn src (64 + n) with
            | some off => (c, .done stPoison off)
            | none =>
              let e : QEntry := ⟨BitVec.ofNat 32 (leNat (h.take 4)), c.readAt (src + 64) n⟩
              okOpen ((c.setQueue q (if atHead then e :: c.queue q else c.queue q ++ [e])).leaveTurn (f.turn st false q)) 0x43

/-- PREFETCH (R157). -/
def execPrefetch (st : StreamId) (s : State) : R := s.go (s.cx.runStream 0x43 bodyPrefetch st)

/-! ### Messages of the remote commands (R355) -/

/-- A whole slice of a list replaced. -/
def putSlice (l : List Byte) (off : Nat) (d : List Byte) : List Byte := l.take off ++ d ++ l.drop (off + d.length)

/-- Die whose fabric port a message came through; the journal master's for one that never left the node. -/
def Cx.msgDie (c : Cx) (p : Nat) : Side := if p < 12 then portDie p else c.master

/-- Status and result with which die d answers a remote access (R64, R65, R355). -/
def Cx.remoteCheck (c : Cx) (d : Side) (k : Acc) (a n : Nat) : Option (Nat × Nat) :=
  if bits a 63 60 > 3 then some (stPoison, 0)
  else match c.checkRange k a n with
    | some off => some (stPoison, off)
    | none => c.unreachable? d a

/-- `ADDR_INVALID` at a destination: the message names no stream, command or operand. -/
def Cx.remoteInvalid (c : Cx) (m : Msg) (st : Nat × Nat) : Cx :=
  if st.1 = stPoison then c.addrInvalid c.master 0 0#12 0#32 0 m.addr.toNat else c

/-- WRITE (R355): a remote COPY's destination write. -/
def execWrite (p : Fin 13) (m : Msg) (s : State) : R :=
  s.go (s.cx.onMsg p m 0x01 fun c =>
    match c.remoteCheck (c.msgDie p) .write m.addr.toNat m.data.length with
    | some st => (c.remoteInvalid m st).respond m 0x03 0#64 0#64 [] [st.1, st.2]
    | none => (c.hubWrite m.addr.toNat m.data).respond m 0x03 0#64 0#64 [] [stOk, 0])

/-- READ (R355): a remote COPY's source read. -/
def execRead (p : Fin 13) (m : Msg) (s : State) : R :=
  s.go (s.cx.onMsg p m 0x02 fun c =>
    let a := m.addr.toNat
    match c.remoteCheck (c.msgDie p) .read a m.size with
    | some st => (c.remoteInvalid m st).respond m 0x04 0#64 0#64 [] [st.1, st.2]
    | none =>
      match c.hubPoison a m.size with
      | some off => c.respond m 0x04 0#64 0#64 [] [stPoison, off]
      | none =>
        let r := c.hubRead a m.size
        r.1.respond m 0x04 0#64 0#64 r.2 [stOk, 0])

/-- The result that an answered status leaves: a poisoned offset counts from the operand's start, another status keeps
its unit. -/
def remoteResult (r : Req) (m : Msg) : Nat :=
  if m.fields.getD 0 0 = stPoison then r.off + m.fields.getD 1 0 else m.fields.getD 1 0

/-- A response to an outstanding request of one kind: its effect, then the command goes on when it awaits no more. -/
def Cx.onResponse (c : Cx) (p : Nat) (m : Msg) (op req : Nat) (f : Cx → Req → Cx) (body : Body) : Cx :=
  c.onMsg p m op fun c =>
    match c.req? m.tag with
    | none => c
    | some r =>
      if r.op != req then c
      else
        let c := (f c r).answered r (m.fields.getD 0 0) (remoteResult r m)
        match c.flight? r.stream r.command with
        | some g => if g.awaits.isEmpty then c.runFlight body r.stream r.command else c
        | none => c

/-- WRITE_ACK (R355). -/
def execWriteAck (p : Fin 13) (m : Msg) (s : State) : R :=
  s.go (s.cx.onResponse p m 0x03 0x01 (fun c _ => c) bodyCopy)

/-- READ_DATA (R355): the bytes join the COPY's source. -/
def execReadData (p : Fin 13) (m : Msg) (s : State) : R :=
  s.go (s.cx.onResponse p m 0x04 0x02 (fun c r => c.modFlight r.stream r.command fun f =>
    { f with data := putSlice f.data r.off (m.data.take r.len) }) bodyCopy)

/-- FENCE_REQ (R355): the destination's complex-scope release work, then the answer. -/
def execFenceReq (p : Fin 13) (m : Msg) (s : State) : R :=
  s.go (s.cx.onMsg p m 0x05 fun c => (c.releaseComplex).respond m 0x06 0#64 0#64 [] [stOk, 0])

/-- Meaning of a command that releases at fabric scope. -/
def bodyRelease : Body := fun st f c => if f.op = 0x12 then bodySignalRemote st f c else bodyFence st f c

/-- FENCE_ACK (R355). -/
def execFenceAck (p : Fin 13) (m : Msg) (s : State) : R :=
  s.go (s.cx.onResponse p m 0x06 0x05 (fun c _ => c) bodyRelease)

/-- FAB_SIGNAL (R355): SIGNAL of Table 13.5 at the destination: its record goes to the journal master (R153). -/
def execFabSignal (p : Fin 13) (m : Msg) (s : State) : R :=
  s.go (s.cx.onMsg p m 0x07 fun c => c.submit c.master (.sync (m.addr.toNat % 8192) m.arg))

/-- FAB_QUEUE_PUSH (R156): QUEUE_PUSH of Table 13.5; it waits while the queue is full. -/
def execFabQueuePush (p : Fin 13) (m : Msg) (s : State) : R :=
  let q := bits m.arg.toNat 8 0
  let t : QueueTurn := { q := q, pop := false, who := 4096 + p.val, num := msgTurn m }
  if s.cx.queueOk q && (s.cx.queueAway (s.cx.msgDie p) q).isNone && s.cx.arrived p m
      && (s.cx.queueFull q || !s.cx.myTurn t) then s.go (s.cx.takeTurn t)
  else s.go (s.cx.onMsg p m 0x08 fun c =>
    if !c.queueOk q || m.data.length > c.streamsRec.entryBytes then c.respond m 0x09 0#64 0#64 [] [stPoison, 0]
    else match c.queueAway (c.msgDie p) q with
      | some x => c.respond m 0x09 0#64 0#64 [] [x.1, x.2]
      | none => ((c.setQueue q (c.queue q ++ [⟨m.arg.extractLsb' 32 32, m.data⟩])).leaveTurn t).respond m 0x09 0#64 0#64 []
          [stOk, 0])

/-- PUSH_ACK (R355). -/
def execPushAck (p : Fin 13) (m : Msg) (s : State) : R :=
  s.go (s.cx.onResponse p m 0x09 0x08 (fun c _ => c) bodyQueuePush)

end Sys2Proof.Machine
end

