-- ==== Sys2Proof/Machine/RuleEngine.lean ====
section
/-!
DEFINITION. The update engine's rule programs (chapter 9): what each instruction does to a lane group that works on a
block, the blocks' beginning and end, and the statistics prologue.
-/
namespace Sys2Proof.Machine

/-! ### What an instruction does -/

/-- What an instruction does to its lane group: registers, flags and produced NaNs of valid lanes, bytes stored (stack
offset and bytes), and counts of clamped and zeroed elements; `hdr` tells whether these show in the block header. -/
structure RuleFx where
  l : LaneCtx
  fl : Flags := 0#8
  nans : List Nat := []
  puts : List (Nat × List Byte) := []
  clamped : Nat := 0
  zeroed : Nat := 0
  /-- new drizzle states -/
  drizzle : List (Nat × W32) := []
  deriving DecidableEq, Repr

/-- The meaning of a rule instruction: the complex it reads, what it sees, and its lane group. -/
abbrev RuleSem := Cx → RuleEnv → LaneCtx → RuleFx

/-- Lane outputs into a vector register under a predicate (R215, R220). -/
def vecFx (e : RuleEnv) (l : LaneCtx) (d : Nat) (q : RPred) (f : Nat → LaneOut) : RuleFx :=
  let on := (List.range 64).filter fun j => predRuns q l j
  let outs := on.map fun j => (j, f j)
  let new := (List.range 64).map fun j => (((kget? outs j).map (·.v)).getD ((l.vreg d).getD j 0#32))
  let live := outs.filter fun p => e.validLane p.1
  { l := l.setV d new, fl := live.foldl (fun a p => a ||| p.2.fl) 0#8
    nans := (live.filter fun p => p.2.nan).map (·.1) }

/-- Predicate bits into a predicate register under a predicate. -/
def predFx (e : RuleEnv) (l : LaneCtx) (d : Nat) (q : RPred) (f : Nat → Bool × Flags) : RuleFx :=
  let outs := ((List.range 64).filter fun j => predRuns q l j).map fun j => (j, f j)
  let new := (List.range 64).foldl (fun (a : Nat) j =>
    a + b2n (((kget? outs j).map (·.1)).getD ((l.preg d).getLsbD j)) * 2 ^ j) 0
  { l := l.setP d (BitVec.ofNat 64 new)
    fl := (outs.filter fun p => e.validLane p.1).foldl (fun a p => a ||| p.2.2) 0#8 }

def semAlu2 (op : Alu2) (d : BitVec 4) (a b : BitVec 6) (q : RPred) : RuleSem := fun _ e l =>
  vecFx e l d.toNat q fun j => alu2Lane op e.pyro (e.operand l a j) (e.operand l b j)

def semAlu3 (op : Alu3) (d : BitVec 4) (a b k : BitVec 6) (q : RPred) : RuleSem := fun _ e l =>
  vecFx e l d.toNat q fun j => alu3Lane op e.pyro (e.operand l a j) (e.operand l b j) (e.operand l k j)

def semAlu1 (op : Alu1) (d : BitVec 4) (a : BitVec 6) (q : RPred) : RuleSem := fun _ e l =>
  vecFx e l d.toNat q fun j => alu1Lane op e.pyro (e.operand l a j)

def semCmp (op : Cmp) (d : BitVec 2) (a b : BitVec 6) (q : RPred) : RuleSem := fun _ e l =>
  predFx e l d.toNat q fun j => cmpLane op (e.operand l a j) (e.operand l b j)

/-- PAND, POR and PNOT on whole predicate registers. -/
def semPred (d : BitVec 2) (x : LaneCtx → BitVec 64) (q : RPred) : RuleSem := fun _ e l =>
  predFx e l d.toNat q fun j => ((x l).getLsbD j, 0#8)

/-! ### Loads (R222) -/

/-- A value read from memory and widened: a NaN is read as an operand and so produced (R55), becomes canonical (R29, R43), and
is invalid when it signals (R28). -/
def loadOut (v : W32) : LaneOut := ⟨canonical v, (f32Num v).readFlags, f32IsNan v⟩

/-- A little-endian 16-bit element at a stack offset. -/
def Cx.s16At (c : Cx) (s off : Nat) : W16 := BitVec.ofNat 16 (leNat (c.dram s off 2))
def Cx.byteAt (c : Cx) (s off : Nat) : Byte := c.byte (stackKey s off)

/-- W element of lane j in the old slot, and its tail. -/
def RuleEnv.oldW (e : RuleEnv) (c : Cx) (j : Nat) : W16 := c.s16At e.stack (e.old + offW + 2 * (64 * e.block + j))
def RuleEnv.oldT (e : RuleEnv) (c : Cx) (j : Nat) : Byte := c.byteAt e.stack (e.old + offT + 64 * e.block + j)
def RuleEnv.oldM (e : RuleEnv) (c : Cx) (j : Nat) : Byte := c.byteAt e.stack (e.old + offM + 64 * e.block + j)

def semLdw (d : BitVec 4) (mst : Bool) (q : RPred) : RuleSem := fun c e l =>
  vecFx e l d.toNat q fun j =>
    loadOut (if mst && e.tails then e.oldW c j ++ e.oldT c j ++ 0#8 else e.oldW c j ++ 0#16)

def semLdg (d : BitVec 4) (q : RPred) : RuleSem := fun c e l =>
  vecFx e l d.toNat q fun j =>
    if e.current then loadOut (c.s16At e.stack (e.g + 2 * (64 * e.block + j)) ++ 0#16) else ⟨0#32, 0#8, false⟩

def semLdm (d : BitVec 4) (q : RPred) : RuleSem := fun c e l =>
  vecFx e l d.toNat q fun j =>
    let r := pyroFlush e.pyro (m8Decode (e.oldM c j) (BitVec.ofNat 16 (bits e.header 15 0)))
    ⟨r.1, r.2, false⟩

def semLdb (d : BitVec 4) (q : RPred) : RuleSem := fun _ e l =>
  vecFx e l d.toNat q fun _ => ⟨natToF32 (bits e.header 31 24), 0#8, false⟩

def semFac (d : BitVec 4) (q : RPred) : RuleSem := fun c e l =>
  vecFx e l d.toNat q fun j =>
    if e.factored then
      let r := c.facValue e.tensor e.stack (e.element + j) (e.statBuf.getD (c.statSel e.tensor e.stack))
      ⟨r.1, r.2, f32IsNan r.1⟩
    else ⟨0#32, 0#8, false⟩

/-! ### Stores (R223 to R228) -/

/-- Drizzle lane of lane j of the block (R235). -/
def RuleEnv.drizzleLane (e : RuleEnv) (j : Nat) : Nat := 64 * (e.block % 32) + j

/-- State of a drizzle lane (R60). -/
def Engine.lane (g : Engine) (n : Nat) : W32 := (kget? g.drizzle n).getD (drizzleEntry g.seed n)

/-- One drizzle draw for every valid lane: new states and values (R235). -/
def Cx.drizzleDraws (c : Cx) (e : RuleEnv) : List (Nat × W32 × Nat) :=
  (List.range e.lanes).map fun j =>
    let r := drizzleDraw ((c.stk e.stack).engine.lane (e.drizzleLane j))
    (e.drizzleLane j, r.1, r.2)

/-- Draws of a stochastic store: none outside Pyroimet mode. -/
def Cx.srDraws (c : Cx) (e : RuleEnv) (sr : Bool) : List (Nat × W32 × Nat) :=
  if e.pyro && sr then c.drizzleDraws e else []

/-- The mist slice of lane j's store (R54). -/
def RuleEnv.slice (e : RuleEnv) (purpose j : Nat) : Nat :=
  mistSlice e.table.seed (srCounter e.step purpose e.pc e.tensor.handle (e.element + j)) (e.element + j)

def drizzleStates (d : List (Nat × W32 × Nat)) : List (Nat × W32) := d.map fun x => (x.1, x.2.1)

/-- nv for a signalling NaN that a store reads (R28). -/
def storeNv (a : W32) : Flags := flagIf (f32Num a).isSnan Flag.nv

/-- STW (R224): the master in a region with tails, else S16 with SR. -/
def semStw (a : BitVec 4) (srm : Bool) (q : RPred) : RuleSem := fun c e l =>
  let sr := srm || !e.tails
  let draws := c.srDraws e sr
  let mode (j : Nat) : Rnd :=
    if !sr then .rne
    else if e.pyro then .srTop ((draws.getD j (0, 0#32, 0)).2.2)
    else if e.tails then .sr 8 (e.slice 0x02 j / 256) else .sr 16 (e.slice 0x01 j)
  let on := if e.frozen then [] else (List.range e.lanes).filter fun j => predRuns q l j
  let val (j : Nat) : W32 := (l.vreg a.toNat).getD j 0#32
  if e.tails then
    let rs := on.map fun j => (j, storeMaster (mode j) (val j))
    { l := l, fl := rs.foldl (fun f p => f ||| p.2.2 ||| storeNv (val p.1)) 0#8
      puts := rs.flatMap fun p => [(e.new + offW + 2 * (64 * e.block + p.1), leBytes 2 p.2.1.1.toNat),
                                   (e.new + offT + 64 * e.block + p.1, [p.2.1.2])]
      clamped := countFlag Flag.clamp (rs.map (·.2.2)), zeroed := countFlag Flag.nanZeroed (rs.map (·.2.2))
      drizzle := drizzleStates draws }
  else
    let rs := on.map fun j => (j, flushS16 e.pyro (storeS16 (mode j) (val j)))
    { l := l, fl := rs.foldl (fun f p => f ||| p.2.2 ||| storeNv (val p.1)) 0#8
      puts := rs.map fun p => (e.new + offW + 2 * (64 * e.block + p.1), leBytes 2 p.2.1.toNat)
      clamped := countFlag Flag.clamp (rs.map (·.2.2)), zeroed := countFlag Flag.nanZeroed (rs.map (·.2.2))
      drizzle := drizzleStates draws }

/-- STM (R225): the moments and the block scale. -/
def semStm (a : BitVec 4) (srm : Bool) : RuleSem := fun c e l =>
  let draws := c.srDraws e srm
  if e.frozen || e.lanes = 0 then { l := l, drizzle := drizzleStates draws }
  else
    let vals := (List.range e.lanes).map fun j => (l.vreg a.toNat).getD j 0#32
    let xs := vals.map m8Clamp
    let amax := (xs.map fun x => x.1.toNat % 2 ^ 31).foldl max 0
    let sc := m8Scale e.pyro amax
    let scale := sc.1
    let slice (j : Nat) : Option Nat :=
      if !srm then none
      else if e.pyro then some ((draws.getD j (0, 0#32, 0)).2.2 * 256 + 255) else some (e.slice 0x03 j)
    let cs := (List.range e.lanes).map fun j => m8Code ((xs.getD j (0#32, 0#8)).1) scale (slice j)
    { l := l
      fl := (cs.foldl (fun f x => f ||| x.2) (xs.foldl (fun f x => f ||| x.2) 0#8))
        ||| sc.2 ||| vals.foldl (fun f x => f ||| storeNv x) 0#8
      puts := [(e.new + offM + 64 * e.block, cs.map (·.1)), (e.new + offH + 8 * e.block, leBytes 2 scale.toNat)]
      clamped := countFlag Flag.clamp (xs.map (·.2)), zeroed := countFlag Flag.nanZeroed (xs.map (·.2))
      drizzle := drizzleStates draws }

/-- STB (R226): the rule_byte, from the lowest valid lane. -/
def semStb (a : BitVec 4) : RuleSem := fun _ e l =>
  if e.frozen || e.lanes = 0 then { l := l }
  else
    let r := f32ToRuleByte ((l.vreg a.toNat).getD 0 0#32)
    { l := l, fl := r.2, puts := [(e.new + offH + 8 * e.block + 3, [r.1])] }

/-- STE (R228): the E8 mirror. -/
def semSte (a : BitVec 4) (f : BitVec 2) : RuleSem := fun c e l =>
  let mode : Rnd := if f.getLsbD 0 then .rto else .rne
  let rs := (List.range e.lanes).map fun j =>
    let x := if e.frozen then e.oldW c j ++ 0#16 else (l.vreg a.toNat).getD j 0#32
    let r := f32ToE8 (f.getLsbD 1) mode x
    (r.1, r.2 ||| storeNv x, e.frozen && f32IsNan x)
  { l := l, fl := rs.foldl (fun f x => f ||| x.2.1) 0#8
    nans := (List.range e.lanes).filter fun j => (rs.getD j (0#8, 0#8, false)).2.2
    puts := if e.lanes = 0 then [] else
      [(e.table.mirrorBase + e.version.toNat % 2 * e.table.mirrorHalf + (e.w / 20 - e.tensor.base) * 1048576
          + 64 * e.block, rs.map (·.1))] }

/-- The meaning of every instruction that works on a block (Table 9.4). -/
def ruleSem : RInstr → RuleSem
  | .alu2 op d a b q => semAlu2 op d a b q
  | .alu3 op d a b k q => semAlu3 op d a b k q
  | .alu1 op d a q => semAlu1 op d a q
  | .cmp op d a b q => semCmp op d a b q
  | .pand d a b q => semPred d (fun l => l.preg a.toNat &&& l.preg b.toNat) q
  | .por d a b q => semPred d (fun l => l.preg a.toNat ||| l.preg b.toNat) q
  | .pnot d a q => semPred d (fun l => ~~~ l.preg a.toNat) q
  | .ldw d m q => semLdw d m q
  | .ldg d q => semLdg d q
  | .ldm d q => semLdm d q
  | .ldb d q => semLdb d q
  | .fac d q => semFac d q
  | .stw a r q => semStw a r q
  | .stm a r => semStm a r
  | .stb a => semStb a
  | .ste a f => semSte a f
  | .fstat _ _ _ => fun _ _ l => { l := l }

/-! ### Passes and blocks (R213 to R215, R227) -/

/-- The program of a pass holds FSTAT. -/
def hasFstat (prog : List W32) : Bool := ((prog.head?.bind decodeRule).map RInstr.isFstat).getD false

/-- What a pass's block sees. -/
def Cx.ruleEnv (c : Cx) (w : Nat) (v : Win) (p : Pass) (t : Tensor) (b pc : Nat) : RuleEnv where
  w := w
  tensor := t
  k := v.k
  valid := v.valid
  step := p.step
  table := p.table
  clip := p.clip
  tails := v.tails
  pyro := ((c.region? v.region).map (·.pyroimet)).getD false
  factored := t.factored
  statBuf := p.statBuf
  old := c.slotOff v.stateSlot
  new := c.slotOff p.slot
  g := c.gOff v.gSlot
  version := v.committed + 1#32
  eD := v.eD
  stream := p.stream
  command := p.command
  block := b
  pc := pc
  header := c.header (winStack w) v.stateSlot b

/-- The header a block starts its new slot with (R227). -/
def RuleEnv.newHeader (e : RuleEnv) : Nat :=
  if e.frozen then e.header
  else if e.lanes = 0 then bits e.header 19 17 * 2 ^ 17
  else bits e.header 19 0 + bits e.header 31 24 * 2 ^ 24

/-- A block begins: fields that no store writes hold their old bytes, invalid lanes hold zeros (R215, R223, R227). -/
def Cx.openBlock (c : Cx) (e : RuleEnv) : Cx :=
  let s := e.stack
  let n := e.lanes
  let w := c.dram s (e.old + offW + 128 * e.block) (2 * n) ++ List.replicate (128 - 2 * n) 0#8
  let m := c.dram s (e.old + offM + 64 * e.block) n ++ List.replicate (64 - n) 0#8
  let t := c.dram s (e.old + offT + 64 * e.block) n ++ List.replicate (64 - n) 0#8
  let c := c.basePut s (e.new + offW + 128 * e.block) w
  let c := if e.tails then c.basePut s (e.new + offT + 64 * e.block) t else c
  let c := c.basePut s (e.new + offM + 64 * e.block) m
  let c := c.basePut s (e.new + offH + 8 * e.block) (leBytes 8 e.newHeader)
  c.modStk s fun k => { k with engine := { k.engine with tensor := e.tensor.handle } }

/-- A block ends: its clamped and zeroed bits, and the block counter. -/
def Cx.closeBlock (c : Cx) (e : RuleEnv) (l : LaneCtx) : Cx :=
  let s := e.stack
  let o := e.new + offH + 8 * e.block + 2
  let b := (c.byteAt s o).toNat % 16 + 16 * b2n l.clamped + 32 * b2n l.zeroed
  let c := if e.frozen then c else c.basePut s o [BitVec.ofNat 8 b]
  c.bump (updBase s + 0x40) 63 (homeDie s)

/-- Put what an instruction did in place, and count its issue cycles (R234). -/
def Cx.applyFx (c : Cx) (e : RuleEnv) (cycles : Nat) (x : RuleFx) : Cx :=
  let s := e.stack
  let c := x.puts.foldl (fun c p => c.basePut s p.1 p.2) c
  let c := if x.drizzle.isEmpty then c else c.modStk s fun k => { k with engine := { k.engine with
    drizzle := x.drizzle.foldl (fun m p => kput m p.1 p.2) k.engine.drizzle } }
  let c := c.orFlags (updFlagsReg s) x.fl
  let c := c.modFlight e.stream e.command fun f => { f with flags := f.flags ||| x.fl }
  let c := x.nans.foldl (fun c j => c.nan
    { step := some e.step, unitClass := 0, index := s, stream := e.stream.toNat, command := e.command.toNat,
      tensorValid := true, tensor := e.tensor.handle, element := e.element + j, pc := e.pc, die := homeDie s }) c
  let c := if x.clamped = 0 then c else c.bump (updBase s + 0x60) 31 (homeDie s) x.clamped
  let c := if x.zeroed = 0 then c else c.bump (updBase s + 0x64) 31 (homeDie s) x.zeroed
  c.bump (updBase s + 0x48) 63 (homeDie s) (if e.pyro then 8 * cycles else cycles)

/-- First instruction that runs on a block: FSTAT is none of them. -/
def firstPc (prog : List W32) : Nat := if hasFstat prog then 1 else 0

/-- A lane group takes its next block, 32 further on, or has none left. -/
def Cx.nextBlock (c : Cx) (w : Nat) (v : Win) (p : Pass) (t : Tensor) (group b : Nat) : Cx :=
  if b < 16384 then
    let c := c.openBlock (c.ruleEnv w v p t b 0)
    c.modWin w fun v => { v with pass := v.pass.map fun p => { p with
      lanes := kput p.lanes group { block := b, pc := firstPc p.prog } } }
  else c.modWin w fun v => { v with pass := v.pass.map fun p => { p with lanes := kdel p.lanes group } }

/-- Keep a lane group's context and the pass's notes. -/
def Cx.keepLane (c : Cx) (w group : Nat) (l : LaneCtx) (fl : Flags) (zeroed : Nat) : Cx :=
  c.modWin w fun v => { v with pass := v.pass.map fun p => { p with
    lanes := kput p.lanes group l, flags := p.flags ||| fl, zeroCount := min 65535 (p.zeroCount + zeroed) } }

/-- One instruction of a lane group, whose word at its place decodes to `i`: its effect, and the next place. -/
def Cx.runRule (c : Cx) (w group : Nat) (v : Win) (p : Pass) (t : Tensor) (l : LaneCtx) (i : RInstr) (sem : RuleSem) :
    Cx :=
  let e := c.ruleEnv w v p t l.block l.pc
  let x := sem c e l
  let c := c.applyFx e i.cycles x
  let l := { x.l with pc := l.pc + 1, clamped := x.l.clamped || x.clamped != 0, zeroed := x.l.zeroed || x.zeroed != 0 }
  let c := c.keepLane w group l x.fl x.zeroed
  if l.pc ≥ p.prog.length then (c.closeBlock e l).nextBlock w v p t group (l.block + 32) else c

/-- Stack offsets of what an instruction reads or writes in memory for its block. -/
def RuleEnv.touches (e : RuleEnv) (c : Cx) (i : RInstr) : List Nat :=
  let hdr := e.new + offH + 8 * e.block
  match i with
  | .ldw _ m _ => (e.old + offW + 128 * e.block) :: if m && e.tails then [e.old + offT + 64 * e.block] else []
  | .ldg _ _ => [e.g + 128 * e.block]
  | .ldm _ _ => [e.old + offM + 64 * e.block, e.old + offH + 8 * e.block]
  | .ldb _ _ => [e.old + offH + 8 * e.block]
  | .stw _ _ _ => (e.new + offW + 128 * e.block) :: if e.tails then [e.new + offT + 64 * e.block] else []
  | .stm _ _ => [e.new + offM + 64 * e.block, hdr]
  | .stb _ => [hdr]
  | .ste _ _ => [e.table.mirrorBase + e.version.toNat % 2 * e.table.mirrorHalf + (e.w / 20 - e.tensor.base) * 1048576
      + 64 * e.block]
  | .fac _ _ =>
    let b := e.statBuf.getD (c.statSel e.tensor e.stack)
    let base := c.section_ e.tensor e.stack
    if e.factored then (List.range 64).flatMap fun j =>
      [base + e.tensor.offR b + 4 * ((e.element + j) / e.tensor.columns),
       base + e.tensor.offC b + 4 * ((e.element + j) % e.tensor.columns)]
    else []
  | _ => []

/-- Every channel that the instruction's memory accesses reach holds a bank-compute grant (R23, R234). -/
def Cx.engineGranted (c : Cx) (e : RuleEnv) (i : RInstr) : Bool :=
  (e.touches c i).all fun o => c.hasGrant (e.stack * 32 + c.bankOf e.stack o)

/-- A rule row: the lane group at the window runs this instruction if it stands next in its program and the channels that
it accesses are granted; else nothing (log entry 2). -/
def Cx.ruleStep (c : Cx) (at_ : LaneAt) (i : RInstr) (sem : RuleSem) : Cx :=
  let w := at_.window.toNat
  match kget? c.wins w with
  | none => c
  | some v =>
    match v.pass, c.tensor? v.tensor with
    | some p, some t =>
      match kget? p.lanes at_.group.val with
      | some l =>
        if p.fstatDone && (p.prog[l.pc]?.bind decodeRule) = some i && c.engineGranted (c.ruleEnv w v p t l.block l.pc) i
        then c.runRule w at_.group.val v p t l i sem else c
      | none => c
    | _, _ => c

/-! ### Counters of the ledgers (Table 10.11) -/

/-- Register offset of a ledger counter on a window's home die. -/
def ledgerReg (w off : Nat) : Nat := hubBase (homeDie (winStack w)) + off

def Cx.bumpLedger (c : Cx) (w off : Nat) : Cx := c.bump (ledgerReg w off) 31 (homeDie (winStack w))

/-- Count a window that waits as for shadow-pool exhaustion, once for its command (R233, R253). -/
def Cx.poolWait (c : Cx) (w : Nat) (st : StreamId) (f : Flight) : Cx :=
  if f.awaits.contains w then c
  else (c.bumpLedger w 0x60C).modFlight st f.number fun g => { g with awaits := g.awaits ++ [w] }

/-! ### The statistics prologue (R231, R233) -/

/-- The step's final sums are written for the tensor (R201). -/
def Cx.sumsFinal (c : Cx) (t step : Nat) : Bool := ((kget? c.finals t).map BitVec.toNat) = some step

/-- FSTAT of a pass may run: no earlier step's statistics are speculative, and the sums are final, or the pass is
DIRECT (R231, R233, R250). -/
def Cx.fstatReady (c : Cx) (s : Nat) (t : Tensor) (step : Step) (direct : Bool) : Bool :=
  !t.factored || ((!c.statSpec t s || c.statStep t s = step) && (direct || c.sumsFinal t.handle step.toNat))

/-- Another step's statistics are still speculative (R233). -/
def Cx.statsEarlier (c : Cx) (s : Nat) (t : Tensor) (step : Step) : Bool :=
  t.factored && c.statSpec t s && c.statStep t s != step

/-- The run serves passes of this tensor, step and clip (R231). -/
def StatRun.serves (r : StatRun) (tensor : Nat) (step : Step) (clip : W32) : Bool :=
  r.tensor = tensor && r.step = step && r.clip = clip

/-- The prologue has run in the stack for a step and clip. -/
def Cx.statsRan (c : Cx) (s tensor : Nat) (step : Step) (clip : W32) : Bool :=
  (c.stk s).engine.runs.any fun r => r.serves tensor step clip && r.ran

/-- The run that a pass belongs to: the one of its tensor, step and clip, or a new one with the pass's own constants, which
the first pass to start gives (R231). -/
def Cx.statRun (c : Cx) (e : RuleEnv) (a b k : BitVec 6) : StatRun :=
  let l : LaneCtx := { block := 0 }
  ((c.stk e.stack).engine.runs.find? fun r => r.serves e.tensor.handle e.step e.clip).getD
    { tensor := e.tensor.handle, step := e.step, clip := e.clip,
      consts := [e.gsc, e.operand l a 0, e.operand l b 0, e.operand l k 0] }

/-- Keep a run in place of the one it continues, and of what its buffer held before. -/
def Cx.keepRun (c : Cx) (s : Nat) (r : StatRun) : Cx :=
  c.modStk s fun k => { k with engine := { k.engine with runs := (k.engine.runs.filter fun x =>
    !(x.serves r.tensor r.step r.clip || (r.ran && x.ran && x.tensor = r.tensor && x.buf = r.buf))) ++ [r] } }

/-- A pass whose program holds FSTAT starts: the first of its step and clip gives the constants (R231). -/
def Cx.noteRun (c : Cx) (e : RuleEnv) (prog : List W32) : Cx :=
  match prog.head?.bind decodeRule with
  | some (.fstat a b k) => if e.tensor.factored then c.keepRun e.stack (c.statRun e a b k) else c
  | _ => c

/-- A produced NaN of the prologue, whose element the spec leaves open (log entry 84). -/
def Cx.statNan (e : RuleEnv) (c : Cx) : Cx :=
  let o := c.drawOpen 0x231
  o.2.nan { step := some e.step, unitClass := 0, index := e.stack, stream := e.stream.toNat, command := e.command.toNat
            tensorValid := true, tensor := e.tensor.handle, element := o.1.toNat % 2 ^ 40, die := homeDie e.stack }

/-- A pass's prologue has run, with its flags and the elements that it zeroed. -/
def Cx.statDone (c : Cx) (w : Nat) (buf : Option Nat) (fl : Flags) (zeroed : Nat := 0) : Cx :=
  c.modWin w fun v => { v with pass := v.pass.map fun p => { p with
    fstatDone := true, statBuf := buf, flags := p.flags ||| fl, zeroCount := min 65535 (p.zeroCount + zeroed) } }

/-- FSTAT of a run: the fold, its flags, counts and NaNs (R231, R237, R239). What it clamps and zeroes counts for the pass
that ran it (log entry 84). -/
def Cx.runFstat (c : Cx) (w : Nat) (e : RuleEnv) (t : Tensor) (r : StatRun) : Cx :=
  let s := e.stack
  let n := 1 - c.statSel t s
  let k (i : Nat) : W32 := r.consts.getD i 0#32
  let x := c.fstat t s e.step (k 0) (k 1) (k 2) (k 3) (c.sumsFinal t.handle e.step.toNat)
  let c := x.cx.orFlags (updFlagsReg s) x.fl
  let c := if x.clamped = 0 then c else c.bump (updBase s + 0x60) 31 (homeDie s) x.clamped
  let c := if x.zeroed = 0 then c else c.bump (updBase s + 0x64) 31 (homeDie s) x.zeroed
  let c := (List.range x.nans).foldl (fun c _ => Cx.statNan e c) (c.keepRun s { r with ran := true, buf := n })
  (c.modFlight e.stream e.command fun f => { f with flags := f.flags ||| x.fl }).statDone w (some n) x.fl x.zeroed

/-- The prologue of a window's pass: it runs once in a stack for a step and clip; later passes take its buffer. A wait for
another step's statistics counts as pool exhaustion (R233). -/
def Cx.prologue (c : Cx) (w : Nat) (v : Win) (p : Pass) (t : Tensor) (a b k : BitVec 6) : Cx :=
  let s := winStack w
  if !t.factored then c.statDone w none 0#8
  else
    let e := c.ruleEnv w v p t 0 0
    let r := c.statRun e a b k
    if r.ran then c.statDone w (some r.buf) 0#8
    else
      let direct := match v.st with | .writeRun _ d => d | _ => false
      if c.fstatReady s t p.step direct then c.runFstat w e t r
      else if c.statsEarlier s t p.step then
        match c.flight? p.stream p.command with
        | some f => c.poolWait w p.stream f
        | none => c
      else c

/-- The prologue that a program's first word names. -/
def Cx.runPrologue (c : Cx) (w : Nat) (v : Win) (p : Pass) (t : Tensor) : Cx :=
  match p.prog.head?.bind decodeRule with
  | some (.fstat a b k) => c.prologue w v p t a b k
  | _ => c

/-- FSTAT (R231): the prologue of the window's pass. -/
def execRFstat (w : BitVec 19) (a b k : BitVec 6) (s : State) : R :=
  let c := s.cx
  match kget? c.wins w.toNat with
  | none => s.go c
  | some v =>
    match v.pass, c.tensor? v.tensor with
    | some p, some t =>
      if !p.fstatDone && (p.prog.head?.bind decodeRule) = some (.fstat a b k) then s.go (c.prologue w.toNat v p t a b k)
      else s.go c
    | _, _ => s.go c

/-! ### The instructions, one meaning each (R221, R222, R224 to R228) -/

/-- ADD (Table 9.4): d = a + b. -/
def execRAdd (at_ : LaneAt) (d : BitVec 4) (a b : BitVec 6) (q : RPred) (s : State) : R :=
  s.go (s.cx.ruleStep at_ (.alu2 .add d a b q) (semAlu2 .add d a b q))

/-- SUB (Table 9.4): d = a − b. -/
def execRSub (at_ : LaneAt) (d : BitVec 4) (a b : BitVec 6) (q : RPred) (s : State) : R :=
  s.go (s.cx.ruleStep at_ (.alu2 .sub d a b q) (semAlu2 .sub d a b q))

/-- MUL (Table 9.4): d = a × b. -/
def execRMul (at_ : LaneAt) (d : BitVec 4) (a b : BitVec 6) (q : RPred) (s : State) : R :=
  s.go (s.cx.ruleStep at_ (.alu2 .mul d a b q) (semAlu2 .mul d a b q))

/-- DIV (Table 9.4): d = a / b. -/
def execRDiv (at_ : LaneAt) (d : BitVec 4) (a b : BitVec 6) (q : RPred) (s : State) : R :=
  s.go (s.cx.ruleStep at_ (.alu2 .div d a b q) (semAlu2 .div d a b q))

/-- MAX (Table 9.4): the larger operand. -/
def execRMax (at_ : LaneAt) (d : BitVec 4) (a b : BitVec 6) (q : RPred) (s : State) : R :=
  s.go (s.cx.ruleStep at_ (.alu2 .max d a b q) (semAlu2 .max d a b q))

/-- MIN (Table 9.4): the smaller operand. -/
def execRMin (at_ : LaneAt) (d : BitVec 4) (a b : BitVec 6) (q : RPred) (s : State) : R :=
  s.go (s.cx.ruleStep at_ (.alu2 .min d a b q) (semAlu2 .min d a b q))

/-- FMA (Table 9.4): a × b + c, one rounding. -/
def execRFma (at_ : LaneAt) (d : BitVec 4) (a b c : BitVec 6) (q : RPred) (s : State) : R :=
  s.go (s.cx.ruleStep at_ (.alu3 .fma d a b c q) (semAlu3 .fma d a b c q))

/-- FNMA (Table 9.4): c − a × b, one rounding. -/
def execRFnma (at_ : LaneAt) (d : BitVec 4) (a b c : BitVec 6) (q : RPred) (s : State) : R :=
  s.go (s.cx.ruleStep at_ (.alu3 .fnma d a b c q) (semAlu3 .fnma d a b c q))

/-- SQRT (Table 9.4): square root. -/
def execRSqrt (at_ : LaneAt) (d : BitVec 4) (a : BitVec 6) (q : RPred) (s : State) : R :=
  s.go (s.cx.ruleStep at_ (.alu1 .sqrt d a q) (semAlu1 .sqrt d a q))

/-- RSQRT (Table 9.4): reciprocal square root. -/
def execRRsqrt (at_ : LaneAt) (d : BitVec 4) (a : BitVec 6) (q : RPred) (s : State) : R :=
  s.go (s.cx.ruleStep at_ (.alu1 .rsqrt d a q) (semAlu1 .rsqrt d a q))

/-- ABS (Table 9.4): sign bit clear. -/
def execRAbs (at_ : LaneAt) (d : BitVec 4) (a : BitVec 6) (q : RPred) (s : State) : R :=
  s.go (s.cx.ruleStep at_ (.alu1 .abs d a q) (semAlu1 .abs d a q))

/-- NEG (Table 9.4): sign bit inverted. -/
def execRNeg (at_ : LaneAt) (d : BitVec 4) (a : BitVec 6) (q : RPred) (s : State) : R :=
  s.go (s.cx.ruleStep at_ (.alu1 .neg d a q) (semAlu1 .neg d a q))

/-- SIGN (Table 9.4): the sign of a. -/
def execRSign (at_ : LaneAt) (d : BitVec 4) (a : BitVec 6) (q : RPred) (s : State) : R :=
  s.go (s.cx.ruleStep at_ (.alu1 .sign d a q) (semAlu1 .sign d a q))

/-- MOV (Table 9.4): d = a. -/
def execRMov (at_ : LaneAt) (d : BitVec 4) (a : BitVec 6) (q : RPred) (s : State) : R :=
  s.go (s.cx.ruleStep at_ (.alu1 .mov d a q) (semAlu1 .mov d a q))

/-- CLT (Table 9.4): a < b, into a predicate. -/
def execRClt (at_ : LaneAt) (d : BitVec 2) (a b : BitVec 6) (q : RPred) (s : State) : R :=
  s.go (s.cx.ruleStep at_ (.cmp .clt d a b q) (semCmp .clt d a b q))

/-- CLE (Table 9.4): a ≤ b, into a predicate. -/
def execRCle (at_ : LaneAt) (d : BitVec 2) (a b : BitVec 6) (q : RPred) (s : State) : R :=
  s.go (s.cx.ruleStep at_ (.cmp .cle d a b q) (semCmp .cle d a b q))

/-- CEQ (Table 9.4): a = b, into a predicate. -/
def execRCeq (at_ : LaneAt) (d : BitVec 2) (a b : BitVec 6) (q : RPred) (s : State) : R :=
  s.go (s.cx.ruleStep at_ (.cmp .ceq d a b q) (semCmp .ceq d a b q))

/-- PAND (Table 9.4). -/
def execRPand (at_ : LaneAt) (d a b : BitVec 2) (q : RPred) (s : State) : R :=
  s.go (s.cx.ruleStep at_ (.pand d a b q) (semPred d (fun l => l.preg a.toNat &&& l.preg b.toNat) q))

/-- POR (Table 9.4). -/
def execRPor (at_ : LaneAt) (d a b : BitVec 2) (q : RPred) (s : State) : R :=
  s.go (s.cx.ruleStep at_ (.por d a b q) (semPred d (fun l => l.preg a.toNat ||| l.preg b.toNat) q))

/-- PNOT (Table 9.4). -/
def execRPnot (at_ : LaneAt) (d a : BitVec 2) (q : RPred) (s : State) : R :=
  s.go (s.cx.ruleStep at_ (.pnot d a q) (semPred d (fun l => ~~~ l.preg a.toNat) q))

/-- LDW (R222): W, or the master in a region with tails. -/
def execRLdw (at_ : LaneAt) (d : BitVec 4) (mst : Bool) (q : RPred) (s : State) : R :=
  s.go (s.cx.ruleStep at_ (.ldw d mst q) (semLdw d mst q))

/-- LDG (R222): the gradient, +0 in a block that is not current. -/
def execRLdg (at_ : LaneAt) (d : BitVec 4) (q : RPred) (s : State) : R :=
  s.go (s.cx.ruleStep at_ (.ldg d q) (semLdg d q))

/-- LDM (R222): the decoded moment. -/
def execRLdm (at_ : LaneAt) (d : BitVec 4) (q : RPred) (s : State) : R :=
  s.go (s.cx.ruleStep at_ (.ldm d q) (semLdm d q))

/-- LDB (R222): the block's rule_byte. -/
def execRLdb (at_ : LaneAt) (d : BitVec 4) (q : RPred) (s : State) : R :=
  s.go (s.cx.ruleStep at_ (.ldb d q) (semLdb d q))

/-- FAC (R232): the factored second moment. -/
def execRFac (at_ : LaneAt) (d : BitVec 4) (q : RPred) (s : State) : R :=
  s.go (s.cx.ruleStep at_ (.fac d q) (semFac d q))

/-- STW (R224). -/
def execRStw (at_ : LaneAt) (a : BitVec 4) (srm : Bool) (q : RPred) (s : State) : R :=
  s.go (s.cx.ruleStep at_ (.stw a srm q) (semStw a srm q))

/-- STM (R225). -/
def execRStm (at_ : LaneAt) (a : BitVec 4) (srm : Bool) (s : State) : R :=
  s.go (s.cx.ruleStep at_ (.stm a srm) (semStm a srm))

/-- STB (R226). -/
def execRStb (at_ : LaneAt) (a : BitVec 4) (s : State) : R :=
  s.go (s.cx.ruleStep at_ (.stb a) (semStb a))

/-- STE (R228). -/
def execRSte (at_ : LaneAt) (a : BitVec 4) (f : BitVec 2) (s : State) : R :=
  s.go (s.cx.ruleStep at_ (.ste a f) (semSte a f))

end Sys2Proof.Machine
end

