-- ==== Sys2Proof/Machine/Versions.lean ====
section
/-!
DEFINITION. Versions of a window (chapter 10): selection, gathers, verdicts, commit by remap, the digest, exports and
imports.
-/
namespace Sys2Proof.Machine

/-! ### Operands that name a run of windows -/

def Flight.tensor (f : Flight) : Nat := f.arg 16 23 0
def Flight.first (f : Flight) : Nat := f.arg 16 51 32
def Flight.count (f : Flight) : Nat := f.arg 24 20 0
def Flight.step (f : Flight) : Step := BitVec.ofNat 48 (f.arg 32 47 0)

/-- The tensor and windows that a command names; none halts the stream (R196, R247). -/
def Cx.runOf (c : Cx) (f : Flight) : Option (Tensor × List Nat) :=
  match c.tensor? f.tensor with
  | some t =>
    if f.count = 0 || f.first + f.count > t.windows then none else some (t, c.windowIds t f.first f.count)
  | none => none

def Cx.win? (c : Cx) (w : Nat) : Option Win := kget? c.wins w

/-- A window is resident, or its promotion is demanded now (R322); a demand cancels a write-back (R323). -/
def Cx.demandState (c : Cx) (w : Nat) : Cx :=
  c.modWin w fun v => if v.resident then { v with writingBack := false } else { v with promoting := true }

/-- Demand the state of every window; the second component tells whether all are resident. -/
def Cx.demandAll (c : Cx) (ws : List Nat) : Cx × Bool :=
  (ws.foldl Cx.demandState c, ws.all fun w => (c.win? w).all fun v => v.resident)

/-- A command that names only fenced windows (R252). -/
def Cx.allFenced (c : Cx) (ws : List Nat) : Bool := ws.all fun w => (c.win? w).all fun v => v.fenced

def Cx.anyBusy (c : Cx) (ws : List Nat) : Bool := ws.any fun w => c.stackBusy (winStack w)

/-- Repair of a window is under way (R271). -/
def Cx.repairing (c : Cx) (w : Nat) : Bool := c.fab.repairs.any fun r => r.w = w

/-! ### The window map's backing store (R76, Table 3.6) -/

/-- The 256-bit map entry of a window. -/
def Win.entry (v : Win) : Nat :=
  v.tensor + v.region * 2 ^ 24 + v.k * 2 ^ 32 + v.valid * 2 ^ 51
    + (if v.resident then v.stateSlot else v.slowIndex) * 2 ^ 72 + v.gSlot * 2 ^ 92 + v.committed.toNat * 2 ^ 108
    + v.specSlot * 2 ^ 140 + (v.stash.getD 0 0 + v.stash.getD 1 0 * 2 ^ 16 + v.stash.getD 2 0 * 2 ^ 32) * 2 ^ 160
    + v.stash.length * 2 ^ 208 + b2n v.specValid * 2 ^ 210 + b2n v.resident * 2 ^ 211 + b2n v.tails * 2 ^ 212
    + b2n v.fenced * 2 ^ 213

/-- Write a window's entry to the backing store of its stack. -/
def Cx.saveEntry (c : Cx) (w : Nat) : Cx :=
  match c.win? w with
  | some v => c.poke (stackKey (winStack w) (c.lay.mapBase * rowBytes + 32 * (w / 20))) (leBytes 32 v.entry)
  | none => c

/-- Stack whose backing store a journal record updates (Table 14.1). -/
def JRec.stack? : JRec → Option Nat
  | .commit w | .repair w _ _ _ | .flags w => some (winStack w)
  | _ => none

/-- Write the sequence number of the newest record applied to a stack's backing store, in its last 64 bytes (R367). -/
def Cx.saveApplied (c : Cx) (s : Nat) : Cx :=
  match kget? c.journal.applied s with
  | some q => c.poke (stackKey s (c.lay.mapBase * rowBytes + 0x3FFFC0)) (leBytes 8 q.toNat)
  | none => c

/-- The owner has applied a record to its backing store: the record is freed, and the store's last 64 bytes hold the
newest sequence number with none older left to apply (R367). -/
def Cx.freeRecord (c : Cx) (e : JEntry) : Cx :=
  let rest := c.journal.entries.filter fun x => x.seq != e.seq
  let c := { c with journal := { c.journal with entries := rest } }
  match e.body.stack? with
  | none => c
  | some s =>
    let older := rest.any fun x => x.body.stack? = some s && seqCmp x.seq e.seq == .older
    let now := (kget? c.journal.applied s).getD 0#64
    if older || newerEq now e.seq then c
    else ({ c with journal := { c.journal with applied := kput c.journal.applied s e.seq } }).saveApplied s

/-- Free the acknowledged records with this content. -/
def Cx.freeRecords (c : Cx) (r : JRec) : Cx :=
  (c.journal.entries.filter fun e => e.acked && e.body == r).foldl Cx.freeRecord c

/-! ### Version selection (R260) -/

/-- Where a read of a version goes. -/
inductive Sel where
  /-- a state slot -/
  | slot (n : Nat)
  /-- a stash slot of the region -/
  | stash (n : Nat)
  | status (k : Nat)
  deriving DecidableEq, Repr

/-- Index that the map entry shows in place of a stash slot that a rebuild dropped (R314, log entry 89). -/
def noStash : Nat := 0xFFFF

/-- Position j ≥ 1 of a stashed version counted back from the committed one. -/
def Win.stashed (v : Win) (ver : Version) : Option Nat :=
  (List.range v.stash.length).find? fun j => ver = v.committed - BitVec.ofNat 32 (j + 1) && v.stash.getD j 0 != noStash

/-- R260's pseudocode. -/
def Win.select (v : Win) (latest : Bool) (ver : Version) (spec : Bool) : Sel :=
  let ver := if latest then v.committed else ver
  if v.fenced then .status stFenced
  else if ver = v.committed then .slot v.stateSlot
  else match v.stashed ver with
    | some j =>
      let n := v.stash.getD j 0
      match v.copies.find? fun p => p.1 = n with
      | some p => .slot p.2
      | none => .stash n
    | none => if spec && v.specValid && ver = v.committed + 1#32 then .slot v.specSlot else .status stRetired

/-- R260 for a window, with the repair and stack conditions of R271 and Table 6.5. -/
def Cx.selectIn (c : Cx) (w : Nat) (v : Win) (latest : Bool) (ver : Version) (spec : Bool) : Sel :=
  if v.fenced && c.repairing w then .status stRetry
  else if !v.fenced && c.stackBusy (winStack w) then .status stRetry
  else v.select latest ver spec

/-- Stack offset of an array of a selected version: 0 W, 1 T, 2 M, 3 H, 4 G; a stash slot holds W only (R80). -/
def Cx.arrayOff (c : Cx) (v : Win) (sel : Sel) (arr : Nat) : Option Nat :=
  if arr = 4 then some (c.gOff v.gSlot)
  else match sel with
    | .slot n => some (c.slotOff n + [offW, offT, offM, offH].getD arr 0)
    | .stash n => if arr = 0 then some (c.stashOff v.region n) else none
    | .status _ => none

/-- Version that a selection serves. -/
def Win.served (v : Win) (latest : Bool) (ver : Version) : Version := if latest then v.committed else ver

/-- A status of a version read on one window; a stashed version has no T, M or H array. -/
def Cx.readStatus (c : Cx) (w : Nat) (latest : Bool) (ver : Version) (spec : Bool) (arr : Nat) : Option Nat :=
  match c.win? w with
  | none => some stRetired
  | some v =>
    if arr = 4 then
      if v.fenced then some (if c.repairing w then stRetry else stFenced)
      else if c.stackBusy (winStack w) then some stRetry else none
    else match c.selectIn w v latest ver spec with
      | .status k => some k
      | sel => if (c.arrayOff v sel arr).isNone then some stRetired else none

/-- Stack keys of a run of bytes of a window's array at a version. -/
def Cx.versionKey (c : Cx) (w : Nat) (latest : Bool) (ver : Version) (spec : Bool) (arr off : Nat) : Nat :=
  match c.win? w with
  | none => 0
  | some v => stackKey (winStack w) ((c.arrayOff v (c.selectIn w v latest ver spec) arr).getD 0 + off)

/-- Bytes as hub-side readers see them (R167). -/
def Cx.hubBytes (c : Cx) (k n : Nat) : List Byte := (List.range n).map fun i => c.hubByte (k + i)

/-- First poisoned byte of a hub-side read. -/
def Cx.hubPoisonIn (c : Cx) (k n : Nat) : Option Nat := (List.range n).find? fun i => c.hubPoisonAt (k + i)

/-- A read of these runs of bytes returns the first poisoned byte's poison (R268). -/
def Cx.sawPoisonIn (c : Cx) (keys : List (Nat × Nat)) : Cx :=
  match keys.findSome? fun p => (c.hubPoisonIn p.1 p.2).map (p.1 + ·) with
  | some k => c.sawPoison k
  | none => c

/-- Statuses of a version read, window by window: the status that the command takes, with the window (R261). -/
def worstRead (l : List (Nat × Option Nat)) : Option (Nat × Nat) :=
  let pick (k : Nat) : Option (Nat × Nat) := (l.find? fun p => p.2 = some k).map fun p => (p.1, k)
  match pick stFenced, pick stRetired, pick stRetry with
  | some x, _, _ => some x
  | none, some x, _ => some x
  | none, none, x => x

def Cx.committedOf (c : Cx) (w : Nat) : Nat := ((c.win? w).map fun v => v.committed.toNat).getD 0

/-- `GATHER_VERSION_RETIRED` for every retired window; a request that is answered `VERSION_RETIRED` counts once (R261,
Table 10.11). -/
def Cx.sayRetired (c : Cx) (l : List (Nat × Option Nat)) (answer tensor : Nat) (ver : Version) (who : Nat) : Cx :=
  let ret := l.filter fun p => answer = stRetired && p.2 = some stRetired
  let c := ret.foldl (fun c p => c.ev 0x4004 6 1 (homeDie (winStack p.1)) (winStack p.1)
    [tensor, p.1, ver.toNat, c.committedOf p.1, who]) c
  match ret with
  | p :: _ => c.bumpLedger p.1 0x610
  | [] => c

/-- Hold the state slots that a command reads until it completes (R78). -/
def Cx.holdSlots (c : Cx) (st : StreamId) (num : W32) (ws : List Nat) (latest : Bool) (ver : Version) (spec : Bool) :
    Cx :=
  ws.foldl (fun c w =>
    match (c.win? w).map fun v => c.selectIn w v latest ver spec with
    | some (.slot n) => { c with holds := c.holds ++ [(winStack w, n, st.toNat, num.toNat)] }
    | _ => c) c

/-! ### GATHER (R259 to R261) -/

/-- Bytes of an element run in an array. -/
def arrayBytes (arr n : Nat) : Nat :=
  match arr with
  | 1 | 2 => n
  | 3 => n / 64 * 8
  | _ => 2 * n

/-- Run of bytes of each window that elements e … e+n-1 touch: window id, offset in the array, bytes. -/
def Cx.runParts (c : Cx) (t : Tensor) (e n arr : Nat) : List (Nat × Nat × Nat) :=
  let k0 := e / 1048576
  (List.range ((e + n + 1048575) / 1048576 - k0)).map fun i =>
    let k := k0 + i
    let lo := max e (k * 1048576) - k * 1048576
    let hi := min (e + n) ((k + 1) * 1048576) - k * 1048576
    (c.windowId t k, arrayBytes arr lo, arrayBytes arr (hi - lo))

def bodyGather : Body := fun st f c =>
  let e := f.arg 16 63 24
  let n := f.arg 24 31 0
  let ver : Version := BitVec.ofNat 32 (f.arg 24 63 32)
  let dest := f.arg 32 63 0
  let latest := f.bit 40 0
  let spec := f.bit 40 1
  let arr := f.arg 40 4 2
  let debug := f.bit 40 5
  let kind := (((c.strm st.toNat).desc).map (·.kind)).getD 0
  match c.tensor? f.tensor with
  | none => (c, .halt haltDecode)
  | some t =>
    if n = 0 || e + n > t.count || arr > 4 || (spec && latest) || ((spec || arr != 0) && !debug) || (debug && kind != 0)
        || (arr = 3 && (e % 64 != 0 || n % 64 != 0)) then (c, .halt haltDecode)
    else
      let parts := c.runParts t e n arr
      let ws := parts.map (·.1)
      match c.badOperand? st f .write 3 dest (arrayBytes arr n) with
      | some r => r
      | none =>
        if c.boundAway st f.tensor then refuseFenced c f.tensor
        else if ws.any fun w => c.needsTwin (c.dieOf st) (winStack w) then retryLater c
        else
          let sts := ws.map fun w => (w, c.readStatus w latest ver spec arr)
          match worstRead sts with
          | some (w, k) =>
            let c := c.sayRetired sts k f.tensor ver st.toNat
            if k = stRetry then retryLater c else (c, .done k (c.committedOf w))
          | none =>
            let d := c.demandAll (if arr = 4 then [] else ws)
            let c := d.1
            if !d.2 then (c.modFlight st f.number fun g => { g with slow := true }, .wait .other)
            else
              let keys := parts.map fun p => (c.versionKey p.1 latest ver spec arr p.2.1, p.2.2)
              let bad := (keys.foldl (fun (a : Option Nat × Nat) p =>
                (a.1 <|> (c.hubPoisonIn p.1 p.2).map (· + a.2), a.2 + p.2)) (none, 0)).1
              match bad with
              | some off => (c.sawPoisonIn keys, .done stPoison off)
              | none =>
                let data := keys.flatMap fun p => c.hubBytes p.1 p.2
                let c := if arr = 4 then c else c.holdSlots st f.number ws latest ver spec
                let vs := ws.map fun w => ((c.win? w).map fun v => v.served latest ver).getD 0#32
                let v0 := vs.headD 0#32
                (c.hubWrite dest data, .done stOk (v0.toNat + 2 ^ 32 * b2n (vs.any fun v => v != v0)))

/-- GATHER (R260). -/
def execGather (st : StreamId) (s : State) : R := s.go (s.cx.runStream 0x20 bodyGather st)

/-! ### GATHER_REQ (R262) -/

/-- A request's response: header only, unless it is served; `late` is how long it has waited for a promotion. -/
def Cx.gatherAnswer (c : Cx) (m : Nat) (h : BitVec 256) (late : Option Nat) : Cx × Bool :=
  let f (hi lo : Nat) : Nat := bits h.toNat hi lo
  let tensor := f 39 16
  let e := f 79 40
  let n := f 92 80
  let seq := f 111 96
  let latest := bit h.toNat 8
  let ver : Version := BitVec.ofNat 32 (f 159 128)
  let resv := f 7 0 != 3 || f 15 9 != 0 || f 95 93 != 0 || f 127 112 != 0 || f 255 160 != 0
  let answer (c : Cx) (k v : Nat) (d : List Byte) : Cx × Bool :=
    (c.emit (.gatherResp m k (delayBucket (late.getD 0)) seq (BitVec.ofNat 32 v) d), true)
  match c.badRun tensor e n 4096 resv, c.tensor? tensor with
  | some r, _ =>
    answer (c.ev 0x4101 3 2 (moduleDie m) m [r, m, seq, tensor, e, n]) stPoison 0 []
  | none, none => answer c stPoison 0 []
  | none, some t =>
    let w := c.windowId t (e / 1048576)
    let ingress : Side := moduleDie m
    match c.win? w with
    | none => answer c stRetry 0 []
    | some v =>
      if c.stackBusy (winStack w) || c.needsTwin ingress (winStack w) then answer c stRetry 0 []
      else match c.readStatus w latest ver false 0 with
        | some k =>
          let c := c.sayRetired [(w, some k)] k tensor ver m
          answer c k (if k = stRetired then v.committed.toNat else 0) []
        | none =>
          if !v.resident then (c.demandState w, false) else
          let key := c.versionKey w latest ver false 0 (2 * (e % 1048576))
          if (c.hubPoisonIn key (2 * n)).isSome then answer (c.sawPoisonIn [(key, 2 * n)]) stPoison 0 []
          else answer c (if late.isSome then stSlow else stOk) (v.served latest ver).toNat (c.hubBytes key (2 * n))

/-- Hub die whose ledger holds a GATHER_REQ that waits. -/
def Cx.gatherDie (c : Cx) (m : Nat) (h : BitVec 256) : Side :=
  match c.tensor? (bits h.toNat 39 16) with
  | some t => c.owner (winStack (c.windowId t (bits h.toNat 79 40 / 1048576)))
  | none => moduleDie m

/-- GATHER_REQ (R262): one die-to-die gather; it waits while its window is promoted (R322). -/
def execGatherReq (m : Fin 64) (hdr : BitVec 256) (s : State) : R :=
  let c := s.cx
  if (kget? c.modules m.val).isNone || !c.enabled || !c.shellServes (moduleDie m.val) then s.go c
  else
    let r := c.gatherAnswer m.val hdr none
    let q : GatherHeld := { m := m.val, hdr := hdr, since := c.ticks, die := c.gatherDie m.val hdr }
    s.go (if r.2 then r.1 else { r.1 with gatherHeld := r.1.gatherHeld ++ [q] })

/-- Serve the requests that waited for a promotion. -/
def Cx.serveGathers (c : Cx) : Cx :=
  let held := c.gatherHeld
  held.foldl (fun c q =>
    let r := c.gatherAnswer q.m q.hdr (some (c.ticks - q.since))
    if r.2 then r.1 else { r.1 with gatherHeld := r.1.gatherHeld ++ [q] }) { c with gatherHeld := [] }

/-! ### Digests (R267) -/

/-- Leaf of a block: the CRC of W, T in a region with tails, M and the header with acc_epoch zero. -/
def Cx.leaf (c : Cx) (read : Cx → Nat → Nat → List Byte) (s off b : Nat) (tails : Bool) : W32 :=
  let get (o n : Nat) : List Byte := read c (stackKey s (off + o)) n
  let h := leNat (get (offH + 8 * b) 8)
  crc32c (get (offW + 128 * b) 128 ++ (if tails then get (offT + 64 * b) 64 else []) ++ get (offM + 64 * b) 64
    ++ leBytes 8 (setBits h 19 17 0))

/-- The leaf list of a slot: 64 KiB. -/
def Cx.leaves (c : Cx) (read : Cx → Nat → Nat → List Byte) (s slot : Nat) (tails : Bool) : List Byte :=
  (List.range 16384).flatMap fun b => leBytes 4 (c.leaf read s (c.slotOff slot) b tails).toNat

/-- Digest over a leaf list and its trailer. -/
def digestOf (leaves : List Byte) (tensor k : Nat) (step : Option Step) : List Byte :=
  (sha256 (leaves ++ leBytes 4 tensor ++ leBytes 4 k ++ leBytes 8 ((step.map BitVec.toNat).getD 0))).take 16

/-! ### Verdicts (R248, R249, R257, R258) -/

/-- The verdict that applies to a window's step: its own, or the one the ledgers keep for the tensor. -/
def Cx.verdictFor (c : Cx) (v : Win) (n : Step) : Option Verdict :=
  match v.verdict with
  | some x => some x
  | none =>
    match kget? c.verdicts v.tensor with
    | some (m, x) => if m = n then some x else none
    | none => none

/-- Outcomes in the UPDATE commands that wait for a window's step. -/
def Cx.markOut (c : Cx) (w : Nat) (n : Step) (o : WinOut) : Cx :=
  { c with streams := c.streams.map fun p => (p.1, { p.2 with flights := p.2.flights.map fun f =>
      if f.op = 0x23 && f.step = n && f.status.isNone then
        { f with wins := f.wins.map fun x => if x.1 = w && x.2 == .todo then (w, o) else x }
      else f }) }

/-- Outcomes in the one IMPORT or STAGE_TENANT command that staged a window. -/
def Cx.markImport (c : Cx) (w : Nat) : Cx :=
  { c with streams := c.streams.map fun p => (p.1, { p.2 with flights := p.2.flights.map fun f =>
      if (f.op = 0x25 || f.op = 0x60 || f.op = 0x61) && f.phase = 2 then
        { f with wins := f.wins.map fun x => if x.1 = w && x.2 == .todo then (w, .committed) else x }
      else f }) }

/-- Send a window's commit record to the journal master (R254). A pass that ends while the owner's core is down leaves the
window without a record, as a commit that the fence caught (R256, R373). -/
def Cx.sendCommit (c : Cx) (w : Nat) (n : Step) : Cx :=
  let d := c.owner (winStack w)
  let c := c.modWin w fun v => { v with st := .committing n, commitSent := c.coreUp d, commitHeld := false }
  if c.coreUp d then c.submit d (.commit w) else c

/-- A window leaves its step without a version (R258). -/
def Cx.abandonWin (c : Cx) (w : Nat) (n : Step) : Cx :=
  let c := (c.dropSpec w).modWin w fun v => { v with st := .quiet, hold := false, verdict := none, gone := some n }
  (c.markOut w n .untouched).bumpLedger w 0x608

/-- `STEP_ABANDONED`, once for each tensor and step (R258). -/
def Cx.sayAbandoned (c : Cx) (tensor : Nat) (n : Step) (d : Side) (cause windows : Nat) : Cx :=
  if c.abandoned.contains (tensor, n) then c
  else ({ c with abandoned := c.abandoned ++ [(tensor, n)] }).ev 0x4002 2 1 d d.num [tensor, n.toNat, cause, windows]
    (some n)

/-- Windows of a stack that run a pass, or are to (R252). -/
def Cx.running (c : Cx) (s : Nat) : Nat :=
  (c.wins.filter fun p => winStack p.1 = s && (match p.2.st with | .specRun _ | .writeRun _ _ => true | _ => false)).length

/-- The windows of a tensor that a verdict for a step finds in HELD, SPEC_RUN or SPEC_READY. -/
def Cx.heldFor (c : Cx) (t : Tensor) (n : Step) : List Nat :=
  (c.tensorWindows t).filter fun w =>
    match ((c.win? w).map fun v => v.st).getD .quiet with
    | .held m | .specRun m | .specReady m => m == n
    | _ => false

/-- A verdict reaches one window. A `REPLAY` moves a SPEC_READY window to WRITE_RUN; beyond the eight windows of R252 the
window keeps its state, without its slot, until one of them is done (log entry 84). -/
def Cx.verdictWin (c : Cx) (w : Nat) (n : Step) (x : Verdict) : Cx :=
  match c.win? w with
  | none => c
  | some v =>
    let c' := c.modWin w fun v => { v with verdict := some x }
    match x, v.st with
    | .abandon, _ => c.abandonWin w n
    | .commit, .specReady _ => c'.sendCommit w n
    | .replay _, .specRun _ => (c'.discardSpec w).modWin w fun v => { v with st := .writeRun n false }
    | .replay _, .specReady _ =>
      let c := c'.discardSpec w
      if c.running (winStack w) < 8 then c.modWin w fun v => { v with st := .writeRun n false } else c
    | _, _ => c'

/-- A verdict of a step takes effect for a tensor: kept unless an equal or newer one is, and applied once (R248). -/
def Cx.applyVerdict (c : Cx) (tensor : Nat) (n : Step) (x : Verdict) (st : StreamId) (num : W32) (d : Side) : Cx :=
  let keep := match kget? c.verdicts tensor with
    | some (m, _) => newer n m
    | none => true
  let same : Option Verdict := match kget? c.verdicts tensor with
    | some (m, y) => if m = n then some y else none
    | none => none
  let num_ (v : Verdict) : Nat := match v with | .commit => 0 | .replay _ => 1 | .abandon => 2
  match same, c.tensor? tensor with
  | some y, _ =>
    if y = x then c
    else c.ev 0x4003 2 2 d d.num [tensor, n.toNat, num_ y, num_ x, st.toNat, num.toNat] (some n)
  | none, none => c
  | none, some t =>
    let c := if keep then { c with verdicts := kput c.verdicts tensor (n, x) } else c
    let ws := c.heldFor t n
    let c := ws.foldl (fun c w => c.verdictWin w n x) c
    match x with
    | .commit => c
    | .replay k => (c.discardStatsAll t n).ev 0x4001 2 1 d d.num [tensor, n.toNat, k.toNat] (some n)
    | .abandon => (c.sayAbandoned tensor n d 0 ws.length).serveGrads

/-! ### Commit by remap (R243, R254) -/

/-- The stash after a commit: the retiring version first; a full stash drops its oldest (R80, R243). -/
def Cx.stashShift (c : Cx) (w : Nat) (v : Win) : Cx :=
  let d := c.stashDepth v.region
  if d = 0 then c
  else
    let kept := v.stash.take (d - 1)
    let c := c.modWin w fun v => { v with
      stash := kept, stashSteps := v.stashSteps.take (d - 1), copies := v.copies.filter fun p => kept.contains p.1 }
    match c.freeStash (winStack w) v.region with
    | none => c
    | some n =>
      (c.modStk (winStack w) fun k => { k with
        stashTags := kset 0 k.stashTags (v.region * 65536 + n) (kget 0 k.tags v.stateSlot) }).modWin w fun u =>
        { u with stash := n :: u.stash, stashSteps := v.step :: u.stashSteps, copies := u.copies ++ [(n, v.stateSlot)] }

/-- Step 3 of R254 in one cycle, then the entry of the backing store. -/
def Cx.remap (c : Cx) (w : Nat) (v : Win) (n : Option Step) : Cx :=
  let s := winStack w
  let c := c.stashShift w v
  let c := c.retire s v.stateSlot
  let c := c.modWin w fun u => { u with
    stateSlot := v.specSlot, committed := v.committed + 1#32, specValid := false, digest := u.newDigest, newDigest := []
    step := n, hold := false, st := .quiet, verdict := none, importStep := none, commitSent := false
    commitHeld := false, pass := none }
  ((c.saveEntry w).freeRecords (.commit w)).serveGrads

/-- R397: commits of a stack wait while a rail of its owner or of the journal master is below warning, or while they are
deferred. -/
def Cx.commitsWait (c : Cx) (s : Nat) : Bool :=
  let held (k : Die) : Bool := !k.below.isEmpty || k.deferred
  held (c.die (c.owner s)) || held (c.die c.master)

/-- COMMIT_REMAP (R254): the journal holds the commit record; the ledger remaps in one cycle. -/
def execCommitRemap (w : BitVec 19) (s : State) : R :=
  let c := s.cx
  let w := w.toNat
  match c.win? w with
  | none => s.go c
  | some v =>
    match v.st with
    | .committing n =>
      if !v.commitHeld || c.commitsWait (winStack w) then s.go c
      else
        let replayed := match c.verdictFor v n with | some (.replay _) => true | _ => false
        match v.importStep with
        | some m => s.go (((c.remap w v m).bumpLedger w 0x600).markImport w)
        | none =>
          let c := c.remap w v (some n)
          let c := match c.tensor? v.tensor with
            | some t => c.commitStats t (winStack w) n
            | none => c
          let c := (c.bumpLedger w 0x600).markOut w n (if replayed then .replayed else .committed)
          s.go (if replayed then c.bumpLedger w 0x604 else c)
    | _ => s.go c

/-- STASH_COPY_DONE (R80): the oldest copy under way ends: the stash slot holds the W array, and the retiring slot is
no longer held. -/
def execStashCopyDone (w : BitVec 19) (s : State) : R :=
  let c := s.cx
  let w := w.toNat
  match c.win? w with
  | none => s.go c
  | some v =>
    match v.copies with
    | [] => s.go c
    | (n, slot) :: rest =>
      let k := winStack w
      let c := c.baseWrite (stackKey k (c.stashOff v.region n)) (c.dram k (c.slotOff slot + offW) 0x200000)
      s.go (c.modWin w fun v => { v with copies := rest })

/-- SLOT_RELEASE (R78): a slot that left its role returns once no read holds it. -/
def execSlotRelease (stk : Fin 20) (slot : BitVec 20) (s : State) : R :=
  let c := s.cx
  let n := slot.toNat
  if (c.stk stk).releasing.contains n && !(c.heldSlots stk).contains n then
    s.go (c.modStk stk fun k => { k with releasing := ndel k.releasing n })
  else s.go c

/-! ### EXPORT (R263, R264) -/

/-- A key_slot operand that does not name a loaded slot within staged_slots (R326). -/
def Cx.badKey (c : Cx) (n : Nat) : Bool :=
  n != 0 && (decide (n > (c.img.cfg.map (·.stagedSlots)).getD 0) || (kget? c.keys n).isNone)

/-- Data key and tweak key of a slot. -/
def Cx.keyPair (c : Cx) (n : Nat) : List Byte × List Byte :=
  let k := kget [] c.keys n
  (f32Bytes (k.take 8), f32Bytes (k.drop 8))

/-- Encrypt or decrypt a window image with a key slot; slot 0 leaves it (R326, R327). -/
def Cx.crypt (c : Cx) (decrypt : Bool) (slot tensor k : Nat) (img : List Byte) : List Byte :=
  if slot = 0 then img else xtsImage decrypt (c.keyPair slot).1 (c.keyPair slot).2 tensor k img

def padTo (n : Nat) (l : List Byte) : List Byte := l ++ List.replicate ((n - l.length % n) % n) 0#8

/-- Export image of one window (Table 10.8). -/
def exportImage (v : Win) (ver : Version) (step : Option Step) (vals : List Byte) : List Byte :=
  let p := padTo 64 vals
  leBytes 4 v.tensor ++ leBytes 4 v.k ++ leBytes 4 v.valid ++ leBytes 4 ver.toNat
    ++ leBytes 6 ((step.map BitVec.toNat).getD 0) ++ [0#8, 0#8] ++ leBytes 4 (crc32c p).toNat
    ++ List.replicate 36 0#8 ++ p

/-- Step of a committed or stashed version. -/
def Win.stepOf (v : Win) (ver : Version) : Option Step :=
  if ver = v.committed then v.step
  else match v.stashed ver with
    | some j => v.stashSteps.getD j none
    | none => none

/-- Offsets of the images of windows k … k+n-1 in a run of images. -/
def Tensor.imageOff (t : Tensor) (k i : Nat) : Nat := t.imageBytes k i

def bodyExport : Body := fun st f c =>
  let ver : Version := BitVec.ofNat 32 (f.arg 24 63 32)
  let dest := f.arg 32 63 0
  let latest := f.bit 40 0
  let key := f.arg 40 3 1
  match c.runOf f with
  | none => (c, .halt haltDecode)
  | some (t, ws) =>
    if (bits dest 63 60 != 2 && bits dest 63 60 != 4) || c.badKey key then (c, .halt haltDecode)
    else match c.badOperand? st f .write 3 dest (t.imageBytes f.first f.count) with
      | some r => r
      | none =>
        if c.boundAway st f.tensor then refuseFenced c f.tensor
        else if ws.any fun w => c.needsTwin (c.dieOf st) (winStack w) then retryLater c
        else
          let sts := ws.map fun w => (w, c.readStatus w latest ver false 0)
          match worstRead sts with
          | some (w, k) =>
            let c := c.sayRetired sts k f.tensor ver st.toNat
            if k = stRetry then retryLater c else (c, .done k (c.committedOf w))
          | none =>
            let d := c.demandAll ws
            let c := d.1
            if !d.2 then (c.modFlight st f.number fun g => { g with slow := true }, .wait .other)
            else
              let bad := (List.range f.count).findSome? fun i =>
                let w := ws.getD i 0
                (c.hubPoisonIn (c.versionKey w latest ver false 0 0) (2 * t.valid (f.first + i))).map fun o =>
                  t.imageOff f.first i + 64 + o
              match bad with
              | some off => (c.sawPoisonIn ((List.range f.count).map fun i =>
                  (c.versionKey (ws.getD i 0) latest ver false 0 0, 2 * t.valid (f.first + i))), .done stPoison off)
              | none =>
                let data := ws.flatMap fun w =>
                  match c.win? w with
                  | none => []
                  | some v =>
                    let u := v.served latest ver
                    let vals := c.hubBytes (c.versionKey w latest ver false 0 0) (2 * v.valid)
                    c.crypt false key v.tensor v.k (exportImage v u (v.stepOf u) vals)
                let c := c.holdSlots st f.number ws latest ver false
                (c.hubWrite dest data, .done stOk data.length)

/-- EXPORT (R264). -/
def execExportW (st : StreamId) (s : State) : R := s.go (s.cx.runStream 0x24 bodyExport st)

/-! ### IMPORT (R265, R266) -/

/-- Cause of a window image's refusal: 0 header, 2 reserved bytes, 1 crc (Table 10.12). -/
def imageBad (v : Win) (img : List Byte) : Option Nat :=
  let f (o n : Nat) : Nat := leNat ((img.drop o).take n)
  if bits (f 0 4) 23 0 != v.tensor || bits (f 4 4) 19 0 != v.k || bits (f 8 4) 20 0 != v.valid then some 0
  else if bits (f 0 4) 31 24 != 0 || bits (f 4 4) 31 20 != 0 || bits (f 8 4) 31 21 != 0 || f 22 2 != 0
      || (img.drop 28).take 36 != List.replicate 36 0#8 then some 2
  else if f 24 4 != (crc32c (img.drop 64)).toNat then some 1
  else none

/-- Stage one window from its image into a free pool slot (R266); the writes are hub-side writes (Table 7.2). -/
def Cx.stageWin (c : Cx) (w : Nat) (img : List Byte) (step : Step) (tenant : Nat) : Cx :=
  match c.win? w, c.freeSlot (winStack w) with
  | some v, some slot =>
    let s := winStack w
    let at_ (o : Nat) : Nat := stackKey s (c.slotOff slot + o)
    let vals := (img.drop 64).take (2 * v.valid)
    let hdrs := (List.range 16384).flatMap fun b =>
      let h := leNat (c.hubBytes (stackKey s (c.slotOff v.stateSlot + offH + 8 * b)) 8)
      leBytes 8 (bits h 19 16 * 2 ^ 16)
    let c := c.hubPoke (at_ offW) (vals ++ List.replicate (0x200000 - vals.length) 0#8)
    let c := if v.tails then c.hubPoke (at_ offT) (List.replicate 0x100000 0#8) else c
    let c := c.hubPoke (at_ offM) (List.replicate 0x100000 0#8)
    let c := c.hubPoke (at_ offH) hdrs
    let dig := digestOf (c.leaves Cx.hubBytes s slot v.tails) v.tensor v.k (some step)
    (c.tagSlot s slot tenant).modWin w fun v => { v with
      specSlot := slot, specValid := true, newDigest := dig, importStep := some (some step), hold := false }
  | _, _ => c

/-- A window that an IMPORT or a DRAIN waits for is QUIET, holds nothing and runs no drain (R198, R245). -/
def Cx.winIdle (c : Cx) (w : Nat) : Bool :=
  match c.win? w with
  | some v => v.st == .quiet && !v.hold && !v.specValid && v.cut.isNone && v.resident
  | none => true

/-- Enough free pool slots for every window of a list, stack by stack. -/
def Cx.slotsFor (c : Cx) (ws : List Nat) : Bool :=
  (List.range 20).all fun s => (ws.filter fun w => winStack w = s).length ≤ c.freeCount s

/-- R, C and S of a tensor cleared in every stack, and what their buffers held (reset_stats of R266). -/
def Cx.clearStats (c : Cx) (t : Tensor) : Cx :=
  match c.img.cfg with
  | some g => if !t.factored then c else g.geo.active.foldl (fun c s =>
      let b := c.section_ t s
      let c := c.modStk s fun k => { k with engine := { k.engine with runs := k.engine.runs.filter fun r => r.tensor != t.handle } }
      (c.basePut s b (List.replicate 64 0#8)).basePut s (b + 64) (List.replicate (8 * t.rows + 8 * t.columns) 0#8)) c
  | none => c

/-- Some stack holds speculative statistics of the tensor. -/
def Cx.statsSpec (c : Cx) (t : Tensor) : Bool :=
  match c.img.cfg with
  | some g => t.factored && g.geo.active.any fun s => c.statSpec t s
  | none => false

/-- Outcome of reading the images of a list of windows: the first poisoned byte, or the first image that fails. -/
inductive ImportCheck where
  | ok (imgs : List (List Byte))
  | poison (off : Nat)
  | bad (off w cause : Nat)
  deriving DecidableEq, Repr

/-- Read, decrypt and check the images at an address: window ids with their offset and length. -/
def Cx.readImages (c : Cx) (src key : Nat) (ps : List (Nat × Nat × Nat)) : ImportCheck :=
  let rs := ps.map fun p =>
    match c.win? p.1 with
    | none => (p, ([] : List Byte), some 0)
    | some v =>
      let img := c.crypt true key v.tensor v.k (c.readAt (src + p.2.1) p.2.2)
      (p, img, imageBad v img)
  let poison := ps.findSome? fun p => (c.poisonIn (src + p.2.1) p.2.2).map (· + p.2.1)
  let bad := rs.find? fun r => r.2.2.isSome
  match poison, bad with
  | some o, some b => if o < b.1.2.1 + b.1.2.2 then .poison o else .bad b.1.2.1 b.1.1 (b.2.2.getD 0)
  | some o, none => .poison o
  | none, some b => .bad b.1.2.1 b.1.1 (b.2.2.getD 0)
  | none, none => .ok (rs.map fun r => r.2.1)

/-- The staging and the commits of R265, for IMPORT and STAGE_TENANT. `ps` lists the windows with the offset and the
length of their images. -/
def importCore (st : StreamId) (f : Flight) (c : Cx) (ps : List (Nat × Nat × Nat)) (src key : Nat) (step : Step)
    (wait : Bool) (prep : Cx → Cx) (tenant : Nat) : Cx × Res :=
  let ws := ps.map (·.1)
  let d := c.demandAll ws
  let c := d.1
  if !d.2 then (c.modFlight st f.number fun g => { g with slow := true }, .wait .other)
  else if wait || !(ws.all c.winIdle) || !c.slotsFor ws then (c, .wait .other)
  else match c.readImages src key ps with
    | .poison off => (c, .done stPoison off)
    | .bad off w cause =>
      let v := (c.win? w).getD { tensor := 0, region := 0, k := 0, valid := 0, stateSlot := 0, gSlot := 0 }
      (c.ev 0x4009 6 2 (c.dieOf st) (c.dieOf st).num [v.tensor, v.k, cause], .done stPoison off)
    | .ok imgs =>
      let c := (List.range ws.length).foldl (fun c i => c.stageWin (ws.getD i 0) (imgs.getD i []) step tenant) c
      let c := ws.foldl (fun c w => c.sendCommit w step) (prep c)
      (c.modFlight st f.number fun g => { g with phase := 2, wins := ws.map fun w => (w, WinOut.todo) }, .wait .peerCommit)

/-- Every window of a command has its outcome. -/
def Flight.settled (f : Flight) : Bool := f.wins.all fun p => p.2 != .todo

/-- Windows of a command in one stack exceed the pool (R265). -/
def Cx.overPool (c : Cx) (ws : List Nat) : Bool :=
  (List.range 20).any fun s => decide ((ws.filter fun w => winStack w = s).length > c.lay.pool)

def bodyImport : Body := fun st f c =>
  let src := f.arg 32 63 0
  let step : Step := BitVec.ofNat 48 (f.arg 40 47 0)
  let key := f.arg 40 51 49
  if f.phase = 2 then (if f.settled then okOpen c 0x25 else (c, .wait .peerCommit))
  else match c.runOf f with
    | none => (c, .halt haltDecode)
    | some (t, ws) =>
      if (bits src 63 60 != 2 && bits src 63 60 != 4) || c.badKey key || c.overPool ws then (c, .halt haltDecode)
      else match c.badOperand? st f .read 3 src (t.imageBytes f.first f.count) with
        | some r => r
        | none =>
          if c.boundAway st f.tensor then refuseFenced c f.tensor
          else if ws.any fun w => (c.win? w).any (·.fenced) then refuseFenced c ((ws.find? fun w =>
            (c.win? w).any (·.fenced)).getD 0)
          else if c.anyBusy ws || c.cutOff st ws then retryLater c
          else
            let ps := (List.range f.count).map fun i =>
              (ws.getD i 0, t.imageOff f.first i, t.imageOff f.first (i + 1) - t.imageOff f.first i)
            importCore st f (c.arm step) ps src key step (f.bit 40 48 && c.statsSpec t)
              (fun c => if f.bit 40 48 then c.clearStats t else c) (kget 0 c.binding f.tensor)

/-- IMPORT (R265). -/
def execImportW (st : StreamId) (s : State) : R := s.go (s.cx.runStream 0x25 bodyImport st)

end Sys2Proof.Machine
end

