-- ==== Sys2Proof/Machine/Update.lean ====
section
/-!
DEFINITION. UPDATE and pass 2 (R216, R244 to R253), the passes' start and end, and the update engine's registers
(R237, R238).
-/
namespace Sys2Proof.Machine

/-! ### The step parameter table (R216, R228) -/

/-- The table that 256 bytes spell (Table 9.1). -/
def readTable (b : List Byte) : StepTable where
  c := (List.range 32).map fun i => BitVec.ofNat 32 (leNat ((b.drop (4 * i)).take 4))
  seed := BitVec.ofNat 64 (leNat ((b.drop 0x80).take 8))
  lossScale := BitVec.ofNat 32 (leNat ((b.drop 0x88).take 4))
  mirrorBase := leNat ((b.drop 0x90).take 8)
  mirrorHalf := leNat ((b.drop 0x98).take 8)

def finitePositive (a : W32) : Bool :=
  match f32Num a with
  | .fin n m _ => !n && m != 0
  | _ => false

def hasSte (prog : List W32) : Bool :=
  prog.any fun w => match decodeRule w with | some (.ste _ _) => true | _ => false

/-- Program in force for a window's tensor in its stack (R236). -/
def Cx.programOf (c : Cx) (w : Nat) (t : Tensor) : List W32 := kget [] (c.stk (winStack w)).engine.rules t.rule

/-- Stack offset of a window's first mirror byte for the version it produces next (R228). -/
def mirrorOff (tb : StepTable) (t : Tensor) (w : Nat) (ver : Version) : Nat :=
  tb.mirrorBase + ver.toNat % 2 * tb.mirrorHalf + (w / 20 - t.base) * 1048576

/-- Mirror halves that a window's pass of a step may write: that of the next version, and the other one too while another
step's version may commit first (log entry 84). -/
def Win.mirrorVersions (v : Win) (n : Step) (direct : Bool) : List Version :=
  if v.st.step? = some n || (direct && v.st == .quiet) then [v.committed + 1#32] else [v.committed + 1#32, v.committed + 2#32]

/-- Some mirror byte of a window lies outside every placed region. -/
def Cx.mirrorBad (c : Cx) (tb : StepTable) (t : Tensor) (n : Step) (direct : Bool) (w : Nat) : Bool :=
  match c.win? w with
  | none => false
  | some v => (v.mirrorVersions n direct).any fun ver =>
    let o := mirrorOff tb t w ver
    (List.range ((v.valid + 4095) / 4096)).any fun i =>
      let x := o + 4096 * i
      decide (x ≥ stackBytes) || !c.inPlaced (winStack w) x

/-- Offset of the first offending field of a table (R216). -/
def Cx.badTable (c : Cx) (b : List Byte) (t : Tensor) (n : Step) (direct : Bool) (ws : List Nat) : Option Nat :=
  let tb := readTable b
  let ste := ws.any fun w => hasSte (c.programOf w t)
  if !finitePositive tb.lossScale then some 0x88
  else if (b.drop 0x8C).take 4 != List.replicate 4 0#8 then some 0x8C
  else if ste && tb.mirrorBase % 4096 != 0 then some 0x90
  else if ste && tb.mirrorHalf % 4096 != 0 then some 0x98
  else if ste && ws.any (c.mirrorBad tb t n direct) then some 0x90
  else if b.drop 0xA0 != List.replicate 96 0#8 then some 0xA0
  else none

/-- Mode of an UPDATE (Table 10.3). -/
def Flight.mode (f : Flight) : Nat := f.arg 32 49 48

/-- `UPD_TABLE_INVALID` and `POISONED` (R216). -/
def tableBad (c : Cx) (st : StreamId) (f : Flight) (ws : List Nat) (addr off : Nat) : Cx × Res :=
  let d := c.dieOf st
  (c.ev 0x4202 0 2 d (winStack (ws.headD 0)) [winStack (ws.headD 0), st.toNat, f.number.toNat, addr, off]
    (some f.step), .done stPoison off)

/-- Read and check the table of an UPDATE: the table, or the command's end. -/
def Cx.takeTable (c : Cx) (st : StreamId) (f : Flight) (t : Tensor) (ws : List Nat) : Sum StepTable (Cx × Res) :=
  let a := f.arg 40 63 0
  let tag := bits a 63 60
  if (tag != 0 && tag != 3 && tag != 4) || a % 64 != 0 then
    .inr (tableBad (c.addrInvalid (c.dieOf st) 0 st f.number 4 a) st f ws a 0)
  else match c.checkRange .read a 256 with
    | some off => .inr (tableBad (c.addrInvalid (c.dieOf st) 0 st f.number 4 a) st f ws a off)
    | none =>
      match c.away? (c.dieOf st) a, c.hubPoison a 256 with
      | some p, _ => .inr (refuseBy c p)
      | none, some off => .inr (tableBad c st f ws a off)
      | none, none =>
          let r := c.hubRead a 256
          let c := r.1
          let b := r.2
          match c.badTable b t f.step (f.mode = 1) ws with
          | some off =>
            let outside := off = 0x90 && (readTable b).mirrorBase % 4096 = 0
            .inr (tableBad (if outside then c.addrInvalid (c.dieOf st) 0 st f.number 4 (readTable b).mirrorBase else c)
              st f ws a off)
          | none => .inl (readTable b)

/-! ### UPDATE (R247 to R252) -/

/-- R246: the step is no newer than the window's newest committed version's. -/
def Win.stale (v : Win) (n : Step) : Bool :=
  match v.step with
  | some m => !newer n m
  | none => false

/-- The step was abandoned for the window: the ledgers keep that verdict or an ABANDON acted on the window, which does not
work on the step. -/
def Cx.gone (c : Cx) (v : Win) (n : Step) : Bool :=
  v.st.step? != some n && (v.gone = some n || match kget? c.verdicts v.tensor with
    | some (m, .abandon) => m = n
    | _ => false)

/-- Outcome that a window has before any pass: left untouched (R246), fenced, or, for a `SPECULATE` UPDATE, abandoned
(R245). -/
def Cx.idleOutcome (c : Cx) (n : Step) (direct : Bool) (p : Nat × WinOut) : Nat × WinOut :=
  match p.2, c.win? p.1 with
  | .todo, some v => if v.fenced || v.stale n || (!direct && c.gone v n) then (p.1, .untouched) else p
  | .todo, none => (p.1, .untouched)
  | _, _ => p

def countOut (o : WinOut) (l : List (Nat × WinOut)) : Nat := (l.filter fun p => p.2 == o).length

/-- Result field of R252. -/
def updateResult (l : List (Nat × WinOut)) : Nat :=
  countOut .committed l + countOut .replayed l + countOut .replayed l * 2 ^ 21 + countOut .untouched l * 2 ^ 42

/-- A DIRECT UPDATE takes its QUIET windows to WRITE_RUN at once, up to eight a stack (R245, R252). -/
def Cx.directStart (c : Cx) (n : Step) (w : Nat) : Cx :=
  match c.win? w with
  | some v =>
    if v.st == .quiet && !v.fenced && v.resident && v.cut.isNone && c.running (winStack w) < 8 then
      c.modWin w fun v => { v with st := .writeRun n true, hold := true, verdict := none }
    else c
  | none => c

/-- Progress of a SPECULATE or DIRECT UPDATE: outcomes, direct starts, and its end. -/
def updateGo (st : StreamId) (f : Flight) (c : Cx) (ws : List Nat) (outs : List (Nat × WinOut)) : Cx × Res :=
  let outs := outs.map (c.idleOutcome f.step (f.mode = 1))
  let c := c.modFlight st f.number fun g => { g with wins := outs, phase := 1 }
  if outs.all fun p => p.2 != .todo then
    if c.allFenced ws && outs.any (fun p => p.2 == .untouched) then refuseFenced c (ws.headD 0)
    else (c, .done stOk (updateResult outs))
  else if c.anyBusy ws || c.cutOff st ws then retryLater c
  else
    let todo := (outs.filter fun p => p.2 == .todo).map (·.1)
    let slow := todo.any fun w => (c.win? w).any fun v => !v.resident
    let c := (c.demandAll todo).1
    let c := if slow then c.modFlight st f.number fun g => { g with slow := true } else c
    (if f.mode = 1 then todo.foldl (fun c w => c.directStart f.step w) c else c, .wait .peerCommit)

/-- ABANDON acts on a window of its step whose verdict is unknown or ABANDON (R251). -/
def Cx.abandonable (c : Cx) (n : Step) (w : Nat) : Bool :=
  match c.win? w with
  | some v =>
    match v.st with
    | .held m | .specRun m | .specReady m => m = n && (c.verdictFor v n).isNone
    | _ => false
  | none => false

/-- A window of the step that ABANDON leaves to finish. -/
def Cx.finishing (c : Cx) (n : Step) (w : Nat) : Bool :=
  match c.win? w with
  | some v =>
    match v.st with
    | .writeRun m _ | .committing m => m = n
    | .specRun m | .specReady m => m = n && (c.verdictFor v n).isSome
    | _ => false
  | none => false

def abandonGo (st : StreamId) (f : Flight) (c : Cx) (t : Tensor) (ws : List Nat) : Cx × Res :=
  if f.phase = 0 then
    let act := ws.filter (c.abandonable f.step)
    let keep := ws.filter (c.finishing f.step)
    let c := if act.isEmpty then c else
      ((act.foldl (fun c w => c.abandonWin w f.step) c).sayAbandoned t.handle f.step (c.dieOf st) 1 act.length).serveGrads
    let c := c.modFlight st f.number fun g => { g with
      phase := 1, worst := act.length, wins := keep.map fun w => (w, WinOut.todo) }
    if keep.isEmpty then (c, .done stOk act.length) else (c, .wait .peerCommit)
  else if f.wins.all fun p => p.2 != .todo || !c.finishing f.step p.1 then (c, .done stOk f.worst)
  else (c, .wait .peerCommit)

def bodyUpdate : Body := fun st f c =>
  match c.runOf f with
  | none => (c, .halt haltDecode)
  | some (t, ws) =>
    if f.mode = 3 || (f.mode = 2 && f.arg 40 63 0 != 0) then (c, .halt haltDecode)
    else if f.mode = 2 then
      if c.boundAway st f.tensor then refuseFenced c f.tensor
      else if c.cutOff st ws then retryLater (c.arm f.step)
      else abandonGo st f (c.arm f.step) t ws
    else if f.phase = 1 then updateGo st f c ws f.wins
    else
      let c := c.arm f.step
      if c.boundAway st f.tensor then refuseFenced c f.tensor
      else match c.takeTable st f t ws with
        | .inr r => r
        | .inl tb =>
          if c.allFenced ws then refuseFenced c (ws.headD 0)
          else
            let outs := ws.map fun w => (w, WinOut.todo)
            let c := c.modFlight st f.number fun g => { g with table := some tb, phase := 1, wins := outs }
            updateGo st f c ws outs

/-- UPDATE (R252). -/
def execUpdate (st : StreamId) (s : State) : R := s.go (s.cx.runStream 0x23 bodyUpdate st)

/-! ### The start of a pass (R244, R249, R250, R253) -/

/-- The UPDATE command, oldest first, that waits for a window: for the step it works on, or any step when it works on
none. -/
def Cx.demand? (c : Cx) (w : Nat) (n : Option Step) (direct : Bool) : Option (StreamId × Flight) :=
  c.streams.findSome? fun p =>
    (p.2.flights.find? fun f => f.op = 0x23 && f.status.isNone && f.phase = 1 && f.mode != 2
      && f.wins.contains (w, .todo) && (match n with | some m => f.step = m | none => true)
      && (!direct || f.mode = 1)).map fun f => (BitVec.ofNat 12 p.1, f)

/-- Pyroimet order: one window of a Pyroimet region at a time in a stack, lowest window id first (Table 2.7). -/
def Cx.pyroBlocked (c : Cx) (w : Nat) (v : Win) : Bool :=
  let pyro (x : Win) : Bool := ((c.region? x.region).map (·.pyroimet)).getD false
  pyro v && (c.wins.any fun p => winStack p.1 = winStack w && p.1 != w && pyro p.2
    && (p.2.pass.isSome || (decide (p.1 < w) && p.2.region = v.region && (c.demand? p.1 p.2.st.step? false).isSome)))

/-- On entry to Pyroimet mode the engine takes its drizzle seed (R60). -/
def Cx.enterPyro (c : Cx) (w : Nat) (v : Win) (tb : StepTable) : Cx :=
  let s := winStack w
  if ((c.region? v.region).map (·.pyroimet)).getD false && !(c.stk s).engine.pyro then
    c.modStk s fun k => { k with engine := { k.engine with pyro := true, seed := tb.seed, drizzle := [] } }
  else c

/-- Create a pass: a slot, a copy of the table, and a block for every lane group. -/
def Cx.beginPass (c : Cx) (w slot : Nat) (v : Win) (t : Tensor) (n : Step) (clip : W32) (st : StreamId) (f : Flight)
    (tb : StepTable) : Cx :=
  let s := winStack w
  let prog := c.programOf w t
  let p0 : Pass := { slot := slot, step := n, clip := clip, table := tb, prog := prog
                     fstatDone := !hasFstat prog || !t.factored, stream := st, command := f.number }
  let e := c.ruleEnv w v p0 t 0 0
  let p := { p0 with flags := e.specialFlags }
  let c := (((c.settleGrants s).enterPyro w v tb).tagSlot s slot v.tenantTag).noteRun e prog
  let c := (c.orFlags (updFlagsReg s) p.flags).modFlight st f.number fun g => { g with flags := g.flags ||| p.flags }
  let c := c.modWin w fun u => { u with
    pass := some p, specSlot := slot, specValid := true, importStep := none, rerun := false, gone := none
    tableCopy := some (tb, st, f.number) }
  (List.range 32).foldl (fun c g => c.nextBlock w v p t g g) (c.settleGrants s)

/-- Clip of a pass that runs under a verdict (R217, R249). -/
def clipOf (x : Option Verdict) : W32 :=
  match x with
  | some (.replay k) => k
  | _ => f32One

/-- Passes under way in a stack (R252). -/
def Cx.passes (c : Cx) (s : Nat) : Nat := (c.wins.filter fun p => winStack p.1 = s && p.2.pass.isSome).length

/-- Start the pass of a window that is in WRITE_RUN, or moves to it or to SPEC_RUN now. -/
def Cx.startPass (c : Cx) (w : Nat) (v : Win) (t : Tensor) (n : Step) (next : WSt) (direct : Bool) (clip : W32)
    (q : StreamId × Flight) : Cx :=
  match c.freeSlot (winStack w), q.2.table with
  | some slot, some tb =>
    let s := winStack w
    let stats := hasFstat (c.programOf w t) && !c.statsRan s t.handle n clip
    if stats && c.statsEarlier s t n then c.poolWait w q.1 q.2
    else if stats && !c.fstatReady s t n direct then c
    else (c.modWin w fun u => { u with st := next, hold := true }).beginPass w slot v t n clip q.1 q.2 tb
  | none, some _ => c.poolWait w q.1 q.2
  | _, none => c

/-- A window's pass 2, started or demanded, waits for final statistics or under R233 (R231, R237). -/
def Cx.statsWait (c : Cx) (w : Nat) (v : Win) : Bool :=
  match c.tensor? v.tensor with
  | none => false
  | some t =>
    let s := winStack w
    match v.pass with
    | some p =>
      !p.fstatDone && !c.statsRan s t.handle p.step p.clip
        && !c.fstatReady s t p.step (match v.st with | .writeRun _ d => d | _ => false)
    | none => !v.fenced && hasFstat (c.programOf w t) && (match c.demand? w v.st.step? false with
      | some q => !c.statsRan s t.handle q.2.step (clipOf (c.verdictFor v q.2.step))
          && !c.fstatReady s t q.2.step (q.2.mode = 1)
      | none => false)

/-- PASS2_START (R244): the device starts a pass 2 on the window once its slot, verdict and statistics allow. It is work of
the base die, which goes on while the hub core that owns the stack is down (R24). -/
def execPass2Start (w : BitVec 19) (s : State) : R :=
  let c := s.cx
  let w := w.toNat
  match c.win? w with
  | none => s.go c
  | some v =>
    match c.tensor? v.tensor with
    | none => s.go c
    | some t =>
      if v.pass.isSome || v.fenced || !v.resident || c.engineHalted (winStack w) || c.pyroBlocked w v then s.go c
      else match v.st with
        | .quiet =>
          match c.demand? w none true with
          | some q =>
            if v.stale q.2.step || v.cut.isSome || c.running (winStack w) ≥ 8 then s.go c
            else s.go (c.startPass w v t q.2.step (.writeRun q.2.step true) true f32One q)
          | none => s.go c
        | .held n =>
          match c.demand? w (some n) false with
          | none => s.go c
          | some q =>
            if v.stale n || c.running (winStack w) ≥ 8 then s.go c
            else match c.verdictFor v n with
              | some .abandon => s.go c
              | some x => s.go (c.startPass w v t n (.writeRun n false) false (clipOf (some x)) q)
              | none => s.go (c.startPass w v t n (.specRun n) false f32One q)
        | .specReady n =>
          match c.demand? w (some n) false, c.verdictFor v n with
          | some q, some (.replay k) =>
            if v.specValid || c.running (winStack w) ≥ 8 then s.go c
            else s.go (c.startPass w v t n (.writeRun n false) false k q)
          | _, _ => s.go c
        | .writeRun n d =>
          let copy : Option (StreamId × Flight) := if v.rerun then v.tableCopy.map fun x =>
            (x.2.1, { number := x.2.2, cmd := 0#512, table := some x.1 }) else none
          match c.demand? w (some n) false <|> copy with
          | none => s.go c
          | some q =>
            if c.passes (winStack w) ≥ 8 then s.go c else s.go (c.startPass w v t n (.writeRun n d) d (if d then f32One else clipOf (c.verdictFor v n)) q)
        | _ => s.go c

/-! ### The end of a pass (R45, R267) -/

/-- Run the rest of a lane group's block. -/
def Cx.runRest : Nat → Nat → Nat → Cx → Cx
  | 0, _, _, c => c
  | k + 1, w, g, c =>
    match c.win? w with
    | none => c
    | some v =>
      match v.pass, c.tensor? v.tensor with
      | some p, some t =>
        match kget? p.lanes g with
        | none => c
        | some l =>
          match p.prog[l.pc]?.bind decodeRule with
          | some i => Cx.runRest k w g (c.runRule w g v p t l i (ruleSem i))
          | none =>
            let e := c.ruleEnv w v p t l.block l.pc
            Cx.runRest k w g ((c.closeBlock e l).nextBlock w v p t g (l.block + 32))
      | _, _ => c

/-- Run whatever is left of a pass: every lane group has 512 blocks of at most 64 instructions. -/
def Cx.runAll (c : Cx) (w : Nat) : Cx :=
  (List.range 32).foldl (fun c g => Cx.runRest (512 * 65) w g c) c

/-- A pass has ended: digest, NaN event, and the window's next state. -/
def Cx.endPass (c : Cx) (w : Nat) (v : Win) (p : Pass) : Cx :=
  let s := winStack w
  let dig := digestOf (c.leaves Cx.bytes s p.slot v.tails) v.tensor v.k (some p.step)
  let c := (c.sayZeroed w p).modWin w fun v => { v with pass := none, newDigest := dig }
  match v.st with
  | .writeRun n _ => c.sendCommit w n
  | .specRun n =>
    if c.verdictFor v n = some .commit then c.sendCommit w n else c.modWin w fun v => { v with st := .specReady n }
  | _ => c

/-- PASS2_END (R267): the pass runs to its end under the grants that its stack gives (R234), its digest is formed and the
window moves on; the owner's hub core need not run (R24). -/
def execPass2End (w : BitVec 19) (s : State) : R :=
  let c := s.cx
  let w := w.toNat
  match c.win? w with
  | none => s.go c
  | some v =>
    match v.pass, c.tensor? v.tensor with
    | some p, some t =>
      if c.engineHalted (winStack w) || c.grantLimit (winStack w) = 0 then s.go c
      else
        let c := if p.fstatDone then c else c.runPrologue w v p t
        match (c.win? w).bind fun v => v.pass with
        | some q =>
          if !q.fstatDone then s.go c
          else
            let c := c.runAll w
            match c.win? w with
            | some u =>
              match u.pass with
              | some q => s.go (c.endPass w u q)
              | none => s.go c
            | none => s.go c
        | none => s.go c
    | _, _ => s.go c

/-! ### The engine's registers (R237, R238) -/

/-- A window whose pass 2 is stopped, running or not yet started, returns to HELD, or to QUIET after a DIRECT start
(Table 10.2). -/
def Cx.stopPass (c : Cx) (w : Nat) (v : Win) : Cx :=
  let c := c.dropSpec w
  match v.st with
  | .writeRun _ true => c.modWin w fun v => { v with st := .quiet, hold := false, verdict := none, rerun := false }
  | .writeRun n false => c.modWin w fun v => { v with st := .held n, rerun := false }
  | .specRun n => c.modWin w fun v => { v with st := .held n }
  | _ => c

/-- A command that a re-initialised engine was running ends (R238, R303). -/
def Cx.stopCommand (c : Cx) (st : StreamId) (num : W32) : Cx :=
  match c.flight? st num with
  | some f => if f.status.isNone then Cx.settle (retryLater c) st num else c
  | none => c

/-- A stack's engine works on a window for a command in flight: a PASS1 that has not reached it, or an UPDATE whose step the
window holds or runs (R238, log entry 84). -/
def Cx.engineServes (c : Cx) (s : Nat) (f : Flight) : Bool :=
  f.status.isNone && f.phase = 1 && f.wins.any fun p => p.2 == .todo && winStack p.1 = s
    && (f.op = 0x22 || (f.op = 0x23 && f.mode != 2 && match ((c.win? p.1).map fun v => v.st).getD .quiet with
      | .held n | .specRun n | .writeRun n _ => n = f.step
      | _ => false))

/-- Commands that a stack's engine runs. -/
def Cx.engineCommands (c : Cx) (s : Nat) : List (StreamId × W32) :=
  c.streams.flatMap fun p => (p.2.flights.filter (c.engineServes s)).map fun f => (BitVec.ofNat 12 p.1, f.number)

/-- UPD_REINIT (R238): its commands end, its windows leave SPEC_RUN and WRITE_RUN, and drizzle state resets. -/
def execUpdReinit (stk : Fin 20) (s : State) : R :=
  let c := s.cx
  let run := c.wins.filter fun p => winStack p.1 = stk.val && (match p.2.st with
    | .specRun _ | .writeRun _ _ => true
    | _ => false)
  let step := (run.findSome? fun p => p.2.pass.map (·.step)) <|> run.findSome? fun p => p.2.st.step?
  let cmds := c.engineCommands stk
  let c := cmds.foldl (fun c x => c.stopCommand x.1 x.2) c
  let c := run.foldl (fun c p => c.stopPass p.1 p.2) c
  let c := c.modStk stk fun k => { k with engine := { k.engine with drizzle := [] } }
  s.go ((c.ev 0x4201 0 1 (homeDie stk) stk [stk, cmds.length, (step.map BitVec.toNat).getD 0] step).serveGrads)

/-- UPD_CLEAR_COUNTERS (R237): the counters at 0x040 to 0x05C clear together. -/
def execUpdClearCounters (stk : Fin 20) (s : State) : R :=
  s.go ((List.range 4).foldl (fun c i => c.ctrClear (updBase stk + 0x40 + 8 * i)) s.cx)

end Sys2Proof.Machine
end

