-- ==== Sys2Proof/Machine/Ingress.lean ====
section
/-!
DEFINITION. DRAIN, pass 1 and the factored statistics' final sums (R196 to R202).
-/
namespace Sys2Proof.Machine

/-! ### DRAIN (R197 to R199) -/

/-- A lane's sum over the slots of the closing epoch, ascending from the lowest with a value (R189); the flags and
the NaNs that the additions produced. None when no slot has the lane (R188). -/
def Cx.laneSum (c : Cx) (w b e j : Nat) : Option (W32 × Flags × Nat) :=
  ((List.range 16).filterMap fun q => kget? c.acc (accIdx w b e q j)).foldl (fun a x =>
    match a with
    | none => some (x, 0#8, 0)
    | some y =>
      let z := f32Add y.1 x
      some (z.1, y.2.1 ||| z.2, y.2.2 + b2n (produces z.1 [y.1, x]))) none

/-- RNE to S16 of an exact product with the fused inverse loss scale, or of the value itself. -/
def drainRound (x : W32) (scale : Option W32) : W16 × Flags :=
  match scale with
  | none => f32ToS16 .rne x
  | some k =>
    let p := (f32Num x).mul (f32Num k)
    let r := Fmt.s16.round .rne p.1
    (BitVec.ofNat 16 r.1, r.2 ||| (f32Num x).readFlags)

/-- Values that a drained block gets, lane by lane, or none where Table 8.3 leaves it unchanged. -/
def Cx.drainLanes (c : Cx) (w : Nat) (v : Win) (ec b : Nat) : Option (List (W16 × Flags × Nat)) :=
  let s := winStack w
  let ae := c.accEpochOf s v.stateSlot b
  let has := c.acc.any fun p => p.1 / (64 * 16) = accIdx w b ec 0 0 / (64 * 16)
  let lane (j : Nat) : W16 × Flags × Nat :=
    let g := c.gAt s v.gSlot (64 * b + j)
    let a := (c.laneSum w b ec j).getD (0#32, 0#8, 0)
    if ae = ec then
      let x := w32 (convert .s16 .f32 .rne g.toNat)
      let t := if has then f32Add x.1 a.1 else (x.1, 0#8)
      let r := drainRound t.1 v.cutScale
      (r.1, a.2.1 ||| x.2 ||| t.2 ||| r.2, a.2.2 + b2n (f32IsNan x.1) + b2n (produces t.1 [x.1, a.1]))
    else
      let r := drainRound a.1 v.cutScale
      (r.1, a.2.1 ||| r.2, a.2.2)
  if ae = ec || has then some ((List.range 64).map lane)
  else if ae = (ec + 1) % 8 then some (List.replicate 64 (0#16, 0#8, 0))
  else none

/-- Drain one block (Table 8.3). -/
def Cx.drainBlock (c : Cx) (w : Nat) (v : Win) (ec : Nat) (own : StreamId × W32) (b : Nat) : Cx :=
  let s := winStack w
  match c.drainLanes w v ec b with
  | none => c
  | some ls =>
    let c := c.basePut s (c.gOff v.gSlot + 128 * b) (ls.flatMap fun l => leBytes 2 l.1.toNat)
    let fl := ls.foldl (fun f l => f ||| l.2.1) 0#8
    let c := (c.orFlags (updFlagsReg s) fl).modFlight own.1 own.2 fun f => { f with flags := f.flags ||| fl }
    let c := ((List.range 64).flatMap fun j => List.replicate (ls.getD j (0#16, 0#8, 0)).2.2 j).foldl (fun c j => c.nan
      { step := none, unitClass := 4, index := s, stream := own.1.toNat, command := own.2.toNat, tensorValid := true
        tensor := v.tensor, element := v.k * 1048576 + 64 * b + j, die := homeDie s }) c
    c.setAccEpoch s v.stateSlot b ec

/-- Values of the window's closing epoch still wait for an entry. -/
def Cx.lateValues (c : Cx) (w ec : Nat) : Bool :=
  c.gradHeld.any fun q => q.epoch = ec && c.heldWindow q = some w

/-- Outcome of one window in the command that owns it. -/
def Cx.windowDone (c : Cx) (own : StreamId × W32) (w : Nat) : Cx :=
  c.modFlight own.1 own.2 fun f => { f with wins := f.wins.map fun x => if x.1 = w then (w, .committed) else x }

/-- WINDOW_DRAIN (R199): the drain of a window's closing epoch, once its conditions hold (R198); it runs in the base die,
whatever its owner's core does (R24, R373). -/
def execWindowDrain (w : BitVec 19) (s : State) : R :=
  let c := s.cx
  let w := w.toNat
  match c.win? w with
  | none => s.go c
  | some v =>
    match v.cut with
    | none => s.go c
    | some own =>
      let ec := (v.eD + 1#3).toNat
      if v.hold || v.specValid || v.st != .quiet || !v.resident || v.fenced || c.lateValues w ec
          || c.engineHalted (winStack w) then s.go c
      else
        let c := (List.range 16384).foldl (fun c b => c.drainBlock w v ec own b) c
        let c := (c.dropAcc w fun e => e = ec).modWin w fun v => { v with
          eD := BitVec.ofNat 3 ec, cuts := v.cuts.tail, lastCut := some own }
        s.go (c.windowDone own w).serveGrads

/-- A DRAIN takes its cut for a window: later values belong to the next epoch (R197). Three bits of epoch hold six cuts; a
seventh is taken when one of them has drained (log entry 29). -/
def Cx.takeCut (c : Cx) (st : StreamId) (f : Flight) (scale : Option W32) (w : Nat) : Cx :=
  match c.win? w with
  | none => c.windowDone (st, f.number) w
  | some v =>
    if v.lastCut = some (st, f.number) then c.windowDone (st, f.number) w
    else if v.cuts.any (fun k => k.own = (st, f.number)) || v.cuts.length ≥ 6 then c
    else c.modWin w fun v => { v with cuts := v.cuts ++ [{ own := (st, f.number), scale := scale }], mode := none }

/-- The scale of a DRAIN, none when fuse is clear. -/
def Flight.fused (f : Flight) : Option W32 := if f.bit 32 32 then some (BitVec.ofNat 32 (f.arg 32 31 0)) else none

/-- Windows of the command that the conditions of Table 6.5 refuse: fenced, busy, or out of reach. -/
def windowsRefused (st : StreamId) (c : Cx) (ws : List Nat) : Option (Cx × Res) :=
  match ws.find? fun w => (c.win? w).any (·.fenced) with
  | some w => some (if c.repairing w then retryLater c else refuseFenced c w)
  | none =>
    if c.anyBusy ws || ws.any fun w => c.needsTwin (c.dieOf st) (winStack w) then some (retryLater c) else none

/-- Entries of a window's later epochs move one epoch down, and those of epoch `e` + 1 join epoch `e`: a lane that both hold
is their sum (log entry 29). -/
def Cx.mergeEpoch (c : Cx) (w e n : Nat) : Cx :=
  let prev (k : Nat) : Nat := if accEpoch k = 0 then k + 7 * 1024 else k - 1024
  let late := c.acc.filter fun p => accWin p.1 = w && (List.range n).any fun i => accEpoch p.1 = (e + 1 + i) % 8
  let c := { c with acc := c.acc.filter fun p => !late.contains p }
  late.foldl (fun c p =>
    let k := prev p.1
    match kget? c.acc k with
    | some a => let z := f32Add a p.2; ({ c with acc := kput c.acc k z.1 }).orFlags (updFlagsReg (winStack w)) z.2
    | none => { c with acc := kput c.acc k p.2 }) c

/-- A DRAIN that ends early gives up its cut of a window: what arrived after the cut joins the epoch that the cut was to
close (log entry 29). -/
def Cx.dropCut (c : Cx) (own : StreamId × W32) (w : Nat) : Cx :=
  match c.win? w with
  | none => c
  | some v =>
    match v.cuts.findIdx? fun k => k.own = own with
    | none => c
    | some i =>
      let e := (v.eD.toNat + 1 + i) % 8
      let n := v.cuts.length - i
      let c := (c.mergeEpoch w e n).modWin w fun v => { v with cuts := v.cuts.eraseIdx i }
      { c with gradHeld := c.gradHeld.map fun q =>
          if c.heldWindow q = some w && (List.range n).any (fun j => q.epoch = (e + 1 + j) % 8)
          then { q with epoch := (q.epoch + 7) % 8 } else q }

/-- A command that ends early gives up the cuts whose drains have not started. -/
def Cx.dropCuts (c : Cx) (own : StreamId × W32) (ws : List Nat) : Cx := ws.foldl (fun c w => c.dropCut own w) c

def bodyDrain : Body := fun st f c =>
  match c.runOf f with
  | none => (c, .halt haltDecode)
  | some (_, ws) =>
    if (f.fused.map finitePositive).getD true = false then (c, .halt haltDecode)
    else if c.boundAway st f.tensor then refuseFenced c f.tensor
    else if f.phase = 1 && f.settled then okOpen c 0x21
    else match windowsRefused st c ws with
      | some r => (r.1.dropCuts (st, f.number) ws, r.2)
      | none =>
        let c := if f.phase = 1 then c else c.modFlight st f.number fun g => { g with
          phase := 1, wins := ws.map fun w => (w, WinOut.todo) }
        let todo := (if f.phase = 1 then f.wins.filter fun p => p.2 == .todo else ws.map fun w => (w, WinOut.todo)).map (·.1)
        let c := todo.foldl (fun c w => c.takeCut st f f.fused w) c
        let d := c.demandAll todo
        let c := if d.2 then d.1 else d.1.modFlight st f.number fun g => { g with slow := true }
        if ((c.flight? st f.number).map Flight.settled).getD false then okOpen c 0x21 else (c, .wait .gradients)

/-- DRAIN (R197). -/
def execDrain (st : StreamId) (s : State) : R := s.go (s.cx.runStream 0x21 bodyDrain st)

/-! ### Pass 1 (R200 to R202) -/

/-- G element i widened, +0 in a block that is not current (R192). -/
def Cx.gWide (c : Cx) (s : Nat) (v : Win) (i : Nat) : W32 :=
  if c.accEpochOf s v.stateSlot (i / 64) = v.eD.toNat then c.gAt s v.gSlot i ++ 0#16 else 0#32

/-- The window's sum of squares by R200's pseudocode. -/
def Cx.sumSquares (c : Cx) (s : Nat) (v : Win) : W32 × Flags :=
  let groups := (List.range 32).map fun q =>
    (List.range 512).foldl (fun (a : W32 × Flags) n =>
      let b := q + 32 * n
      let sq := (List.range 64).map fun j => let g := c.gWide s v (64 * b + j); f32Mul g g
      let t := tree32 (sq.map (·.1))
      let r := f32Add a.1 t.1
      (r.1, sq.foldl (fun f x => f ||| x.2) (a.2 ||| t.2 ||| r.2))) (0#32, 0#8)
  let t := tree32 (groups.map (·.1))
  (t.1, groups.foldl (fun f x => f ||| x.2) t.2)

/-- Sum of squares from +0 over a list of parameters, in order (R201). -/
def Cx.sumRun (c : Cx) (s : Nat) (v : Win) (is : List Nat) : W32 × Flags :=
  is.foldl (fun (a : W32 × Flags) i =>
    let g := c.gWide s v i
    let q := f32Mul g g
    let r := f32Add a.1 q.1
    (r.1, a.2 ||| q.2 ||| r.2)) (0#32, 0#8)

/-- Row and column partials of a window into the statistics store (R201, R230). -/
def Cx.partials (c : Cx) (w : Nat) (v : Win) (t : Tensor) : Cx × Flags :=
  let s := winStack w
  let pos := match c.img.cfg with
    | some g => (g.windowsIn t s).findIdx (· == v.k)
    | none => 0
  let base := c.section_ t s + t.offPart pos
  let e0 := v.k * 1048576
  let row0 := e0 / t.columns
  let pars := List.range v.valid
  let rows := (List.range t.partRows).map fun j =>
    c.sumRun s v (pars.filter fun i => (e0 + i) / t.columns = row0 + j)
  let cols := (List.range t.partCols).map fun j =>
    c.sumRun s v (pars.filter fun i => (e0 + i) % t.columns = (e0 + j) % t.columns)
  let c := c.basePut s base (f32Bytes (rows.map (·.1)))
  let c := c.basePut s (base + 4 * t.partRows) (f32Bytes (cols.map (·.1)))
  (c, (rows ++ cols).foldl (fun f x => f ||| x.2) 0#8)

/-- Pass 1 of one window that is held for the step. -/
def Cx.pass1Win (c : Cx) (st : StreamId) (f : Flight) (w : Nat) (v : Win) (t : Tensor) (n : Step) : Cx :=
  let s := winStack w
  let r := c.sumSquares s v
  let p := if t.factored then c.partials w v t else (c, 0#8)
  let c := p.1
  let gs := List.range 1048576
  let bad := gs.filter fun i => f32NonFinite (c.gWide s v i)
  let nan := bad.filter fun i => f32IsNan (c.gWide s v i)
  let zero := (List.range 16384).filter fun b => c.accEpochOf s v.stateSlot b != v.eD.toNat
  let c := nan.foldl (fun c i => c.nan
    { step := some n, unitClass := 0, index := s, stream := st.toNat, command := f.number.toNat, tensorValid := true,
      tensor := t.handle, element := v.k * 1048576 + i, die := homeDie s }) c
  let fl := r.2 ||| p.2
  let c := (c.orFlags (updFlagsReg s) fl).modFlight st f.number fun g => { g with
    flags := g.flags ||| fl, wins := g.wins.map fun x => if x.1 = w then (w, .committed) else x
    result := BitVec.ofNat 64 (min (2 ^ 32 - 1) (g.result.toNat % 2 ^ 32 + bad.length)
      + 2 ^ 32 * min (2 ^ 32 - 1) (g.result.toNat / 2 ^ 32 + zero.length)) }
  c.modWin w fun v => { v with sumSq := some (n, r.1) }

/-- Pass 1 reaches a window of its run, when the window lets it (R200, R244, R245, R249). A window that its step's verdict
abandons passes through HELD and is counted (Table 10.11). -/
def Cx.pass1Try (c : Cx) (st : StreamId) (f : Flight) (t : Tensor) (n : Step) (w : Nat) : Cx :=
  match c.win? w with
  | none => c.windowDone (st, f.number) w
  | some v =>
    if !v.resident then c
    else if v.st == .quiet then
      if c.verdictFor v n = some .abandon then
        ((c.modWin w fun v => { v with gone := some n }).bumpLedger w 0x608).windowDone (st, f.number) w
      else if v.cut.isSome then c
      else
        let u := { v with st := .held n, hold := true, verdict := none }
        (c.modWin w fun _ => u).pass1Win st f w u t n
    else if v.st.step? = some n then c.pass1Win st f w v t n
    else c

def bodyPass1 : Body := fun st f c =>
  match c.runOf f with
  | none => (c, .halt haltDecode)
  | some (t, ws) =>
    if c.boundAway st f.tensor then refuseFenced c f.tensor
    else match windowsRefused st c ws with
      | some r => r
      | none =>
        let c := if f.phase = 1 then c else (c.arm f.step).modFlight st f.number fun g => { g with
          phase := 1, wins := ws.map fun w => (w, WinOut.todo), result := 0#64 }
        let todo := (if f.phase = 1 then f.wins.filter fun p => p.2 == .todo else ws.map fun w => (w, WinOut.todo)).map (·.1)
        let d := c.demandAll todo
        let c := if d.2 then d.1 else d.1.modFlight st f.number fun g => { g with slow := true }
        let c := todo.foldl (fun c w => c.pass1Try st f t f.step w) c
        match c.flight? st f.number with
        | some g => if g.settled then (c, .done stOk g.result.toNat) else (c, .wait .gradients)
        | none => (c, .wait .gradients)

/-- PASS1 (R200). -/
def execPass1 (st : StreamId) (s : State) : R := s.go (s.cx.runStream 0x22 bodyPass1 st)

/-! ### Final sums (R201) -/

/-- Step for which every window of a tensor has a pass 1 result. -/
def Cx.reported (c : Cx) (t : Tensor) : Option Step :=
  match (c.tensorWindows t).map fun w => ((c.win? w).bind fun v => v.sumSq).map (·.1) with
  | some n :: r => if r.all (· == some n) then some n else none
  | _ => none

/-- tree64 over binary32 values, rounded to binary32; the flags, and whether a NaN was read or produced. -/
def tree64of32 (l : List W32) : W32 × Flags × Bool :=
  match l with
  | [] => (0#32, 0#8, false)
  | _ =>
    let t := tree64 (l.map f32To64)
    let r := f64To32 t.1
    (r.1, t.2 ||| r.2, f32IsNan r.1)

/-- Partials for a row, ascending k. -/
def Cx.rowParts (c : Cx) (t : Tensor) (r : Nat) : List W32 :=
  (List.range t.windows).filterMap fun k =>
    let e0 := k * 1048576
    let r0 := e0 / t.columns
    let r1 := (e0 + t.valid k - 1) / t.columns
    if r0 ≤ r ∧ r ≤ r1 then
      let s := winStack (c.windowId t k)
      let pos := match c.img.cfg with | some g => (g.windowsIn t s).findIdx (· == k) | none => 0
      some (c.f32At s (c.section_ t s + t.offPart pos + 4 * (r - r0)))
    else none

/-- Partials for a column, ascending k. -/
def Cx.colParts (c : Cx) (t : Tensor) (j : Nat) : List W32 :=
  (List.range t.windows).filterMap fun k =>
    let c0 := k * 1048576 % t.columns
    let i := (j + t.columns - c0) % t.columns
    if i < t.valid k ∧ i < t.partCols then
      let s := winStack (c.windowId t k)
      let pos := match c.img.cfg with | some g => (g.windowsIn t s).findIdx (· == k) | none => 0
      some (c.f32At s (c.section_ t s + t.offPart pos + 4 * t.partRows + 4 * i))
    else none

/-- STATS_COMBINE (R201): once every window has reported, the final sums go to every active stack. -/
def execStatsCombine (tensor : BitVec 24) (s : State) : R :=
  let c := s.cx
  match c.tensor? tensor.toNat, c.img.cfg with
  | some t, some g =>
    match c.reported t with
    | some n =>
      let d := c.owner t.start
      if !t.factored || !c.coreUp d then s.go c
      else
        let rows := (List.range t.rows).map fun r => tree64of32 (c.rowParts t r)
        let cols := (List.range t.columns).map fun j => tree64of32 (c.colParts t j)
        let c := c.orFlags (hubFlagsReg d) ((rows ++ cols).foldl (fun f x => f ||| x.2.1) 0#8)
        let nans := ((List.range t.rows).filter fun r => (rows.getD r (0#32, 0#8, false)).2.2).map (· * t.columns)
          ++ (List.range t.columns).filter fun j => (cols.getD j (0#32, 0#8, false)).2.2
        let c := nans.foldl (fun c e => c.nan
          { step := some n, unitClass := 2, index := d.num, tensorValid := true, tensor := t.handle, element := e,
            die := d }) c
        let c := g.geo.active.foldl (fun c k =>
          let b := c.section_ t k
          (c.basePut k (b + t.offRowSq) (f32Bytes (rows.map (·.1)))).basePut k (b + t.offColSq)
            (f32Bytes (cols.map (·.1)))) c
        s.go { c with finals := kput c.finals t.handle n }
    | none => s.go c
  | _, _ => s.go c

end Sys2Proof.Machine
end

