-- ==== Sys2Proof/Machine/Norm.lean ====
section
/-!
DEFINITION. NORM and the exchange of shard sums (R203 to R208, R357).
-/
namespace Sys2Proof.Machine

/-! ### Lists in memory -/

/-- n 4-byte entries of an operand list. -/
def entries4 (l : List Byte) (n : Nat) : List Nat := (List.range n).map fun i => leNat ((l.drop (4 * i)).take 4)

/-- A list operand of n bytes: its bytes, or how the command ends (R64). -/
def Cx.listOperand (c : Cx) (st : StreamId) (f : Flight) (pos a n : Nat) : (Cx × Res) ⊕ List Byte :=
  match c.badOperand? st f .read pos a n with
  | some r => .inl r
  | none => match c.hubPoison a n with
    | some off => .inl (c, .done stPoison off)
    | none => .inr (c.hubRead a n).2

/-- A list address carries tag 0x0 or 0x3. -/
def listTagOk (a : Nat) : Bool := bits a 63 60 = 0 || bits a 63 60 = 3

/-! ### The operands of NORM (Table 8.4) -/

def Flight.normCount (f : Flight) : Nat := f.arg 24 23 0
def Flight.normStep (f : Flight) : Step := BitVec.ofNat 48 (f.arg 40 47 0)
def Flight.shards (f : Flight) : Nat := f.arg 56 15 0
def Flight.shardRank (f : Flight) : Nat := f.arg 56 31 16

/-- Handles and nodes of a NORM that has read its lists. -/
def Flight.normTensors (f : Flight) : List Nat := (entries4 f.data f.normCount).map fun v => bits v 23 0
def Flight.normNodes (f : Flight) : List Nat :=
  (entries4 (f.data.drop (4 * f.normCount)) f.shards).map fun v => bits v 16 0

/-- A handle stands twice in a list. -/
def repeated : List Nat → Bool
  | [] => false
  | x :: r => r.contains x || repeated r

/-! ### The sums (R204) -/

/-- Tensor sum: tree64 over the window values of a step in ascending k; none while a window has not reported. -/
def Cx.tensorSum (c : Cx) (t : Tensor) (n : Step) : Option (W64 × Flags) :=
  let vs := (c.tensorWindows t).map fun w => (c.win? w).bind fun v => v.sumSq
  if vs.all fun v => (v.map (·.1)) = some n then
    let r := tree64 (vs.map fun v => f32To64 ((v.map (·.2)).getD 0#32))
    some (r.1, r.2 ||| flagIf (vs.any fun v => f32IsNan ((v.map (·.2)).getD 0#32)) Flag.nanSeen)
  else none

/-- Shard sum of a list of tensors. -/
def Cx.shardSum (c : Cx) (ts : List Nat) (n : Step) : Option (W64 × Flags) :=
  let sums := ts.map fun h => (c.tensor? h).bind fun t => c.tensorSum t n
  if sums.all Option.isSome then
    let r := tree64 (sums.map fun s => ((s.map (·.1)).getD 0#64))
    some (r.1, sums.foldl (fun f s => f ||| (s.map (·.2)).getD 0#8) r.2)
  else none

/-- The sum that arrived from a rank of the list for a step. -/
def Cx.rankSum (c : Cx) (n : Step) (rank node : Nat) : Option W64 :=
  (c.fab.sums.find? fun q => q.1 = n && q.2.1 = node && q.2.2.1 = rank).map fun q => q.2.2.2

/-- Arrived NaNs enter the collective engine (R55); the record's element has no meaning for a sum (log entry 15). -/
def Cx.sumNan (c : Cx) (st : StreamId) (f : Flight) (n : Step) : Cx :=
  let d := c.dieOf st
  let o := c.drawOpen 0x32
  o.2.nan { step := some n, unitClass := 2, index := d.num, stream := st.toNat, command := f.number.toNat
            element := o.1.toNat % 2 ^ 40, die := d }

/-- The verdict that a norm gives (R206, R207, R248). -/
def normVerdict (threshold norm : Nat) : Verdict :=
  if f64NonFinite norm then .abandon
  else
    let k := clipFactor threshold norm
    if k = f32One then .commit else .replay k

/-- `NUM_NORM_NONFINITE` (Table 8.7). -/
def Cx.normNonfinite (c : Cx) (d : Side) (f : Flight) (norm : Nat) (shardSums : List W64) : Cx :=
  let n := f.normStep
  let bad (h : Nat) : Bool := (((c.tensor? h).bind fun t => c.tensorSum t n).map fun s => f64NonFinite s.1.toNat).getD false
  let tensor := (f.normTensors.find? bad).getD 0xFFFFFF
  let rank := ((List.range shardSums.length).find? fun r => f64NonFinite (shardSums.getD r 0#64).toNat).getD 0xFFFF
  c.ev 0x1004 2 1 d d.num [n.toNat, norm, tensor, rank] (some n)

/-- Every sum is there: the norm, its verdict for each listed tensor, and the completion (R205 to R208). -/
def Cx.endNorm (c : Cx) (st : StreamId) (f : Flight) (sums : List W64) (fl : Flags) : Cx × Res :=
  let n := f.normStep
  let d := c.dieOf st
  let c := ((List.range sums.length).filter fun r => r != f.shardRank && (Fmt.f64.unpack (sums.getD r 0#64).toNat).isNan).foldl
    (fun c _ => c.sumNan st f n) c
  let r := tree64 sums
  let fl := fl ||| r.2 ||| flagIf (sums.any fun v => (Fmt.f64.unpack v.toNat).isNan) Flag.nanSeen
  let norm := if (Fmt.f64.unpack r.1.toNat).isNan then Fmt.f64.nan else r.1.toNat
  let fl := if f64NonFinite norm then fl else fl ||| (normClip (f.arg 32 63 0) norm).2
  let c := c.orFlags (hubFlagsReg d) fl
  let c := if f64NonFinite norm then c.normNonfinite d f norm sums else c
  let x := normVerdict (f.arg 32 63 0) norm
  let c := f.normTensors.foldl (fun c h => c.submit d (.verdict h n x st f.number) (some (st, f.number))) c
  let c := c.modFlight st f.number fun g => { g with owed := g.owed + f.normTensors.length, flags := g.flags ||| fl }
  ({ c with fab := { c.fab with sums := c.fab.sums.filter fun q => q.1 != n } }, .done stOk norm)

/-- Send this shard's sum to every other listed shard, once (R357). -/
def Cx.sendSums (c : Cx) (f : Flight) (sum : W64) : Cx :=
  let nodes := f.normNodes
  ((List.range nodes.length).filter (· != f.shardRank)).foldl (fun c r =>
    c.sendMsg 0 (c.mkMsg 0x12 2 (BitVec.ofNat 17 (nodes.getD r 0)) 0#16 0#64 0#64 1 []
      [f.normStep.toNat, f.shardRank, sum.toNat])) c

/-- NORM once its lists are read: wait, send, and end. -/
def Cx.normGo (c : Cx) (st : StreamId) (f : Flight) : Cx × Res :=
  let n := f.normStep
  match f.normNodes.find? fun x => c.fab.unreachable.contains x with
  | some x => refuseFenced c x
  | none =>
    match c.shardSum f.normTensors n with
    | none => (c, .wait .norm)
    | some own =>
      let c := if f.phase = 2 then c else (c.sendSums f own.1).modFlight st f.number fun g => { g with phase := 2 }
      let nodes := f.normNodes
      let sums := (List.range nodes.length).map fun r =>
        if r = f.shardRank then some own.1 else c.rankSum n r (nodes.getD r 0)
      if sums.all Option.isSome then c.endNorm st f (sums.map fun s => s.getD 0#64) own.2 else (c, .wait .norm)

/-- Some listed window's ledger, or the journal master, lies across a lost bridge (R17). -/
def Cx.noMasterFor (c : Cx) (st : StreamId) (hs : List Nat) : Bool :=
  c.r17 && c.cutOff st (hs.flatMap fun h => match c.tensor? h with | some t => c.tensorWindows t | none => [])

def bodyNorm : Body := fun st f c =>
  let tl := f.arg 16 63 0
  let sl := f.arg 48 63 0
  let threshold := Fmt.f64.unpack (f.arg 32 63 0)
  let zero : Num := .fin false 0 0
  if f.phase != 0 then c.normGo st f
  else if f.normCount = 0 || threshold.isNan || threshold.lt zero || f.shards = 0 || f.shards > 4096
      || f.shardRank ≥ f.shards || !listTagOk tl || !listTagOk sl then (c, .halt haltDecode)
  else match c.listOperand st f 1 tl (4 * f.normCount), c.listOperand st f 5 sl (4 * f.shards) with
    | .inl r, _ => r
    | _, .inl r => r
    | .inr a, .inr b =>
      let g := { f with data := a ++ b, phase := 1 }
      if g.normTensors.any (fun h => (c.tensor? h).isNone) || repeated g.normTensors then (c, .halt haltDecode)
      else if g.normTensors.any (fun h => c.boundAway st h) then
        refuseFenced c ((g.normTensors.find? fun h => c.boundAway st h).getD 0)
      else if c.noMasterFor st g.normTensors then retryLater c
      else ((c.arm f.normStep).modFlight st f.number fun x => { x with data := g.data, phase := 1 }).normGo st g

/-- NORM (R205). -/
def execNorm (st : StreamId) (s : State) : R := s.go (s.cx.runStream 0x32 bodyNorm st)

/-! ### NORM_SUM (R357) -/

/-- The NORM that waits for sums of a step. -/
def Cx.waitingNorm (c : Cx) (n : Step) : Option (StreamId × Flight) :=
  c.streams.findSome? fun p => (p.2.flights.find? fun f => f.op = 0x32 && f.status.isNone && f.phase != 0
    && f.normStep = n).map fun f => (BitVec.ofNat 12 p.1, f)

/-- Keep a sum for a later NORM: at most two steps and 4,096 sums of each; the oldest step gives way. -/
def keepSum (l : List (Step × Nat × Nat × W64)) (q : Step × Nat × Nat × W64) : List (Step × Nat × Nat × W64) :=
  let steps := l.foldl (fun a x => if a.contains x.1 then a else a ++ [x.1]) ([] : List Step)
  let l := if steps.contains q.1 || steps.length < 2 then l else l.filter fun x => some x.1 != steps.head?
  if (l.filter fun x => x.1 = q.1).length < 4096 then l ++ [q] else l

/-- NORM_SUM (R357): fields step, rank, sum. -/
def execNormSum (p : Fin 13) (m : Msg) (s : State) : R :=
  s.go (s.cx.onMsg p m 0x12 fun c =>
    let n : Step := BitVec.ofNat 48 (m.fields.getD 0 0)
    let rank := m.fields.getD 1 0
    let sum : W64 := BitVec.ofNat 64 (m.fields.getD 2 0)
    let src := m.src.toNat
    let q := (n, src, rank, sum)
    match c.waitingNorm n with
    | some (st, f) =>
      if rank < f.shards && f.normNodes.getD rank 0 = src then
        ({ c with fab := { c.fab with sums := c.fab.sums ++ [q] } }).runFlight bodyNorm st f.number
      else c.unreachable (p.val % 12)
    | none => { c with fab := { c.fab with sums := keepSum c.fab.sums q } })

end Sys2Proof.Machine
end

