-- ==== Sys2Proof/Machine/Collective.lean ====
section
/-!
DEFINITION. REDUCE_SCATTER and ALL_GATHER with their messages (R209, R210, R356, R358).
-/
namespace Sys2Proof.Machine

/-! ### REDUCE_SCATTER (R209, R356) -/

def Flight.ranks (f : Flight) : Nat := f.arg 48 15 0
def Flight.ownRank (f : Flight) : Nat := f.arg 48 31 16
def Flight.rsStep (f : Flight) : Nat := f.arg 56 47 0
def Flight.rsOrdered (f : Flight) : Bool := f.bit 32 33
/-- Nodes of the replica list that a REDUCE_SCATTER has read. -/
def Flight.rsNodes (f : Flight) : List Nat := (entries4 f.data f.ranks).map fun v => bits v 16 0
/-- This complex owns the window (R209). -/
def Flight.owns (f : Flight) (w : Nat) : Bool := decide (w % f.ranks = f.ownRank)

def Cx.rsApplied (c : Cx) (w step rank : Nat) : Bool := c.fab.applied.contains (w, step, rank)

def Cx.rsApply (c : Cx) (w step rank : Nat) : Cx :=
  if c.rsApplied w step rank then c else { c with fab := { c.fab with applied := c.fab.applied ++ [(w, step, rank)] } }

/-- Blocks of a window whose G is current, with their 64 elements (R192). -/
def Cx.currentBlocks (c : Cx) (w : Nat) (v : Win) : List (Nat × List W16) :=
  let s := winStack w
  ((List.range 16384).filter fun b => c.accEpochOf s v.stateSlot b = v.eD.toNat).map fun b =>
    (b, (List.range 64).map fun j => c.gAt s v.gSlot (64 * b + j))

/-- Add blocks to the open epoch as GRAD_ADD values, lanes past the window's parameters left out; none when the
accumulation buffer has no room (R187 to R195). Their NaNs carry the command's step. -/
def Cx.addBlocks (c : Cx) (w : Nat) (t : Tensor) (v : Win) (slot step : Nat) (bs : List (Nat × List W16)) : Option Cx :=
  bs.foldl (fun (a : Option Cx) b => a.bind fun c =>
    let n := min 64 (v.valid - 64 * b.1)
    if n = 0 then some c
    else
      let c := Cx.makeRoom (c.accWindows (winStack w)).length w v.openEpoch slot (64 * b.1) n c
      if c.accRoom w v.openEpoch slot (64 * b.1) n then
        some (c.addRun w t v.k v.openEpoch slot (64 * b.1) (b.2.take n) (some (BitVec.ofNat 48 step)))
      else none) (some c)

/-- The messages that carry a window's blocks: groups of 32 blocks that hold one, first block, mask and bytes. -/
def blockGroups (bs : List (Nat × List W16)) : List (Nat × Nat × List Byte) :=
  let gs := (bs.foldl (fun l b => nput l (b.1 / 32)) ([] : List Nat)).map fun g =>
    let own := bs.filter fun b => b.1 / 32 = g
    (32 * g, (own.map fun b => 2 ^ (b.1 % 32)).sum, own.flatMap fun b => b.2.flatMap fun x => leBytes 2 x.toNat)
  if gs.isEmpty then [(0, 0, [])] else gs

/-- Send a window's current blocks to a node in RS_BLOCKS or RS_RECEIPT messages; the last marks the end. -/
def Cx.sendBlocks (c : Cx) (op w step rank node : Nat) (bs : List (Nat × List W16)) : Cx :=
  let gs := blockGroups bs
  (List.range gs.length).foldl (fun c i =>
    let g := gs.getD i (0, 0, [])
    c.sendMsg 0 (c.mkMsg op 2 (BitVec.ofNat 17 node) 0#16 0#64 0#64 g.2.2.length g.2.2
      [w, step, rank, g.1, b2n (i + 1 = gs.length), g.2.1])) c

/-- Blocks that a message of this kind carries: block number and elements. -/
def blocksIn (first mask : Nat) (data : List Byte) : List (Nat × List W16) :=
  let on := (List.range 32).filter (bit mask)
  (List.range on.length).map fun i =>
    (first + on.getD i 0, (List.range 64).map fun j => BitVec.ofNat 16 (leNat ((data.drop (128 * i + 2 * j)).take 2)))

def setOut (l : List (Nat × WinOut)) (w : Nat) (o : WinOut) : List (Nat × WinOut) :=
  l.map fun x => if x.1 = w then (w, o) else x

/-- Move a window of a REDUCE_SCATTER to another stage: todo (local drain), committed (that drain ended), replayed
(contributions or a receipt awaited), untouched (done). -/
def Cx.rsMove (c : Cx) (st : StreamId) (num : W32) (w : Nat) (o : WinOut) : Cx :=
  (c.modFlight st num fun f => { f with wins := setOut f.wins w o }).modWin w fun v => { v with lastCut := none }

/-- A window of this step had its final drain. -/
def Cx.rsDrained (c : Cx) (w step : Nat) : Bool := c.fab.drained.contains (w, step)

/-- The owner's final drain has ended: receipts go to every other rank (R209). -/
def Cx.sendReceipts (c : Cx) (st : StreamId) (f : Flight) (w : Nat) : Cx :=
  match c.win? w with
  | none => c
  | some v =>
    let bs := c.currentBlocks w v
    let nodes := f.rsNodes
    ((List.range nodes.length).filter (· != f.ownRank)).foldl
      (fun c r => (c.noteNode st (nodes.getD r 0) 2).sendBlocks 0x11 w f.rsStep f.ownRank (nodes.getD r 0) bs) c

/-- A contribution in the other mode than the open epoch's is rejected as R190 says: `GRAD_REJECTED`, reason 5. -/
def Cx.rsRejected (c : Cx) (v : Win) (first : Nat) (d : Side) (p blocks : Nat) : Cx :=
  c.ev 0x4101 3 2 d p [5, p, 0, v.tensor, v.k * 1048576 + 64 * first, 64 * blocks]

/-- A contribution waits for an entry: counted once in UPD_ACC_WAITS (R195, Table 8.6). -/
def Cx.rsWait (c : Cx) (w step rank first : Nat) : Cx :=
  if c.fab.rsWaits.contains (w, step, rank, first) then c
  else ({ c with fab := { c.fab with rsWaits := c.fab.rsWaits ++ [(w, step, rank, first)] } }).bump
    (updBase (winStack w) + 0x808) 31 (homeDie (winStack w))

/-- One window of a REDUCE_SCATTER goes one stage on when it can. -/
def Cx.rsWindow (st : StreamId) (num : W32) (c : Cx) (w : Nat) : Cx :=
  match c.flight? st num, c.win? w, c.tensor? (((c.win? w).map fun v => v.tensor).getD 0) with
  | some f, some v, some t =>
    let step := f.rsStep
    let stage : Option WinOut := (f.wins.find? fun x => x.1 = w).map (·.2)
    match stage with
    | some .todo =>
      if f.owns w then
        if c.rsDrained w step then (c.sendReceipts st f w).rsMove st num w .untouched
        else if f.rsOrdered && !c.rsApplied w step f.ownRank then c.takeCut st f none w
        else c.rsMove st num w .replayed
      else c.takeCut st f none w
    | some .committed =>
      if !f.owns w then
        let node := f.rsNodes.getD (w % f.ranks) 0
        ((c.noteNode st node 2).sendBlocks 0x10 w step f.ownRank node (c.currentBlocks w v)).rsMove st num w .replayed
      else if f.awaits.contains w then
        (({ c with fab := { c.fab with drained := c.fab.drained ++ [(w, step)] } }).sendReceipts st f w).rsMove st num w
          .untouched
      else
        if v.mode = some false then
          (c.rsRejected v 0 (c.owner (winStack w)) (c.owner (winStack w)).num 16384).rsMove st num w .replayed
        else match c.addBlocks w t v f.ownRank step (c.currentBlocks w v) with
          | some c => (((c.modWin w fun v => { v with mode := some true }).rsApply w step f.ownRank).rsMove st num w
              .replayed)
          | none => c.rsWait w step f.ownRank 0
    | some .replayed =>
      if f.owns w && (List.range f.ranks).all fun r => c.rsApplied w step r || (r = f.ownRank && !f.rsOrdered) then
        (c.modFlight st num fun g => { g with awaits := nput g.awaits w }).takeCut st f f.fused w
      else c
    | _ => c
  | _, _, _ => c

/-- Windows whose stage moved go on until none moves: four stages at most. -/
def Cx.rsWindows (c : Cx) (st : StreamId) (num : W32) (ws : List Nat) : Cx :=
  (List.range 4).foldl (fun c _ => ws.foldl (Cx.rsWindow st num) c) c

/-- A receipt may be written: the conditions of R198. -/
def Cx.receiptOk (c : Cx) (w : Nat) : Bool :=
  match c.win? w with
  | some v => !v.hold && !v.specValid && v.st == .quiet && v.resident && !v.fenced && v.cut.isNone
      && !c.stackBusy (winStack w)
  | none => false

/-- Write a whole receipt (R210). -/
def Cx.writeReceipt (c : Cx) (r : Receipt) : Cx :=
  match c.win? r.w with
  | none => c
  | some v =>
    let s := winStack r.w
    let c := (List.range 16384).foldl (fun c b =>
      let vals := ((r.blocks.find? fun x => x.1 = b).map (·.2)).getD (List.replicate 64 0#16)
      (c.basePut s (c.gOff v.gSlot + 128 * b) (vals.flatMap fun x => leBytes 2 x.toNat)).setAccEpoch s v.stateSlot b
        v.eD.toNat) c
    { c with streams := c.streams.map fun p => (p.1, { p.2 with flights := p.2.flights.map fun f =>
      if f.op = 0x30 && f.status.isNone && f.rsStep = r.step && !f.owns r.w && f.wins.contains (r.w, .replayed) then
        { f with wins := setOut f.wins r.w .untouched } else f }) }

/-- Whole receipts whose windows let them are written. -/
def Cx.tryReceipts (c : Cx) : Cx :=
  c.fab.receipts.foldl (fun c r =>
    if r.ended && c.receiptOk r.w then
      (c.writeReceipt r) |> fun c => { c with fab := { c.fab with receipts := c.fab.receipts.erase r } }
    else c) c

/-- REDUCE_SCATTER once it has passed its checks. -/
def rsGo : Body := fun st f c =>
  match c.runOf f, f.rsNodes.find? fun x => c.fab.unreachable.contains x with
  | none, _ => (c, .halt haltDecode)
  | _, some x => refuseFenced c x
  | some (_, ws), none =>
    match windowsRefused st c ws with
    | some r => r
    | none =>
      let d := c.demandAll ws
      let c := if d.2 then d.1 else d.1.modFlight st f.number fun g => { g with slow := true }
      let c := (c.tryReceipts).rsWindows st f.number ws
      match c.flight? st f.number with
      | some g =>
        if g.wins.all fun x => x.2 == .untouched then (c, .done stOk (ws.filter f.owns).length)
        else (c, .wait .gradients)
      | none => (c, .wait .gradients)

def bodyReduceScatter : Body := fun st f c =>
  let list := f.arg 40 63 0
  match c.runOf f with
  | none => (c, .halt haltDecode)
  | some (_, ws) =>
    if f.phase = 1 then rsGo st f c
    else if f.ranks = 0 || f.ranks > 4096 || f.ownRank ≥ f.ranks || (f.rsOrdered && f.ranks > 16)
        || (f.fused.map finitePositive).getD true = false || !listTagOk list then (c, .halt haltDecode)
    else
      let c := c.arm (BitVec.ofNat 48 f.rsStep)
      match c.listOperand st f 4 list (4 * f.ranks) with
      | .inl r => r
      | .inr l =>
        let g := { f with data := l, phase := 1, wins := ws.map fun w => (w, WinOut.todo) }
        if g.rsNodes.getD f.ownRank 0 != c.node.toNat then (c, .halt haltDecode)
        else if c.boundAway st f.tensor then refuseFenced c f.tensor
        else rsGo st g (c.modFlight st f.number fun _ => g)

/-- REDUCE_SCATTER (R356). -/
def execReduceScatter (st : StreamId) (s : State) : R := s.go (s.cx.runStream 0x30 bodyReduceScatter st)

/-- The REDUCE_SCATTER of this owner that takes contributions for a window and step. -/
def Cx.rsTaker (c : Cx) (w step : Nat) : Option (StreamId × Flight) :=
  c.streams.findSome? fun p => (p.2.flights.find? fun f => f.op = 0x30 && f.status.isNone && f.phase = 1
    && f.rsStep = step && f.owns w && f.wins.contains (w, .replayed) && !f.awaits.contains w).map fun f =>
      (BitVec.ofNat 12 p.1, f)

/-- RS_BLOCKS (R356): fields window, step, rank, first block, end, mask. A contribution waits until a command of the
owner takes it and the accumulation buffer has room; one in the other mode is rejected as R190 says. -/
def execRsBlocks (p : Fin 13) (m : Msg) (s : State) : R :=
  let c := s.cx
  let w := m.fields.getD 0 0
  let step := m.fields.getD 1 0
  let rank := m.fields.getD 2 0
  let first := m.fields.getD 3 0
  let bs := (blocksIn first (m.fields.getD 5 0) m.data).filter fun b => b.1 < 16384
  if m.op.toNat != 0x10 || !c.arrived p m then s.go c
  else if c.rsApplied w step rank then s.go (c.consume p m)
  else match c.rsTaker w step, c.win? w, c.tensor? (((c.win? w).map fun v => v.tensor).getD 0) with
    | some (st, f), some v, some t =>
      let slot := if f.rsOrdered then rank else 0
      if v.mode.isSome && v.mode != some f.rsOrdered then
        s.go ((c.consume p m).rsRejected v first (portDie p) p bs.length)
      else match c.addBlocks w t v slot step bs with
        | none => s.go (c.rsWait w step rank first)
        | some c =>
          let c := if bs.isEmpty then c else c.modWin w fun v => { v with mode := some f.rsOrdered }
          let c := c.consume p m
          s.go (if m.fields.getD 4 0 = 1 then (c.rsApply w step rank).runFlight bodyReduceScatter st f.number else c)
    | _, _, _ => s.go c

/-- RS_RECEIPT (R210): reduced blocks join the window's receipt, which is written whole once it may be. -/
def execRsReceipt (p : Fin 13) (m : Msg) (s : State) : R :=
  s.go (s.cx.onMsg p m 0x11 fun c =>
    let w := m.fields.getD 0 0
    let step := m.fields.getD 1 0
    let bs := blocksIn (m.fields.getD 3 0) (m.fields.getD 5 0) m.data
    let old := (c.fab.receipts.find? fun r => r.w = w && r.step = step).getD { w := w, step := step }
    let new := { old with blocks := old.blocks ++ bs, ended := m.fields.getD 4 0 = 1 }
    let c := { c with fab := { c.fab with receipts := c.fab.receipts.filter (fun r : Receipt => !(r.w = w && r.step = step)) ++ [new] } }
    (c.tryReceipts).streams.foldl (fun c q => q.2.flights.foldl (fun c f =>
      if f.op = 0x30 && f.status.isNone && f.phase = 1 && f.rsStep = step then
        c.runFlight bodyReduceScatter (BitVec.ofNat 12 q.1) f.number else c) c) c.tryReceipts)

/-! ### ALL_GATHER (R358) -/

/-- Two entries' ranges overlap. -/
def agOverlap : List AgEntry → Bool
  | [] => false
  | e :: r => r.any (fun x => decide (e.off < x.off + x.len ∧ x.off < e.off + e.len)) || agOverlap r

/-- Order of the statuses of R261, worst highest. -/
def agRank (k : Nat) : Nat :=
  if k = stFenced then 4 else if k = stRetired then 3 else if k = stRetry then 2 else if k = stPoison then 1 else 0

/-- Every node of the query is told to release what it holds. -/
def Cx.agReleaseAll (c : Cx) (f : Flight) (es : List AgEntry) : Cx :=
  (List.range es.length).foldl (fun c i => match es[i]? with
    | some e => c.sendMsg 0 (c.mkMsg 0x18 2 (BitVec.ofNat 17 e.node) 0#16 0#64 0#64 1 []
        [(f.wins.getD i (0, .todo)).1])
    | none => c) c

/-- The go-ahead of phase 2: every node is asked for its images. -/
def Cx.agGoAhead (c : Cx) (st : StreamId) (f : Flight) (es : List AgEntry) : Cx :=
  (List.range es.length).foldl (fun c i => match es[i]? with
    | some e => c.request st f.number 0x17 2 (BitVec.ofNat 17 e.node) 0#64 0#64 1 [] i 0
        [0, (f.wins.getD i (0, .todo)).1]
    | none => c) c

def bodyAllGather : Body := fun st f c =>
  let list := f.arg 16 63 0
  let n := f.arg 24 12 0
  let dest := f.arg 32 63 0
  let es := agEntries f.data n
  match f.phase with
  | 0 =>
    if n = 0 || n > 4096 || !([0, 2, 3, 4].contains (bits dest 63 60)) then (c, .halt haltDecode)
    else match c.listOperand st f 1 list (32 * n) with
      | .inl r => r
      | .inr l =>
        let es := agEntries l n
        if es.any (fun e => e.reserved || e.off % 64 != 0) || agOverlap es then (c, .halt haltDecode)
        else match c.badOperand? st f .write 3 dest ((es.map fun e => e.off + e.len).foldl max 0) with
          | some r => r
          | none =>
            match es.find? fun e => c.fab.unreachable.contains e.node with
            | some e => refuseFenced c e.node
            | none =>
              let tag0 := c.fab.nextTag
              let wins := (List.range n).map fun i => ((tag0 + BitVec.ofNat 16 i).toNat, WinOut.todo)
              let c := c.modFlight st f.number fun g => { g with phase := 1, data := l, wins := wins }
              let c := (List.range n).foldl (fun c i => match es[i]? with
                | some e => c.request st f.number 0x15 2 (BitVec.ofNat 17 e.node) 0#64 0#64 1 [] i 0
                    [e.tensor, e.k, e.count, e.version, b2n e.latest]
                | none => c) c
              (c, .wait .fabricCredit)
  | 1 =>
    if !f.awaits.isEmpty then (c, .wait .fabricCredit)
    else if f.worst = 0 then
      ((c.agGoAhead st f es).modFlight st f.number fun g => { g with phase := 2 }, .wait .fabricCredit)
    else
      let c := c.agReleaseAll f es
      if f.worst = stRetry then retryLater c else (c, .done f.worst f.result.toNat)
  | _ =>
    if !f.awaits.isEmpty then (c, .wait .fabricCredit)
    else if f.worst != 0 then (c, .done f.worst f.result.toNat) else okOpen c 0x31

/-- ALL_GATHER (R358). -/
def execAllGather (st : StreamId) (s : State) : R := s.go (s.cx.runStream 0x31 bodyAllGather st)

/-- Key under which the slots of a query are held (R78): no stream of the part has this number. -/
def agHolder (src : Nat) : Nat := 4096 + src

/-- Drop what a query of a node holds. -/
def Cx.agDrop (c : Cx) (sel : AgHold → Bool) : Cx :=
  let gone := c.fab.agHolds.filter sel
  { c with fab := { c.fab with agHolds := c.fab.agHolds.filter fun h => !sel h }
           holds := c.holds.filter fun h => !(gone.any fun g => h.2.2.1 = agHolder g.src && h.2.2.2 = g.tag) }

/-- Versions that a query selects at this node (R260, speculative clear): a status with its result, or the windows. -/
def Cx.agSelect (c : Cx) (t : Tensor) (k n : Nat) (latest : Bool) (ver : Version) : (Nat × Nat) ⊕ List AgWin :=
  let ws := c.windowIds t k n
  match worstRead (ws.map fun w => (w, c.readStatus w latest ver false 0)) with
  | some (w, x) => .inl (x, c.committedOf w)
  | none =>
    let bad := (List.range n).findSome? fun i =>
      (c.hubPoisonIn (c.versionKey (ws.getD i 0) latest ver false 0 0) (2 * t.valid (k + i))).map fun o =>
        i * agStride + 64 + o
    match bad with
    | some off => .inl (stPoison, off)
    | none => .inr (ws.filterMap fun w => (c.win? w).bind fun v =>
        let u := v.served latest ver
        match c.selectIn w v latest ver false with
        | .slot x => some ⟨w, false, x, u, v.stepOf u⟩
        | .stash x => some ⟨w, true, x, u, v.stepOf u⟩
        | .status _ => none)

/-- AG_QUERY (R358): fields tensor, first window, count, version, latest. It waits while a window is promoted. -/
def execAgQuery (p : Fin 13) (m : Msg) (s : State) : R :=
  let c := s.cx
  let k := m.fields.getD 1 0
  let n := m.fields.getD 2 0
  let ver : Version := BitVec.ofNat 32 (m.fields.getD 3 0)
  let latest : Bool := m.fields.getD 4 0 = 1
  if m.op.toNat != 0x15 || !c.arrived p m then s.go c
  else
    let answer (c : Cx) (k r : Nat) : R :=
      s.go (c.sendMsg 0 (c.mkMsg 0x16 2 m.src m.tag 0#64 0#64 1 [] [k, r]))
    match c.tensor? (m.fields.getD 0 0) with
    | none => answer (c.consume p m) stPoison 0
    | some t =>
      if n = 0 || k + n > t.windows then answer (c.consume p m) stPoison 0
      else
        let d := c.demandAll (c.windowIds t k n)
        if !d.2 then s.go d.1
        else
          let c := d.1.consume p m
          match c.agSelect t k n latest ver with
          | .inl x =>
            let sts := (c.windowIds t k n).map fun w => (w, c.readStatus w latest ver false 0)
            answer (c.sayRetired sts x.1 t.handle ver m.src.toNat) x.1 x.2
          | .inr l =>
            let h : AgHold := { tag := m.tag.toNat, src := m.src.toNat, wins := l }
            let c := { c with fab := { c.fab with agHolds := c.fab.agHolds ++ [h] }
                              holds := c.holds ++ (l.filter fun x => !x.stash).map fun x =>
                                (winStack x.w, x.slot, agHolder m.src.toNat, m.tag.toNat) }
            answer c stOk 0

/-- AG_REPLY (R358): the worst status by R261 is kept; then the command goes on. -/
def execAgReply (p : Fin 13) (m : Msg) (s : State) : R :=
  s.go (s.cx.onMsg p m 0x16 fun c =>
    match c.req? m.tag with
    | none => c
    | some r =>
      if r.op != 0x15 then c
      else
        let k := m.fields.getD 0 0
        let c := (c.dropReq r.tag).modFlight r.stream r.command fun f =>
          let off := if k = stPoison then ((agEntries f.data (r.off + 1)).map (·.off)).getD r.off 0 else 0
          { f with awaits := f.awaits.filter (· != r.tag.toNat)
                   result := if agRank k > agRank f.worst then BitVec.ofNat 64 (off + m.fields.getD 1 0) else f.result
                   worst := if agRank k > agRank f.worst then k else f.worst }
        c.runFlight bodyAllGather r.stream r.command)

/-- The export image of a held window (R263), unencrypted. -/
def Cx.agImage (c : Cx) (x : AgWin) : List Byte :=
  match c.win? x.w with
  | none => []
  | some v =>
    let off := if x.stash then c.stashOff v.region x.slot else c.slotOff x.slot + offW
    exportImage v x.version x.step (c.hubBytes (stackKey (winStack x.w) off) (2 * v.valid))

/-- The node sends the images of a held query, then releases its slots. -/
def Cx.agSend (c : Cx) (m : Msg) (h : AgHold) : Cx :=
  let parts := (List.range h.wins.length).flatMap fun j =>
    let img := ((h.wins[j]?).map c.agImage).getD []
    (chunksOf img.length).map fun q => (j * agStride + q.1, (img.drop q.1).take q.2)
  let c := (List.range parts.length).foldl (fun c i =>
    let q := parts.getD i (0, [])
    c.sendMsg 0 (c.mkMsg 0x17 2 m.src m.tag (BitVec.ofNat 64 q.1) 0#64 q.2.length q.2
      [1, b2n (i + 1 = parts.length)])) c
  c.agDrop fun x => x.tag = h.tag && x.src = h.src

/-- AG_DATA (R358): the go-ahead for a held query, or image data for the destination. Fields: 0 and the query's tag; or
1 and the end mark. -/
def execAgData (p : Fin 13) (m : Msg) (s : State) : R :=
  s.go (s.cx.onMsg p m 0x17 fun c =>
    if m.fields.getD 0 0 = 0 then
      match c.fab.agHolds.find? fun h => h.src = m.src.toNat && h.tag = m.fields.getD 1 0 with
      | some h => c.agSend m h
      | none => c
    else match c.req? m.tag with
      | none => c
      | some r =>
        match c.flight? r.stream r.command with
        | none => c.dropReq r.tag
        | some f =>
          if r.op != 0x17 || f.status.isSome then c
          else
            let dest := f.arg 32 63 0
            let off := ((agEntries f.data (r.off + 1)).map (·.off)).getD r.off 0
            let c := (c.hubWrite (dest + off + m.addr.toNat) m.data).noteWrite r.stream dest
            if m.fields.getD 1 0 = 1 then (c.answered r 0 0).runFlight bodyAllGather r.stream r.command else c)

/-- AG_RELEASE (R358). -/
def execAgRelease (p : Fin 13) (m : Msg) (s : State) : R :=
  s.go (s.cx.onMsg p m 0x18 fun c => c.agDrop fun h => h.src = m.src.toNat && h.tag = m.fields.getD 0 0)

/-- AG_QUERY_TIMEOUT (R358): 20 ms without phase 2. -/
def execAgQueryTimeout (tag : W16) (s : State) : R := s.go (s.cx.agDrop fun h => h.tag = tag.toNat)

end Sys2Proof.Machine
end

