-- ==== Sys2Proof/Machine/Audit.lean ====
section
/-!
DEFINITION. The replica audit: DIGEST_EXCHANGE, its messages and its repairs (R267 to R272, R357).
-/
namespace Sys2Proof.Machine

def Flight.dgCount (f : Flight) : Nat := f.arg 24 23 0
def Flight.dgMode (f : Flight) : Nat := f.arg 32 49 48
def Flight.dgStep (f : Flight) : Nat := f.arg 32 47 0
def Flight.dgWindow (f : Flight) : Nat := f.arg 56 18 0
def Flight.dgSource (f : Flight) : Nat := f.arg 56 48 32
/-- Handles and nodes of an audit that has read its lists. -/
def Flight.dgTensors (f : Flight) : List Nat := (entries4 f.data f.dgCount).map fun v => bits v 23 0
def Flight.dgNodes (f : Flight) : List Nat :=
  (entries4 (f.data.drop (4 * f.dgCount)) f.ranks).map fun v => bits v 16 0

/-- Source under which this complex keeps its own digests and leaves: no node has this id. -/
def dgOwn : Nat := 2 ^ 17
def Flight.dgSrc (f : Flight) (r : Nat) : Nat := if r = f.ownRank then dgOwn else f.dgNodes.getD r 0
/-- Ranks other than the own one. -/
def Flight.dgOthers (f : Flight) : List Nat := (List.range f.ranks).filter (· != f.ownRank)

/-- Windows of the listed tensors. -/
def Cx.dgWindows (c : Cx) (f : Flight) : List Nat :=
  f.dgTensors.flatMap fun h => match c.tensor? h with | some t => c.tensorWindows t | none => []

/-- Event of the audit: the ledger of the window's home die. -/
def Cx.auditEv (c : Cx) (code sev w : Nat) (fields : List Nat) (step : Option Step) : Cx :=
  c.ev code 12 sev (homeDie (winStack w)) (homeDie (winStack w)).num fields step

def Win.stepNat (v : Win) : Nat := (v.step.map BitVec.toNat).getD 0

/-! ### Exchange of digests (R270 steps 1 and 2) -/

/-- The own digests that an audit sends: entries that hold the step. -/
def Cx.ownDigests (c : Cx) (f : Flight) : List DigestRec :=
  (c.dgWindows f).filterMap fun w => (c.win? w).bind fun v =>
    if v.step = some (BitVec.ofNat 48 f.dgStep) then some ⟨dgOwn, f.dgStep, v.tensor, v.k, v.digest⟩ else none

/-- Windows whose entry holds a newer step. -/
def Cx.staleWindows (c : Cx) (f : Flight) : Nat :=
  ((c.dgWindows f).filter fun w => (c.win? w).any fun v => v.step.any fun m => newer m (BitVec.ofNat 48 f.dgStep)).length

/-- The 32 bytes of a digest entry (R357). -/
def DigestRec.bytes (r : DigestRec) : List Byte :=
  r.digest.take 16 ++ List.replicate (16 - r.digest.length) 0#8 ++ leBytes 4 r.tensor ++ leBytes 4 r.k ++ leBytes 8 r.step

def readDigest (src : Nat) (l : List Byte) : DigestRec :=
  ⟨src, leNat ((l.drop 24).take 8), leNat ((l.drop 16).take 4), leNat ((l.drop 20).take 4), l.take 16⟩

/-- Send the own digests to every other replica, 128 entries a message; the last marks the end. -/
def Cx.sendDigests (c : Cx) (f : Flight) (ds : List DigestRec) : Cx :=
  let n := max 1 ((ds.length + 127) / 128)
  f.dgOthers.foldl (fun c r => (List.range n).foldl (fun c i =>
    let part := (ds.drop (128 * i)).take 128
    c.sendMsg 0 (c.mkMsg 0x13 2 (BitVec.ofNat 17 (f.dgNodes.getD r 0)) 0#16 0#64 0#64 (32 * part.length)
      (part.flatMap DigestRec.bytes) [f.dgStep, b2n (i + 1 = n)])) c) c

/-- Every other replica's last DIGEST message of the step has come. -/
def Cx.digestsHere (c : Cx) (f : Flight) : Bool :=
  f.dgOthers.all fun r => c.fab.digests.any fun d => d.src = f.dgSrc r && d.step = f.dgStep && d.tensor = 2 ^ 24

/-- Digest of a window at a rank, when that rank sent one. -/
def Cx.digestAt (c : Cx) (f : Flight) (r : Nat) (v : Win) : Option (List Byte) :=
  (c.fab.digests.find? fun d => d.src = f.dgSrc r && d.step = f.dgStep && d.tensor = v.tensor && d.k = v.k).map (·.digest)

/-- Digests of a window by rank; none when a rank sent none. -/
def Cx.digestRow (c : Cx) (f : Flight) (w : Nat) : Option (List (List Byte)) :=
  (c.win? w).bind fun v =>
    let l := (List.range f.ranks).map fun r => c.digestAt f r v
    if l.all Option.isSome then some (l.map fun d => d.getD []) else none

def allSame (l : List (List Byte)) : Bool := l.all fun d => d == l.headD []

/-! ### Leaf lists (R270 steps 3 and 4) -/

/-- Re-read a mismatching window: a recomputed digest that differs from the stored one sets ecc_seen; the leaves go to
every other replica and are kept. -/
def Cx.sendLeaves (c : Cx) (f : Flight) (w : Nat) : Cx :=
  match c.win? w with
  | none => c
  | some v =>
    let ls := c.leaves Cx.bytes (winStack w) v.stateSlot v.tails
    let ecc := v.eccSeen || digestOf ls v.tensor v.k v.step != v.digest
    let c := (c.modWin w fun v => { v with eccSeen := ecc }).bumpLedger w 0x614
    let own := (List.range 16).map fun i => (⟨dgOwn, w, i, (ls.drop (4096 * i)).take 4096⟩ : LeafRec)
    let c := { c with fab := { c.fab with leafLists := c.fab.leafLists ++ own ++ [⟨dgOwn, w, 16, [BitVec.ofNat 8 (b2n ecc)]⟩] } }
    f.dgOthers.foldl (fun c r => own.foldl (fun c l =>
      c.sendMsg 0 (c.mkMsg 0x14 2 (BitVec.ofNat 17 (f.dgNodes.getD r 0)) 0#16 0#64 0#64 4096 l.bytes
        [w, l.part, b2n ecc])) c) c

def Cx.leafPart (c : Cx) (src w part : Nat) : Option (List Byte) :=
  (c.fab.leafLists.find? fun l => l.src = src && l.w = w && l.part = part).map (·.bytes)

/-- Every other replica's leaves of the mismatching windows have come. -/
def Cx.leavesHere (c : Cx) (f : Flight) : Bool :=
  f.wins.all fun x => f.dgOthers.all fun r => (List.range 16).all fun i => (c.leafPart (f.dgSrc r) x.1 i).isSome

/-- Leaf b of a window as a replica sent it. -/
def Cx.leafOf (c : Cx) (src w b : Nat) : List Byte := (((c.leafPart src w (b / 1024)).getD []).drop (4 * (b % 1024))).take 4

/-- ecc_seen of a side. -/
def Cx.eccOf (c : Cx) (src w : Nat) : Bool := (c.leafPart src w 16) == some [1#8]

/-- `DIGEST_MISMATCH`: the blocks at which some replica's leaf differs from the local one. -/
def Cx.sayMismatch (c : Cx) (f : Flight) (w : Nat) (row : List (List Byte)) : Cx :=
  let own := row.getD f.ownRank []
  let agree := (((List.range (min 64 f.ranks)).filter fun r => row.getD r [] == own).map fun r => 2 ^ r).sum
  let diff := (List.range 16384).filter fun b => f.dgOthers.any fun r => c.leafOf (f.dgSrc r) w b != c.leafOf dgOwn w b
  c.auditEv 0x4005 2 w [w, f.dgStep, leNat own, agree, diff.headD 0, diff.length] (some (BitVec.ofNat 48 f.dgStep))

/-! ### Resolution (Table 10.10, R271, R272) -/

/-- What Table 10.10 asks of this replica. -/
inductive Resolve where
  | nothing
  | repair (rank : Nat)
  | fence
  deriving DecidableEq, Repr

def Cx.resolve (c : Cx) (f : Flight) (w : Nat) (row : List (List Byte)) : Resolve :=
  if f.ranks = 2 then
    let a := c.eccOf dgOwn w
    let o := 1 - f.ownRank
    let b := c.eccOf (f.dgSrc o) w
    if a && !b then .repair o else if b && !a then .nothing else .fence
  else
    match (List.range f.ranks).find? fun r => decide (2 * (row.filter (· == row.getD r [])).length > f.ranks) with
    | none => .fence
    | some r => if row.getD f.ownRank [] == row.getD r [] then .nothing else .repair r

/-- The window stays fenced (R272). -/
def Cx.unresolved (c : Cx) (w ranks : Nat) : Cx :=
  match c.win? w with
  | none => c
  | some v =>
    let c := if v.fenced then c else c.fenceWin w
    c.auditEv 0x4007 2 w [w, v.stepNat, ranks, b2n v.eccSeen] v.step

/-- Outcome of a window in its DIGEST_EXCHANGE: todo repair under way, committed repaired, untouched left fenced,
replayed nothing to do. -/
def Cx.dgOut (c : Cx) (st : StreamId) (num : W32) (w : Nat) (o : WinOut) : Cx :=
  c.modFlight st num fun f => { f with wins := setOut f.wins w o }

/-- Bytes of a live state slot that a repair fetches (R271). -/
def slotBytes : Nat := 33 * rowBytes

/-- The repairs without one window's entry. -/
def Cx.otherRepairs (c : Cx) (w : Nat) : List Repair := c.fab.repairs.filter fun r => r.w != w

/-- Start a fenced window's repair: the fetch begins once a free pool slot is there (R271 step 2). -/
def Cx.startRepair (c : Cx) (st : StreamId) (num : W32) (w src : Nat) (digest : List Byte) : Cx :=
  match c.freeSlot (winStack w) with
  | none =>
    let r : Repair := { w := w, src := src, slot := 0, stream := st, command := num, digest := digest, started := false }
    { c with fab := { c.fab with repairs := c.otherRepairs w ++ [r] } }
  | some slot =>
    let parts := chunksOf slotBytes
    let tags := (List.range parts.length).map fun i => (c.fab.nextTag + BitVec.ofNat 16 i).toNat
    let r : Repair := { w := w, src := src, slot := slot, stream := st, command := num, awaits := tags, digest := digest }
    let c := { c with fab := { c.fab with repairs := c.otherRepairs w ++ [r] }
                      holds := c.holds ++ [(winStack w, slot, st.toNat, num.toNat)] }
    parts.foldl (fun c p => c.request st num 0x19 0 (BitVec.ofNat 17 src) 0#64 0#64 p.2 [] p.1 p.2 [0, w, p.1, p.2, 0, 0]) c

/-- A repair ends without success: the window falls under the no-majority row. -/
def Cx.failRepair (c : Cx) (r : Repair) : Cx :=
  let ranks := ((c.flight? r.stream r.command).map Flight.ranks).getD 0
  (({ c with fab := { c.fab with repairs := c.fab.repairs.filter fun x => x.w != r.w } }).unresolved r.w ranks).dgOut
    r.stream r.command r.w .untouched

/-- The last byte of a fetch has come: step 3 of R271, then the journal record of the repair (R366). -/
def Cx.checkRepair (c : Cx) (w : Nat) : Cx :=
  match c.fab.repairs.find? fun r => r.w = w, c.win? w with
  | some r, some v =>
    if !r.started || !r.awaits.isEmpty || r.sent then c
    else
      let ls := c.leaves Cx.hubBytes (winStack w) r.slot v.tails
      if r.bad || digestOf ls v.tensor v.k v.step != r.digest then c.failRepair r
      else
        let mark (x : Repair) : Repair := if x.w = w then { x with sent := true } else x
        let c := { c with fab := { c.fab with repairs := c.fab.repairs.map mark } }
        c.submit (c.owner (winStack w)) (.repair w r.slot v.stateSlot r.digest)
  | _, _ => c

/-- The journal holds a repair's record: steps 4 and 5 of R271. -/
def Cx.endRepair (c : Cx) (w slot : Nat) (digest : List Byte) : Cx :=
  match c.fab.repairs.find? fun r => r.w = w, c.win? w with
  | some r, some v =>
    let mode := ((c.flight? r.stream r.command).map Flight.dgMode).getD 0
    let s := winStack w
    let c := (c.retire s v.stateSlot).modWin w fun u => { u with stateSlot := slot, resident := true, digest := digest }
    let c := (c.tagSlot s slot (kget 0 (c.stk s).tags v.stateSlot)).unfenceWin w
    let c := { c with fab := { c.fab with repairs := c.fab.repairs.filter fun x => x.w != w } }
    ((c.saveEntry w).auditEv 0x4006 1 w [w, v.stepNat, r.src, mode] v.step).dgOut r.stream r.command w .committed
  | _, _ => c

/-- Apply Table 10.10 to one mismatching window. -/
def Cx.resolveWin (st : StreamId) (num : W32) (c : Cx) (w : Nat) : Cx :=
  match c.flight? st num with
  | none => c
  | some f =>
    match c.digestRow f w with
    | none => c.dgOut st num w .replayed
    | some row =>
      let c := c.sayMismatch f w row
      match c.resolve f w row with
      | .nothing => c.dgOut st num w .replayed
      | .fence => (c.unresolved w f.ranks).dgOut st num w .untouched
      | .repair r => (c.fenceWin w).startRepair st num w (f.dgNodes.getD r 0) (row.getD r [])

/-- Repairs that found no free slot are tried again. -/
def Cx.retryRepair (st : StreamId) (num : W32) (c : Cx) (w : Nat) : Cx :=
  if c.fab.repairs.any fun r => r.w = w && r.started then c
  else match c.flight? st num with
    | none => c
    | some f =>
      if f.dgMode = 1 then c.startRepair st num w f.dgSource []
      else match c.digestRow f w with
        | some row => (match c.resolve f w row with
          | .repair r => c.startRepair st num w (f.dgNodes.getD r 0) (row.getD r [])
          | _ => c)
        | none => c.dgOut st num w .replayed

def countWins (o : WinOut) (l : List (Nat × WinOut)) : Nat := (l.filter fun x => x.2 == o).length

/-- An audit ends: its result, its peers (R314), and what it kept goes. -/
def Cx.endAudit (c : Cx) (f : Flight) : Cx × Res :=
  let n := f.result.toNat % 2 ^ 21 + countWins .committed f.wins * 2 ^ 21 + countWins .untouched f.wins * 2 ^ 42
  ({ c with fab := { c.fab with
      auditPeers := f.dgNodes, auditRank := f.ownRank
      digests := c.fab.digests.filter fun d => d.step != f.dgStep
      leafLists := c.fab.leafLists.filter fun l => !(f.wins.any fun x => x.1 = l.w) } }, .done stOk n)

/-- Phase 3: repairs go on; the command ends when every window is settled. -/
def dgRepairs : Body := fun st f c =>
  let todo := (f.wins.filter fun x => x.2 == .todo).map (·.1)
  let c := todo.foldl (Cx.retryRepair st f.number) c
  match c.flight? st f.number with
  | none => (c, .wait .other)
  | some g =>
    if !g.settled then (if c.cutOff st todo then retryLater c else (c, .wait .other))
    else if g.dgMode = 0 then c.endAudit g
    else (c, .done stOk (countWins .committed g.wins))

/-- Phase 2: leaf lists; then Table 10.10. -/
def dgLeaves : Body := fun st f c =>
  if !c.leavesHere f then (c, .wait .fabricCredit)
  else
    let c := c.modFlight st f.number fun g => { g with phase := 3 }
    let c := (f.wins.map (·.1)).foldl (Cx.resolveWin st f.number) c
    dgRepairs st ((c.flight? st f.number).getD f) c

/-- Phase 1: digests; then the comparison. -/
def dgCompare : Body := fun st f c =>
  if !c.digestsHere f then (c, .wait .fabricCredit)
  else
    let rows := (c.dgWindows f).filterMap fun w => (c.digestRow f w).map fun r => (w, r)
    let c := (rows.filter fun r => allSame r.2).foldl (fun c r => c.modWin r.1 fun v => { v with eccSeen := false }) c
    let bad := (rows.filter fun r => !allSame r.2).map (·.1)
    let c := bad.foldl (fun c w => c.sendLeaves f w) c
    let g := { f with phase := 2, wins := bad.map fun w => (w, WinOut.todo), result := BitVec.ofNat 64 rows.length }
    dgLeaves st g (c.modFlight st f.number fun _ => g)

/-- R269: the halts. -/
def Cx.dgHalts (c : Cx) (f : Flight) : Bool :=
  let tl := f.arg 16 63 0
  let rl := f.arg 40 63 0
  f.ranks = 0 || f.ranks > 4096 || f.ownRank ≥ f.ranks || !listTagOk tl || !listTagOk rl || f.dgMode = 3
    || (f.dgMode = 0 && (f.dgWindow != 0 || f.dgSource != 0))
    || (f.dgMode != 0 && (f.dgCount != 0 || (c.win? f.dgWindow).isNone))

/-- Modes REPAIR_FROM and ACCEPT_LOCAL (R272). -/
def dgHost : Body := fun st f c =>
  let w := f.dgWindow
  match c.win? w with
  | none => (c, .halt haltDecode)
  | some v =>
    if c.boundAway st v.tensor then refuseFenced c v.tensor
    else if c.stackBusy (winStack w) || c.cutOff st [w] then retryLater c
    else if f.dgMode = 2 then
      let c := if v.fenced then c.unfenceWin w else c
      (c.modWin w fun v => { v with eccSeen := false }, .done stOk 1)
    else if c.fab.unreachable.contains f.dgSource then refuseFenced c f.dgSource
    else
      let c := if v.fenced then c else c.fenceWin w
      let g := { f with phase := 3, wins := [(w, WinOut.todo)] }
      dgRepairs st g (c.modFlight st f.number fun _ => g)

def bodyDigest : Body := fun st f c =>
  match f.phase with
  | 1 => dgCompare st f c
  | 2 => dgLeaves st f c
  | 3 => dgRepairs st f c
  | _ =>
    if c.dgHalts f then (c, .halt haltDecode)
    else if f.dgMode != 0 then dgHost st f (c.arm (BitVec.ofNat 48 f.dgStep))
    else
      let c := c.arm (BitVec.ofNat 48 f.dgStep)
      let tl := if f.dgCount = 0 then Sum.inr ([] : List Byte) else c.listOperand st f 1 (f.arg 16 63 0) (4 * f.dgCount)
      match tl, c.listOperand st f 4 (f.arg 40 63 0) (4 * f.ranks) with
      | .inl r, _ => r
      | _, .inl r => r
      | .inr a, .inr b =>
        let g := { f with data := a ++ b, phase := 1 }
        if g.dgTensors.any fun h => (c.tensor? h).isNone then (c, .halt haltDecode)
        else match g.dgTensors.find? fun h => c.boundAway st h, g.dgNodes.find? fun n => c.fab.unreachable.contains n with
          | some h, _ => refuseFenced c h
          | none, some n => refuseFenced c n
          | none, none =>
            if c.cutOff st (c.dgWindows g) then retryLater c
            else if f.ranks = 1 then c.endAudit g
            else
              let c := c.modFlight st f.number fun _ => g
              let n := c.staleWindows g
              let c := if n = 0 then c else c.ev 0x4008 12 0 (c.dieOf st) (c.dieOf st).num [g.dgStep, n]
                (some (BitVec.ofNat 48 g.dgStep))
              let ds := c.ownDigests g
              let c := (c.sendDigests g ds) |> fun c => { c with fab := { c.fab with digests := c.fab.digests ++ ds } }
              dgCompare st g c

/-- DIGEST_EXCHANGE (R270). -/
def execDigestExchange (st : StreamId) (s : State) : R := s.go (s.cx.runStream 0x33 bodyDigest st)

/-- Audits that wait go on. -/
def Cx.auditsGo (c : Cx) : Cx :=
  c.streams.foldl (fun c p => p.2.flights.foldl (fun c f =>
    if f.op = 0x33 && f.status.isNone && f.phase != 0 then c.runFlight bodyDigest (BitVec.ofNat 12 p.1) f.number else c) c) c

/-- DIGEST (R357): entries of a replica; fields step, end mark. -/
def execDigest (p : Fin 13) (m : Msg) (s : State) : R :=
  s.go (s.cx.onMsg p m 0x13 fun c =>
    let ds := (List.range (m.data.length / 32)).map fun i => readDigest m.src.toNat (m.data.drop (32 * i))
    let e : List DigestRec := if m.fields.getD 1 0 = 1 then [⟨m.src.toNat, m.fields.getD 0 0, 2 ^ 24, 0, []⟩] else []
    ({ c with fab := { c.fab with digests := c.fab.digests ++ ds ++ e } }).auditsGo)

/-- LEAVES (R357): 4 KiB of a window's leaf list; fields window, part, the sender's ecc_seen. -/
def execLeaves (p : Fin 13) (m : Msg) (s : State) : R :=
  s.go (s.cx.onMsg p m 0x14 fun c =>
    let w := m.fields.getD 0 0
    let src := m.src.toNat
    let ecc : List Byte := [BitVec.ofNat 8 (m.fields.getD 2 0)]
    let kept : List LeafRec := c.fab.leafLists.filter fun l => !(l.src = src && l.w = w && (l.part = m.fields.getD 1 0 || l.part = 16))
    let new : List LeafRec := [⟨src, w, m.fields.getD 1 0, m.data⟩, ⟨src, w, 16, ecc⟩]
    ({ c with fab := { c.fab with leafLists := kept ++ new } }).auditsGo)

end Sys2Proof.Machine
end

