-- ==== Sys2Proof/Machine/Stacks.lean ====
section
/-!
DEFINITION. Stacks: temperature, row sparing, channel retirement and its rebuild, parity, stack rebuild (R302, R310 to
R320), with the FETCH messages of repairs and replica rebuilds (R271, R314, R357) and the request timeout (R354).
-/
namespace Sys2Proof.Machine

def stkReg (s off : Nat) : Nat := stkBase s + off

/-- Event of a stack (class 8, the stack as index) or of a channel (class 9). -/
def Cx.stkEv (c : Cx) (code sev s : Nat) (fields : List Nat) : Cx := c.ev code 8 sev (homeDie s) s fields
def Cx.chanEv (c : Cx) (code sev g : Nat) (fields : List Nat) : Cx := c.ev code 9 sev (homeDie (g / 32)) g fields

/-- `STK_LINK_RESET` when a stack leaves link reset: stack, cause, duration, which no step of the table measures
(log entry 15). -/
def Cx.linkEdge (c0 : Cx) (s : Nat) (c : Cx) : Cx :=
  if (c0.stk s).trained && (c0.stk s).linkReset && !(c.stk s).linkReset then
    let o := c.drawOpen 0x6003
    o.2.stkEv 0x6003 2 s [s, (c0.stk s).cause, o.1.toNat]
  else c

/-! ### Temperature (R310) -/

/-- Thresholds of rows 1 to 5 of Table 12.2. -/
def tempThresholds : List Int := [85, 95, 100, 105, 110]

/-- Row in force at a reading: a threshold applies when reached and is released 2 °C below it. -/
def tempRow (row : Nat) (t : Int) : Nat :=
  ((List.range 5).filter fun i =>
    let th := tempThresholds.getD i 0
    decide (th ≤ t) || (decide (i < row) && decide (th - 2 < t))).foldl (fun m i => max m (i + 1)) 0

/-- Highest reading among a stack's channels. -/
def Stack.hottest (k : Stack) : Int :=
  match k.temps with
  | [] => 0
  | p :: r => r.foldl (fun m q => max m q.2) p.2

/-- Channels that Table 12.2 admits to bank compute. -/
def rowLimit (row : Nat) : Nat := if row < 3 then 20 else if row = 3 then 10 else 0

/-- TEMPERATURE_SAMPLE (R310): one channel's reading; the stack limits follow the highest. -/
def execTemperatureSample (ch : Fin 640) (t : Byte) (s : State) : R :=
  let c := s.cx
  let st := ch.val / 32
  let old := c.stk st
  let x : Int := t.toInt
  let k := { old with temps := kput old.temps (ch.val % 32) x }
  let hot := k.hottest
  let row := tempRow old.row hot
  let trip := decide (110 ≤ hot) || (old.thermalTrip && decide (100 ≤ hot))
  let k := { k with row := row, stackLimit := rowLimit row, thermalTrip := trip, cause := if trip then 3 else old.cause }
  let c1 := c.modStk st fun _ => k
  let c1 := if row > old.row then c1.chanEv 0x6004 (if row = 5 then 2 else 1) ch [st, ch, t.toNat, row] else c1
  s.go (Cx.linkEdge c st c1)

/-! ### Raw writes (R110, R302) -/

/-- Key of a channel offset. -/
def chanKey (g x : Nat) : Nat := stackKey (g / 32) (chanOff (g % 32) x)

/-- TEST_RAW_WRITE (R302): only through a selected wrapper, with no image enabled and the hub core in reset (R110). Every
codeword of each 2 KiB range that it touches becomes ECC-unknown, which reads as poison. -/
def execTestRawWrite (ch : Fin 640) (off : W32) (data : List Byte) (s : State) : R :=
  let c := s.cx
  let d := homeDie (ch.val / 32)
  let o := off.toNat
  let n := data.length
  if (c.die d).jtag != 6 || c.enabled || (c.die d).core || n = 0 || o + n > channelBytes then s.go c
  else
    let c := (List.range n).foldl (fun c i => c.putByte (chanKey ch (o + i)) (data.getD i 0#8)) c
    let words := (List.range ((o + n - 1) / 2048 + 1 - o / 2048)).flatMap fun i =>
      (List.range 32).map fun j => chanKey ch ((o / 2048 + i) * 2048 + 64 * j) / 64
    s.go { c with eccUnknown := words.foldl nput c.eccUnknown, poison := words.foldl nput c.poison }

/-! ### Granules of a channel -/

def granuleBytes : Nat := 4096
/-- Key of the granule of channel k in a row. -/
def granuleKey (s row k : Nat) : Nat := stackKey s (row * rowBytes + k * 4096)

/-- A granule reads without error: no codeword of it is poisoned. -/
def Cx.granuleOk (c : Cx) (key : Nat) : Bool :=
  !(c.poison.any fun w => decide (key ≤ w * 64 ∧ w * 64 < key + 4096)) && !c.deadAt key

/-- Every codeword of [key, key + n) reads as poison. -/
def Cx.poisonRange (c : Cx) (key n : Nat) : Cx :=
  { c with poison := (List.range (n / 64)).foldl (fun l i => nput l (key / 64 + i)) c.poison
           dirty := c.dirty.filter fun p => !(decide (key ≤ p.1 ∧ p.1 < key + n)) }

/-- Put restored bytes where they were lost: no parity delta, no poison left. -/
def Cx.restore (c : Cx) (key : Nat) (bs : List Byte) : Cx :=
  (fullUnits key bs.length).foldl Cx.clearPoison ((List.range bs.length).foldl (fun c i => c.putByte (key + i) (bs.getD i 0#8)) c)


/-! ### Parity (R318, R319) -/

/-- Data row by its number (R318). -/
def Layout.rowOf (l : Layout) (n : Nat) : Nat := if n < l.parityBase then n else n + l.parityRows

/-- Stripe of a row: of a data row by its number, of a parity row by its place. -/
def Layout.stripe (l : Layout) (s row : Nat) : Nat :=
  match l.dataRow row with
  | some n => (20 * n + s) / 19
  | none => 20 * (row - l.parityBase) + (19 - s)

/-- Members of a stripe: stack and row of each data row, and of its parity row. -/
def Layout.members (l : Layout) (q : Nat) : List (Nat × Nat) :=
  ((List.range 19).filter (fun i => (19 * q + i) / 20 < 786432 - l.parityRows)).map (fun i =>
    ((19 * q + i) % 20, l.rowOf ((19 * q + i) / 20))) ++ [(19 - q % 20, l.parityBase + q / 20)]

/-- Deltas that have not reached a parity granule yet, from its own queue and from the writers' staging. -/
def Cx.deltasFor (c : Cx) (ps granule : Nat) : List (Nat × Byte) :=
  ((c.stk ps).deltas.filter fun d => d.granule = granule).flatMap (·.xors)
    ++ (List.range 20).flatMap fun s => ((c.stk s).log.filter fun d => d.granule = granule + ps * 2 ^ 32).flatMap (·.xors)

/-- A granule as parity sees it: its bytes, with the pending deltas of a parity row. -/
def Cx.paritySide (c : Cx) (l : Layout) (m : Nat × Nat) (k : Nat) : List Byte :=
  let b := c.bytes (granuleKey m.1 m.2 k) 4096
  if (l.dataRow m.2).isSome then b
  else (c.deltasFor m.1 (m.2 * 32 + k)).foldl (fun b x => b.set x.1 (b.getD x.1 0#8 ^^^ x.2)) b

/-- The granule that parity yields (R318): none without parity, or when another granule of its stripe cannot be read. -/
def Cx.parityGranule (c : Cx) (s row k : Nat) : Option (List Byte) :=
  match c.img.cfg with
  | none => none
  | some g =>
    let l := g.lay
    let q := l.stripe s row
    let others := (l.members q).filter fun m => m != (s, row)
    if !c.enabled || g.geo.parity != 1 then none
    else if others.all fun m => c.stackUp m.1 && !(c.stk m.1).lost && c.granuleOk (granuleKey m.1 m.2 k) then
      some (others.foldl (fun b m => xorBytes b (c.paritySide l m k)) (List.replicate 4096 0#8))
    else none

/-- XOR a delta into its parity granule. -/
def Cx.applyDelta (c : Cx) (ps : Nat) (d : Delta) : Cx :=
  let key := granuleKey ps (d.granule / 32) (d.granule % 32)
  d.xors.foldl (fun c x => c.putByte (key + x.1) (c.byte (key + x.1) ^^^ x.2)) c

/-- PARITY_DELTA (R319): the oldest delta on its way to this parity stack is applied. -/
def execParityDelta (stk : Fin 20) (s : State) : R :=
  let c := s.cx
  match (c.stk stk).deltas with
  | [] => s.go c
  | d :: rest =>
    if (c.stk stk).linkReset then s.go c
    else s.go ((c.modStk stk fun k => { k with deltas := rest }).applyDelta stk d)

/-- PARITY_LOG_REPLAY (R319): the deltas logged for this parity stack are applied in order. -/
def execParityLogReplay (stk : Fin 20) (s : State) : R :=
  let c := s.cx
  if (c.stk stk).linkReset || (c.stk stk).rebuilding || (c.stk stk).lost then s.go c
  else
    let mine (d : Delta) : Bool := decide (d.granule / 2 ^ 32 = stk.val)
    let ds := (List.range 20).flatMap fun w => (c.stk w).log.filter mine
    let c := (List.range 20).foldl (fun c w => c.modStk w fun k =>
      { k with log := k.log.filter fun d => !mine d, logFull := k.logFull && !(k.log.any mine) }) c
    s.go (ds.foldl (fun c d => c.applyDelta stk { d with granule := d.granule % 2 ^ 32 }) c)

/-! ### Areas of a stack (Table 3.5) -/

inductive Area where
  | slot (n : Nat)
  | grad (n : Nat)
  | mapStore
  | stash (region n : Nat)
  | stats
  | placed
  | unused
  deriving DecidableEq, Repr

/-- Area of a granule. -/
def Cx.areaOf (c : Cx) (s row k : Nat) : Area :=
  match c.img.cfg with
  | none => .unused
  | some g =>
    let l := g.lay
    let inside (b n : Nat) : Bool := decide (b ≤ row ∧ row < b + n)
    if inside l.stateBase ((l.live + l.pool) * 33) then .slot ((row - l.stateBase) / 33)
    else if inside l.promoBase (l.promo * 33) then .slot (l.live + l.pool + (row - l.promoBase) / 33)
    else if inside l.gradBase (l.live * 16) then .grad ((row - l.gradBase) / 16)
    else if inside l.mapBase 32 then .mapStore
    else if g.regions.any fun r => r.covers s k (row * 4096) then .placed
    else if inside g.stashEnd g.statRows then .stats
    else match g.stash.find? fun r => decide (r.firstRow ≤ row ∧ row < r.firstRow + 16 * r.slots) with
      | some r => .stash r.region ((row - r.firstRow) / 16)
      | none => .unused

/-- Window that a state slot serves as its live state. -/
def Cx.liveIn (c : Cx) (s n : Nat) : Option (Nat × Win) :=
  c.wins.find? fun p => winStack p.1 = s && p.2.resident && p.2.stateSlot = n

/-- Offset of a granule within a state slot. -/
def Cx.slotGranule (c : Cx) (n row k : Nat) : Nat := row * rowBytes + k * 4096 - c.slotOff n

/-! ### Retirement (R313 to R315) -/

def addSource (l : List Nat) (i : Nat) : List Nat := l.set i (l.getD i 0 + 1)

def Cx.countSource (c : Cx) (s i : Nat) : Cx := c.modStk s fun k => { k with sources := addSource k.sources i }

/-- Zero a granule that nothing restored. -/
def Cx.zeroGranule (c : Cx) (key : Nat) : Cx :=
  (c.poke key (List.replicate 4096 0#8)) |> fun c =>
    { c with dirty := c.dirty.filter fun p => !(decide (key ≤ p.1 ∧ p.1 < key + 4096)) }

/-- Set acc_epoch of a window's block where its headers are: in its state slot, or in its slow-tier image. -/
def Cx.putEpoch (c : Cx) (w : Nat) (v : Win) (b e : Nat) : Cx :=
  if v.resident then c.setAccEpoch (winStack w) v.stateSlot b e
  else
    let k := slowKey (homeDie (winStack w)) (v.slowIndex * slotBytes + offH + 8 * b)
    c.poke k (leBytes 8 (setBits (leNat (c.bytes k 8)) 19 17 e))

/-- What a granule becomes that no copy, parity or replica restores (Table 12.4). -/
def Cx.defaultGranule (c : Cx) (s row k : Nat) : Cx :=
  let key := granuleKey s row k
  let c := c.countSource s 3
  match c.areaOf s row k with
  | .placed => c.poisonRange key 4096
  | .unused => c.zeroGranule key
  | .stats =>
    match (List.range 20).find? fun x => x != s && c.active x && c.granuleOk (granuleKey x row k) with
    | some x => c.restore key (c.bytes (granuleKey x row k) 4096)
    | none => c.zeroGranule key
  | .mapStore =>
    let lo := key - stackKey s (c.lay.mapBase * rowBytes)
    let c := (c.wins.filter fun p => winStack p.1 = s && decide (lo ≤ 32 * (p.1 / 20) ∧ 32 * (p.1 / 20) < lo + 4096)).foldl
      (fun c p => c.saveEntry p.1) (c.zeroGranule key)
    if lo ≤ 0x3FFFC0 && 0x3FFFC0 < lo + 4096 then c.saveApplied s else c
  | .stash region n =>
    let c := c.zeroGranule key
    { c with wins := c.wins.map fun p =>
        if winStack p.1 = s && p.2.region = region && p.2.stash.contains n then
          (p.1, { p.2 with stash := p.2.stash.map fun x => if x = n then noStash else x
                           copies := p.2.copies.filter fun q => q.1 != n })
        else p }
  | .grad n =>
    let c := c.zeroGranule key
    match c.wins.find? fun p => winStack p.1 = s && p.2.gSlot = n with
    | none => c
    | some p =>
      let b0 := (key - stackKey s (c.gOff n)) / 128
      ((List.range 32).foldl (fun c i => c.putEpoch p.1 p.2 (b0 + i) (p.2.eD + 2#3).toNat) c).modWin p.1
        fun v => { v with eccSeen := true }
  | .slot n =>
    match c.liveIn s n with
    | none => c.zeroGranule key
    | some p =>
      if n ≥ c.slotCount then
        (((c.zeroGranule key).retire s n).modWin p.1 fun v => { v with resident := false, promoting := true })
      else (c.poisonRange key 4096).unresolved p.1 c.fab.auditPeers.length

/-- Ranks of the newest audit's peers from a rank on, own rank left out. -/
def Cx.peersFrom (c : Cx) (r : Nat) : List Nat :=
  (List.range c.fab.auditPeers.length).filter fun i => i ≥ r && i != c.fab.auditRank

/-- Kind of an outstanding request that asks a peer for one granule: its command holds the window, its offset the row and
channel, its length the peer's rank. -/
def opRebuildFetch : Nat := 0x119

/-- Ask the next peer for a granule, or take its default when none is left (R314). -/
def Cx.askPeer (c : Cx) (s row k w : Nat) (from_ : Nat) : Cx :=
  match c.peersFrom from_, c.win? w, (c.win? w).map fun v => c.slotGranule v.stateSlot row k with
  | r :: _, some v, some off =>
    let node := c.fab.auditPeers.getD r 0
    let tag := c.fab.nextTag
    let q : Req := { tag := tag, dest := node, op := opRebuildFetch, stream := 0#12, command := BitVec.ofNat 32 w
                     off := row * 32 + k, len := r }
    ({ c with fab := { c.fab with nextTag := tag + 1#16, reqs := c.fab.reqs ++ [q] } }).sendMsg 0
      (c.mkMsg 0x19 0 (BitVec.ofNat 17 node) tag 0#64 0#64 4096 [] [1, w, off, 4096, leNat v.digest, v.stepNat])
  | _, _, _ => c.defaultGranule s row k

/-- Fill one granule of the retired channel from its first source (R313). -/
def Cx.refill (s k : Nat) (c : Cx) (row : Nat) : Cx :=
  let key := granuleKey s row k
  if c.granuleOk key then c.countSource s 0
  else match c.parityGranule s row k with
    | some b => (c.restore key b).countSource s 1
    | none =>
      match c.areaOf s row k with
      | .slot n => (match c.liveIn s n with
        | some p => if n < c.slotCount then c.askPeer s row k p.1 0 else c.defaultGranule s row k
        | none => c.defaultGranule s row k)
      | _ => c.defaultGranule s row k

/-- Rows outside the retirement spare, whose granules move (R69). -/
def Cx.movedRows (c : Cx) : List Nat :=
  match c.img.cfg with
  | some g => (List.range 786432).filter fun r => !(decide (g.lay.spareBase ≤ r ∧ r < g.lay.spareBase + 24576))
  | none => List.range 761856

/-- Passes on a stack's windows stop and their speculative versions are discarded; the windows are QUIET again when the
rebuild ends (R313). -/
def Cx.stopForRebuild (c : Cx) (s : Nat) : Cx :=
  (c.wins.filter fun p => winStack p.1 = s && p.2.pass.isSome).foldl (fun c p =>
    (c.discardSpec p.1).modWin p.1 fun v => { v with stopped := true }) c

/-- The windows that a rebuild stopped return to QUIET. -/
def Cx.endStopped (c : Cx) (s : Nat) : Cx :=
  { c with wins := c.wins.map fun p => if winStack p.1 = s && p.2.stopped then
      (p.1, if p.2.fenced then { p.2 with stopped := false }
        else { p.2 with stopped := false, st := .quiet, hold := false, verdict := none }) else p }

/-- A channel fails with the spare in use (R315): its granules read as poison from now on, and every window of the stack is
fenced. -/
def Cx.loseChannel (c : Cx) (s k : Nat) : Cx :=
  let g := s * 32 + k
  let c := c.modStk s fun y => { y with spareExhausted := true, failed := nput y.failed k }
  let c := (c.wins.filter fun p => winStack p.1 = s && !p.2.fenced).foldl (fun c p => c.fenceWin p.1) c
  (c.modNewt g fun n => { n with retired := true }).chanEv 0x6007 3 g [g]

/-- Retire a channel (R313), or lose it when the spare already holds another, or is being filled with it (R315). -/
def Cx.retireChannel (c : Cx) (s k cause : Nat) : Cx :=
  match (c.stk s).retired with
  | some x => if x = k || (c.stk s).failed.contains k then c else c.loseChannel s k
  | none =>
    let c := (c.stopForRebuild s).modStk s fun y => { y with
      retired := some k, retireCause := cause, rebuilding := true, sources := [0, 0, 0, 0], progress := 0 }
    let c := c.modNewt (s * 32 + k) fun n => { n with retired := true }
    let rows := c.movedRows
    (rows.foldl (Cx.refill s k) c).modStk s fun y => { y with progress := rows.length }

/-- CHANNEL_RETIRE (R313): STK_CHAN_RETIRE.go. Causes: 0 no spare row, 1 self-test, 2 software. -/
def execChannelRetire (stk : Fin 20) (s : State) : R :=
  let c := s.cx
  if !c.stackUp stk || !c.serves (c.owner stk) then s.go c
  else s.go (c.retireChannel stk (bits (c.reg (stkReg stk 0x18)).toNat 4 0) 2)

/-- Peers still have to answer for granules of a stack. -/
def Cx.peersOwe (c : Cx) (s : Nat) : Bool :=
  c.fab.reqs.any fun r => r.op = opRebuildFetch && winStack r.command.toNat = s

/-- CHANNEL_REBUILD_DONE (R313): every granule is filled; `STK_CHANNEL_RETIRED`. -/
def execChannelRebuildDone (stk : Fin 20) (s : State) : R :=
  let c := s.cx
  let k := c.stk stk
  match k.retired with
  | none => s.go c
  | some x =>
    if !k.rebuilding || k.lost || c.peersOwe stk then s.go c
    else s.go (((c.endStopped stk).modStk stk fun y => { y with rebuilding := false }).chanEv 0x6006 2
      (stk.val * 32 + x) ([stk.val * 32 + x, k.retireCause] ++ k.sources))

/-! ### Row sparing (R312) -/

/-- Spare rows left in a bank of a channel. -/
def Stack.sparesLeft (k : Stack) (ch bank : Nat) : Nat := kget 16 k.spares (ch + 32 * bank)

/-- An error sets ecc_seen of the window whose live or speculative slot it strikes (R268). -/
def Cx.eccAt (c : Cx) (g x : Nat) : Cx := c.eccSeenAt (g / 32) (chanOff (g % 32) x)

/-- ROW_SPARE (R312): an error in a row at a channel offset. An uncorrectable one, or the row's fourth corrected one,
spares the row; with no spare left in the bank the channel is retired (R313). -/
def execRowSpare (ch : Fin 640) (bank : Nat) (row : Nat) (off : W32) (uncorrectable : Bool) (s : State) : R :=
  let c := s.cx
  let st := ch.val / 32
  let k := ch.val % 32
  let d := homeDie st
  if !(c.stk st).trained then s.go c
  else
    let c := c.eccAt ch off.toNat
    let c := if uncorrectable then (c.bump (stkReg st 0x44) 31 d).poisonRange (chanKey ch (off.toNat / 64 * 64)) 64
      else (c.bump (stkReg st 0x40) 31 d).modStk st fun x => { x with ceChan := kput x.ceChan k (min 65535 (kget 0 x.ceChan k + 1)) }
    let key := (k + 32 * bank) * 2 ^ 20 + row % 2 ^ 20
    let n := kget 0 (c.stk st).eccRows key + 1
    if !uncorrectable && n < 4 then s.go (c.modStk st fun x => { x with eccRows := kput x.eccRows key n })
    else
      let left := (c.stk st).sparesLeft k bank
      let c := c.modStk st fun x => { x with eccRows := kdel x.eccRows key }
      if left = 0 then s.go (c.retireChannel st k 0)
      else
        s.go (((c.modStk st fun x => { x with spares := kput x.spares (k + 32 * bank) (left - 1) }).bump
          (stkReg st 0x48) 31 d).chanEv 0x6005 0 ch [ch, bank, row, left - 1])

/-! ### Loss and rebuild of a stack (R320) -/

/-- A stack's contents are lost: they read as poison, and every window of the stack is fenced (R320). -/
def Cx.loseStack (c : Cx) (s cause : Nat) : Cx :=
  if (c.stk s).lost then c
  else
    let c := (c.poisonRange (stackKey s 0) stackBytes).modStk s fun k => { k with lost := true }
    let ws := ((c.wins.filter fun p => winStack p.1 = s && !p.2.fenced).map (·.1))
    let c := (ws.foldl Cx.fenceWin c).modStk s fun k => { k with lossFenced := ws }
    let parity : Bool := c.enabled && (c.img.cfg.any fun g => g.geo.parity = 1)
    c.stkEv 0x6008 3 s [s, cause, b2n parity]

/-- LINK_RESET_EXPIRY (R320): more than 32 ms of link reset. -/
def execLinkResetExpiry (stk : Fin 20) (s : State) : R :=
  let c := s.cx
  if (c.stk stk).trained && (c.stk stk).linkReset then s.go (c.loseStack stk 2) else s.go c

/-- A lost stack can be rebuilt now: it is back, and the complex has parity. -/
def Cx.rebuildable (c : Cx) (s : Nat) : Bool :=
  (c.stk s).lost && c.stackUp s && c.enabled && (c.img.cfg.any fun g => g.geo.parity = 1)

/-- STACK_REBUILD (R320): the rebuild from parity starts. -/
def execStackRebuild (stk : Fin 20) (s : State) : R :=
  let c := s.cx
  if c.rebuildable stk && !(c.stk stk).rebuilding then
    s.go (c.modStk stk fun k => { k with rebuilding := true, progress := 0 })
  else s.go c

/-- STACK_REBUILD_DONE (R320): every granule that parity yields is back; windows whose live slot and gradient slot are
whole are unfenced. -/
def execStackRebuildDone (stk : Fin 20) (s : State) : R :=
  let c := s.cx
  if !(c.rebuildable stk && (c.stk stk).rebuilding) then s.go c
  else
    let src := c
    let c := (List.range 786432).foldl (fun c r => (List.range 32).foldl (fun c k =>
      match src.parityGranule stk r k with
      | some b => c.restore (granuleKey stk r k) b
      | none => c) c) c
    let whole (c : Cx) (w : Nat) : Bool := (c.win? w).any fun v =>
      let ok (o n : Nat) : Bool := !(c.poison.any fun x => decide (stackKey stk o ≤ x * 64 ∧ x * 64 < stackKey stk o + n))
        && (c.stk stk).failed.isEmpty
      ok (c.slotOff v.stateSlot) slotBytes && ok (c.gOff v.gSlot) (16 * rowBytes)
    let ws := (c.stk stk).lossFenced
    let c := c.modStk stk fun k => { k with lost := false, rebuilding := false, lossFenced := [], progress := 786432 }
    let c := (ws.filter (whole c)).foldl Cx.unfenceWin c
    let o := c.drawOpen 0x6009
    s.go (o.2.stkEv 0x6009 1 stk [stk, 786432, o.1.toNat])

/-! ### FETCH (R271, R314, R357) -/

/-- FETCH at a peer: fields kind (0 repair, 1 replica rebuild), window, offset in the live state slot, length, and for a
rebuild the digest and step that must match. Fields of the answer: status, offset of a poisoned byte, digest. -/
def execFetch (p : Fin 13) (m : Msg) (s : State) : R :=
  let c := s.cx
  let w := m.fields.getD 1 0
  if m.op.toNat != 0x19 || !c.arrived p m then s.go c
  else
    let answer (c : Cx) (k r : Nat) (b d : List Byte) : R :=
      s.go ((c.consume p m).respond m 0x1A 0#64 0#64 b [k, r, leNat d])
    match c.win? w with
    | none => answer c stPoison 0 [] []
    | some v =>
      let off := m.fields.getD 2 0
      let n := m.fields.getD 3 0
      if off + n > slotBytes then answer c stPoison 0 [] []
      else if c.stackBusy (winStack w) then answer c stRetry 0 [] []
      else if m.fields.getD 0 0 = 1 && !(decide (leNat v.digest = m.fields.getD 4 0 ∧ v.stepNat = m.fields.getD 5 0)) then
        answer c stRetired 0 [] []
      else if !v.resident then s.go (c.demandState w)
      else
        let key := c.stateKey w v off
        match c.hubPoisonIn key n with
        | some o => answer c stPoison o [] []
        | none => answer c stOk 0 (c.hubBytes key n) v.digest

/-- Bytes of a repair, or word that they will not come. -/
def Cx.repairData (c : Cx) (r : Req) (ok : Bool) (bytes digest : List Byte) : Cx :=
  match c.fab.repairs.find? fun x => x.stream = r.stream && x.command = r.command && x.awaits.contains r.tag.toNat with
  | none => c
  | some x =>
    let c := if ok then c.hubPoke (stackKey (winStack x.w) (c.slotOff x.slot + r.off)) (bytes.take r.len) else c
    let upd (y : Repair) : Repair :=
      if y.w = x.w then { y with awaits := y.awaits.filter (· != r.tag.toNat), bad := y.bad || !ok
                                 digest := if y.digest.isEmpty then digest else y.digest } else y
    ({ c with fab := { c.fab with repairs := c.fab.repairs.map upd } }).checkRepair x.w

/-- A peer's answer for a granule of a retired channel (R314): its bytes, or the next peer. -/
def Cx.rebuildData (c : Cx) (r : Req) (ok : Bool) (bytes : List Byte) : Cx :=
  let w := r.command.toNat
  let s := winStack w
  let row := r.off / 32
  let k := r.off % 32
  if ok && bytes.length = 4096 then (c.restore (granuleKey s row k) bytes).countSource s 2
  else c.askPeer s row k w (r.len + 1)

/-- FETCH_DATA (R271). -/
def execFetchData (p : Fin 13) (m : Msg) (s : State) : R :=
  s.go (s.cx.onMsg p m 0x1A fun c =>
    match c.req? m.tag with
    | none => c
    | some r =>
      let ok : Bool := m.fields.getD 0 0 = stOk
      let c := c.dropReq r.tag
      if r.op = opRebuildFetch then c.rebuildData r ok m.data
      else if r.op = 0x19 then
        ((c.modFlight r.stream r.command fun f => { f with awaits := f.awaits.filter (· != r.tag.toNat) }).repairData r ok m.data
          (leBytes 16 (m.fields.getD 2 0))).runFlight bodyDigest r.stream r.command
      else c)

/-! ### REQUEST_TIMEOUT (R354) -/

/-- Meaning of the commands that await responses over the fabric. -/
def fabricBody (op : Nat) : Body :=
  match op with
  | 0x01 => bodyCopy
  | 0x12 | 0x13 => bodyRelease
  | 0x31 => bodyAllGather
  | 0x33 => bodyDigest
  | 0x40 => bodyQueuePush
  | _ => fun _ _ c => (c, .wait .fabricCredit)

/-- A request will have no response: its node is unreachable for the command, which ends `REFUSED_FENCED` (R354). -/
def Cx.requestLost (c : Cx) (tag : W16) : Cx :=
  match c.req? tag with
  | none => c
  | some r =>
    let c := { c with fab := { c.fab with unreachable := nput c.fab.unreachable r.dest } }
    if r.op = opRebuildFetch then (c.dropReq tag).rebuildData r false []
    else if r.op = 0x19 then
      (((c.dropReq tag).modFlight r.stream r.command fun f => { f with awaits := f.awaits.filter (· != tag.toNat) }).repairData
        r false [] []).runFlight bodyDigest r.stream r.command
    else
      let c := (c.dropReq tag).modFlight r.stream r.command fun f =>
        { f with awaits := f.awaits.filter (· != tag.toNat), worst := stFenced, result := BitVec.ofNat 64 r.dest }
      match c.flight? r.stream r.command with
      | some f => if f.awaits.isEmpty then c.runFlight (fabricBody f.op) r.stream r.command else c
      | none => c

/-- REQUEST_TIMEOUT (R354): 20 ms without a response. -/
def execRequestTimeout (tag : W16) (s : State) : R := s.go (s.cx.requestLost tag)

/-! ### Salvage (R353, R376) -/

/-- The partner's answer to SALVAGE: it names the sequence number from which the held messages go out again. -/
def Cx.salvageFrom (c : Cx) (p : Nat) (seq : BitVec 12) : Cx :=
  let again := ((c.fp p).salvage.filter fun x => newerEq x.1 seq).map (·.2)
  let gone := again.filter (·.linkLocal)
  ((c.takeHeld p).resend p again).endSalvage p (again.length - gone.length) gone.length

/-- The partner's refusal: the held messages are lost, and this node's requests among them end at once (R376). -/
def Cx.salvageRefused (c : Cx) (p : Nat) : Cx :=
  let held := (c.fp p).salvage
  let own := (held.filter fun x => some x.2.src = c.fab.id && (c.req? x.2.tag).any fun r => r.op % 256 = x.2.op.toNat
    && r.dest = x.2.dest.toNat).map (·.2.tag)
  own.foldl Cx.requestLost ((c.takeHeld p).endSalvage p 0 held.length)

/-- SALVAGE (R353, R376): a request for this node's link, or the reply to its own. Fields: 0 a request, 1 an answer, 2 a
refusal; the port; the sequence number. -/
def execSalvage (p : Fin 13) (m : Msg) (s : State) : R :=
  s.go (s.cx.onMsg p m 0x27 fun c =>
    let port := m.fields.getD 1 0 % 12
    let q := c.fp port
    match m.fields.getD 0 0 with
    | 0 =>
      if c.coreUp (portDie port) then
        (c.modFp port fun q => { q with parts := [] }).respond m 0x27 0#64 0#64 [] [1, q.partnerPort, q.salvageSeq.toNat]
      else c.respond m 0x27 0#64 0#64 [] [2, q.partnerPort, 0]
    | 1 => if q.salvaging then c.salvageFrom port (BitVec.ofNat 12 (m.fields.getD 2 0)) else c
    | _ => if q.salvaging then c.salvageRefused port else c)

end Sys2Proof.Machine
end

