-- ==== Sys2Proof/Machine/Links.lean ====
section
/-!
DEFINITION. Stack links and their retraining, margining (R306 to R309), and the promotion and write-back of windows that
rest in the slow tier (R322, R323).
-/
namespace Sys2Proof.Machine

/-! ### Retraining (R307, R308). Causes: 0 replays, 1 lane check, 2 software, 3 margining. -/

/-- Retrain the primary link: traffic is steered to the standby link; a link that retrains already is left alone. -/
def Cx.retrainPrimary (c : Cx) (s cause : Nat) : Cx :=
  if (c.stk s).retrainP then c
  else c.modStk s fun k => { k with retrainP := true, onStandby := true, primary := 1, cause := cause }

/-- Retrain the standby link; it waits while the primary retrains, unless the standby has failed. -/
def Cx.retrainStandby (c : Cx) (s cause : Nat) (failed : Bool) : Cx :=
  let k := c.stk s
  if k.retrainS then c
  else if k.retrainP && !failed then c.modStk s fun k => { k with standbyWaits := true }
  else c.modStk s fun k => { k with retrainS := true, standby := 1, standbyWaits := false, cause := cause }

/-- The owner of a stack takes register writes for it. -/
def Cx.ownerServes (c : Cx) (s : Nat) : Bool := c.serves (c.owner s)

/-- RETRAIN_PRIMARY (R307): STK_LINK_CTRL.retrain_primary. -/
def execRetrainPrimary (stk : Fin 20) (s : State) : R :=
  if s.cx.ownerServes stk then s.go (s.cx.retrainPrimary stk 2) else s.go s.cx

/-- RETRAIN_STANDBY (R308): STK_LINK_CTRL.retrain_standby; a standby link that is DOWN has failed. -/
def execRetrainStandby (stk : Fin 20) (s : State) : R :=
  if s.cx.ownerServes stk then s.go (s.cx.retrainStandby stk 2 ((s.cx.stk stk).standby = 0)) else s.go s.cx

/-- STACK_REPLAY_BURST (R307): more than 64 replays within 1 ms on a primary link that runs. -/
def execStackReplayBurst (stk : Fin 20) (s : State) : R :=
  if (s.cx.stk stk).primary < 2 then s.go s.cx else s.go (s.cx.retrainPrimary stk 0)

/-- LANE_CHECK_FAILURE (R307): a lane of a running link fails its check. -/
def execLaneCheckFailure (stk : Fin 20) (standby : Bool) (s : State) : R :=
  let k := s.cx.stk stk
  if standby then (if k.standby < 2 then s.go s.cx else s.go (s.cx.retrainStandby stk 1 true))
  else if k.primary < 2 then s.go s.cx else s.go (s.cx.retrainPrimary stk 1)

/-- State and spares in use of a link that trained with failed lanes (R306): 2 UP, 3 DEGRADED at half width, 0 DOWN. -/
def trainedState (standby : Bool) (failed : Nat) : Nat × Nat :=
  let spares := if standby then 8 else 32
  let half := if standby then 128 else 512
  if failed ≤ spares then (2, failed) else if failed ≤ half + spares then (3, spares) else (0, spares)

/-- `STK_LINK_DEGRADED` of a link that trained at half width. -/
def Cx.sayDegraded (c : Cx) (s : Nat) (standby : Bool) (st : Nat) : Cx :=
  if st = 3 then c.stkEv 0x6002 1 s [s, b2n standby, if standby then 128 else 512] else c

/-- RETRAIN_DONE (R307): a link's retraining ends after `dur`; traffic returns to a primary link that trained. While a lane of
the primary is margined within its retraining, the retraining cannot end (R309). -/
def execRetrainDone (stk : Fin 20) (standby : Bool) (failed : Nat) (dur : Nat) (s : State) : R :=
  let c := s.cx
  let k := c.stk stk
  if !(if standby then k.retrainS else k.retrainP && !k.marginHolds) then s.go c
  else
    let r := trainedState standby failed
    let c1 := c.modStk stk fun k =>
      if standby then { k with retrainS := false, standby := r.1, spareStandby := r.2 }
      else { k with retrainP := false, primary := r.1, sparePrimary := r.2, onStandby := r.1 = 0 }
    let c1 := (c1.bump (stkReg stk 0x4C) 31 (homeDie stk)).stkEv 0x6001 1 stk [stk, b2n standby, k.cause, r.2, dur]
    let c1 := c1.sayDegraded stk standby r.1
    let c1 := if !standby && k.standbyWaits then c1.retrainStandby stk 2 false else c1
    s.go (Cx.linkEdge c stk c1)

/-! ### Margining (R309) -/

/-- MARGIN (R309): STK_LINK_CTRL.margin; a primary lane of an enabled complex is margined under a retraining, which goes on
until the dwell has ended and then retrains the whole link. -/
def execMargin (stk : Fin 20) (s : State) : R :=
  let c := s.cx
  if !c.ownerServes stk || (c.stk stk).marginBusy then s.go c
  else
    let under := c.enabled && !bit (c.reg (stkReg stk 0x08)).toNat 10
    let c := c.modStk stk fun k => { k with
      marginBusy := true, marginDone := false, marginErrors := 0, marginHolds := under }
    s.go (if under then c.retrainPrimary stk 3 else c)

/-- Slow-tier bytes of a populated position: positions follow one another in ascending order (log entry 18). -/
def Die.positionRange (k : Die) (p : Nat) : Nat × Nat :=
  let before := ((List.range p).filter (bit k.slowPos)).length
  (before * k.slowGib * 2 ^ 30, if bit k.slowPos p then k.slowGib * 2 ^ 30 else 0)

/-- A position holds a window image. -/
def Cx.holdsImage (c : Cx) (d : Side) (p : Nat) : Bool :=
  let r := (c.die d).positionRange p
  c.wins.any fun x => x.2.slowHome && homeDie (winStack x.1) = d
    && decide (x.2.slowIndex * slotBytes < r.1 + r.2 ∧ r.1 < (x.2.slowIndex + 1) * slotBytes)

/-- SLOW_MARGIN (R309): HUB_SLOW_MARGIN.go. -/
def execSlowMargin (die : Side) (s : State) : R :=
  let c := s.cx
  if !c.serves die || (c.die die).marginBusy then s.go c
  else if c.enabled && c.holdsImage die (bits (c.reg (hubBase die + 0x708)).toNat 11 9) then s.go c
  else s.go (c.modDie die fun k => { k with marginBusy := true, marginDone := false, marginErrors := 0 })

/-- MARGIN_DWELL_END (R309): the lane returns to its trained point with the errors counted, saturating. A primary link that
was margined under a retraining retrains now, and RETRAIN_DONE ends that; the slow-tier controller's retraining of a
margined position leaves it trained and has no end of its own to wait for (log entry 89). -/
def execMarginDwellEnd (unit : MarginUnit) (errors : Nat) (s : State) : R :=
  let e := min errors (2 ^ 24 - 1)
  match unit with
  | .stack k =>
    if (s.cx.stk k).marginBusy then
      s.go (s.cx.modStk k fun x => { x with
        marginBusy := false, marginDone := true, marginErrors := e, marginHolds := false })
    else s.go s.cx
  | .slow d =>
    if (s.cx.die d).marginBusy then
      s.go (s.cx.modDie d fun x => { x with marginBusy := false, marginDone := true, marginErrors := e })
    else s.go s.cx

/-! ### Promotion and write-back (R322, R323) -/

/-- Key of a window's slow-tier image. -/
def slowImageKey (w : Nat) (v : Win) : Nat := slowKey (homeDie (winStack w)) (v.slowIndex * slotBytes)

/-- Copy a whole slot image; what the stack cache held of the target is gone. -/
def Cx.copyImage (c : Cx) (to_ : Nat) (bs : List Byte) : Cx :=
  ({ c with dirty := c.dirty.filter fun p => !(decide (to_ ≤ p.1 ∧ p.1 < to_ + bs.length)) }).poke to_ bs

/-- PROMOTION_DONE (R322): the image is in a promotion slot and the window resident; an uncorrectable read fences the
window instead. With no free promotion slot the promotion waits. -/
def execPromotionDone (w : BitVec 19) (ok : Bool) (s : State) : R :=
  let c := s.cx
  let w := w.toNat
  match c.win? w with
  | none => s.go c
  | some v =>
    let st := winStack w
    let d := homeDie st
    if v.resident || !v.promoting || c.stackBusy st || !c.coreUp d then s.go c
    else match c.freePromo st with
      | none => s.go c
      | some slot =>
        let src := slowImageKey w v
        let off := v.slowIndex * slotBytes
        if !ok || !(c.die d).slowUp || (c.hubPoisonIn src slotBytes).isSome then
          s.go (((c.fenceWin w).modWin w fun v => { v with promoting := false }).ev 0x600D 8 2 d d.num [w, off])
        else
          let c := c.copyImage (stackKey st (c.slotOff slot)) (c.bytes src slotBytes)
          let c := (c.tagSlot st slot v.tenantTag).modWin w fun v => { v with
            stateSlot := slot, resident := true, promoting := false }
          s.go ((((c.submit (c.owner st) (.flags w)).saveEntry w).serveGathers).serveGrads)

/-- R323's conditions for a write-back. -/
def Cx.canWriteBack (c : Cx) (w : Nat) (v : Win) : Bool :=
  v.slowHome && v.resident && !v.fenced && v.st == .quiet && !v.hold && !v.specValid && v.cut.isNone
    && !(c.heldSlots (winStack w)).contains v.stateSlot && !c.stackBusy (winStack w) && c.coreUp (homeDie (winStack w))

/-- WRITE_BACK_START (R323). -/
def execWriteBackStart (w : BitVec 19) (s : State) : R :=
  let c := s.cx
  match c.win? w.toNat with
  | some v => if c.canWriteBack w.toNat v && !v.writingBack then
      s.go (c.modWin w.toNat fun v => { v with writingBack := true }) else s.go c
  | none => s.go c

/-- Poison goes with the image, granule by granule. -/
def Cx.carryPoison (c : Cx) (from_ to_ n : Nat) : Cx :=
  ((List.range (n / 64)).filter fun i => c.hubPoisonAt (from_ + 64 * i)).foldl (fun c i => c.markPoison (to_ + 64 * i)) c

/-- WRITE_BACK_DONE (R323): the image is whole in the slow tier; a write-back that a demand cancelled leaves nothing. -/
def execWriteBackDone (w : BitVec 19) (s : State) : R :=
  let c := s.cx
  let w := w.toNat
  match c.win? w with
  | none => s.go c
  | some v =>
    if !v.writingBack then s.go c
    else if !c.canWriteBack w v then s.go (c.modWin w fun v => { v with writingBack := false })
    else
      let st := winStack w
      let src := stackKey st (c.slotOff v.stateSlot)
      let dst := slowImageKey w v
      let c := (c.poke dst (c.hubBytes src slotBytes)).carryPoison src dst slotBytes
      let c := (c.retire st v.stateSlot).modWin w fun v => { v with resident := false, writingBack := false }
      s.go ((c.submit (c.owner st) (.flags w)).saveEntry w)

end Sys2Proof.Machine
end

