-- ==== Sys2Proof/Machine/Tenant.lean ====
section
/-!
DEFINITION. Tenants: key slots, staging and scrubbing of a tenant's tensors (R324 to R329).
-/
namespace Sys2Proof.Machine

/-! ### Key slots (R326) -/

/-- HUB_TENANT_SLOT[n].tenant, kept once for the mirrored pair of dies. -/
def slotReg (n : Nat) : Nat := hubBase .A + 0x840 + 4 * (n - 1)

def Cx.slotTenant (c : Cx) (n : Nat) : Nat := bits (c.reg (slotReg n)).toNat 13 0

/-- Key slot that a command names. -/
def Flight.keySlot (f : Flight) : Nat :=
  match f.op with
  | 0x24 => f.arg 40 3 1
  | 0x25 => f.arg 40 51 49
  | 0x60 => f.arg 32 26 24
  | _ => 0

/-- A command in flight uses the slot. -/
def Cx.keyInUse (c : Cx) (n : Nat) : Bool :=
  c.streams.any fun p => p.2.flights.any fun f => f.status.isNone && f.keySlot = n

/-- Words of a slot written so far, lowest first; none while one is missing. -/
def Cx.keyPending (c : Cx) (n : Nat) : Option (List W32) :=
  let ws := (List.range 16).map fun i => kget? c.keyWords (16 * n + i)
  if ws.all Option.isSome then some (ws.map fun w => w.getD 0#32) else none

def Cx.dropKeyWords (c : Cx) (n : Nat) : Cx := { c with keyWords := c.keyWords.filter fun p => p.1 / 16 != n }

/-- A key record takes effect: a half of a pair, or the erasure of both. -/
def Cx.applyKey (c : Cx) (n half : Nat) (clear : Bool) (words : List W32) : Cx :=
  if clear then { c with keys := kdel c.keys n }
  else
    let old := kget [] c.keys n
    { c with keys := kput c.keys n (if half = 0 then words ++ old.drop 8 else old.take 8 ++ words) }

/-- Send key records; outside an enabled image nothing is journalled and they take effect at once (R365). -/
def Cx.sendKey (c : Cx) (n half : Nat) (clear : Bool) (words : List W32) (cmd : Option (StreamId × W32) := none) : Cx :=
  if c.enabled then c.submit c.master (.key n half clear (c.slotTenant n) words) cmd else c.applyKey n half clear words

/-- Key slots that the image stages; all four before one is enabled. -/
def Cx.stagedSlots (c : Cx) : Nat := if c.enabled then (c.img.cfg.map (·.stagedSlots)).getD 0 else 4

/-- TENANT_KEY_WRITE (R326): a word of slot + 1 on the journal-master die. With all sixteen written the pair is loaded,
unless its halves are equal. -/
def execTenantKeyWrite (slot : Fin 4) (word : Fin 16) (v : W32) (s : State) : R :=
  let c := s.cx
  let d := c.master
  let n := slot.val + 1
  if !c.serves d then s.go c
  else if n > c.stagedSlots || c.keyInUse n then
    s.go (c.hostAccess d 0 (hubBase d + 0x740 + 0x40 * slot.val + 4 * word.val) 4 true)
  else
    let c := { c with keyWords := kput c.keyWords (16 * n + word.val) v }
    match c.keyPending n with
    | none => s.go c
    | some ws =>
      let c := c.dropKeyWords n
      if ws.take 8 = ws.drop 8 then s.go (c.ev 0x600F 11 1 d d.num [n, 0])
      else s.go ((c.sendKey n 0 false (ws.take 8)).sendKey n 1 false (ws.drop 8))

/-- TENANT_SLOT_CLEAR (R326): erases both keys. -/
def execTenantSlotClear (slot : Fin 4) (s : State) : R :=
  let c := s.cx
  let d := c.master
  let n := slot.val + 1
  if !c.serves d then s.go c
  else if c.keyInUse n then s.go (c.hostAccess d 0 (hubBase d + 0x840 + 4 * slot.val) 4 true)
  else s.go ((c.dropKeyWords n).sendKey n 0 true [])

/-! ### Binding (R325) -/

/-- A BIND record takes effect: the tensor's binding, the tenant's charge, and the windows' tenant. -/
def Cx.applyBind (c : Cx) (tensor tenant : Nat) (bound : Bool) (charge : Nat) : Cx :=
  let c := { c with binding := if bound then kput c.binding tensor tenant else kdel c.binding tensor
                    charge := kset 0 c.charge tenant (if bound then kget 0 c.charge tenant + charge
                                                      else kget 0 c.charge tenant - charge) }
  match c.tensor? tensor with
  | some t => (c.tensorWindows t).foldl (fun c w =>
      c.modWin w fun v => { v with tenantTag := if bound then tenant else 0 }) c
  | none => c

/-- The tenant's quota in windows of 6.125 MiB would be exceeded (R122, R328): 1 GiB is 1,024 MiB. -/
def Cx.overStackQuota (c : Cx) (tenant more : Nat) : Bool :=
  let q := (c.tenantRec tenant).maxGib
  q != 0 && decide (q * 8192 < (kget 0 c.charge tenant + more) * 49)

/-! ### STAGE_TENANT (R328) -/

/-- Handles of the tensor list that a STAGE_TENANT has read. -/
def Flight.stageTensors (f : Flight) : List Nat := (entries4 f.data (f.arg 32 23 0)).map fun v => bits v 23 0

/-- Windows of the listed tensors with the offset and length of their images, in list order. -/
def Cx.stageParts (c : Cx) (hs : List Nat) : List (Nat × Nat × Nat) :=
  (hs.foldl (fun (a : List (Nat × Nat × Nat) × Nat) h =>
    match c.tensor? h with
    | none => a
    | some t =>
      (a.1 ++ (List.range t.windows).map (fun i =>
        (c.windowId t i, a.2 + t.imageOff 0 i, t.imageOff 0 (i + 1) - t.imageOff 0 i)),
       a.2 + t.imageBytes 0 t.windows)) ([], 0)).1

def partsLen (ps : List (Nat × Nat × Nat)) : Nat := (ps.map fun p => p.2.2).sum

/-- Windows of a tensor that a stage charges: all when it is not already bound to the tenant. -/
def Cx.stageCharge (c : Cx) (tenant h : Nat) : Nat :=
  if kget? c.binding h = some tenant then 0 else ((c.tensor? h).map Tensor.windows).getD 0

/-- The command refuses one of its tensors: bound to another tenant than it names, or than its stream's (R325, R328). -/
def Cx.stageForeign (c : Cx) (st : StreamId) (tenant h : Nat) : Bool :=
  c.boundAway st h || (match kget? c.binding h with | some t => t != tenant | none => false)

def bodyStage : Body := fun st f c =>
  let tenant := f.arg 16 13 0
  let list := f.arg 24 63 0
  let key := f.arg 32 26 24
  let src := f.arg 40 63 0
  let step : Step := BitVec.ofNat 48 (f.arg 48 47 0)
  if f.phase = 2 then
    if !f.settled then (c, .wait .peerCommit)
    else if c.noMaster st then retryLater c
    else
      let hs := f.stageTensors
      let c := hs.foldl (fun c h =>
        c.submit c.master (.bind h tenant true (c.stageCharge tenant h)) (some (st, f.number))) c
      okOpen (c.modFlight st f.number fun g => { g with owed := g.owed + hs.length }) 0x60
  else if (bits src 63 60 != 2 && bits src 63 60 != 4) || c.badKey key then (c, .halt haltDecode)
  else match c.listOperand st f 2 list (4 * f.arg 32 23 0) with
    | .inl r => r
    | .inr l =>
      let g := { f with data := l }
      let hs := g.stageTensors
      let ps := c.stageParts hs
      let ws := ps.map (·.1)
      if hs.any (fun h => (c.tensor? h).isNone) || repeated hs || c.overPool ws then (c, .halt haltDecode)
      else match c.badOperand? st f .read 4 src (partsLen ps) with
        | some r => r
        | none =>
          if c.overStackQuota tenant (hs.map (c.stageCharge tenant)).sum then
            (c.sayQuota st f.number 1, .done stQuota 1)
          else match hs.find? (c.stageForeign st tenant), ws.find? fun w => (c.win? w).any (·.fenced) with
            | some h, _ => refuseFenced c h
            | none, some w => refuseFenced c w
            | none, none =>
              if c.anyBusy ws || c.cutOff st ws then retryLater c
              else
                importCore st g ((c.arm step).modFlight st f.number fun x => { x with data := l }) ps src key step false
                  id tenant

/-- STAGE_TENANT (R328). -/
def execStageTenant (st : StreamId) (s : State) : R := s.go (s.cx.runStream 0x60 bodyStage st)

/-! ### SCRUB_TENANT (R329) -/

/-- Tensors bound to a tenant, and their windows. -/
def Cx.boundTensors (c : Cx) (tenant : Nat) : List Tensor :=
  (c.binding.filter fun p => p.2 = tenant).filterMap fun p => c.tensor? p.1

def Cx.boundWindows (c : Cx) (tenant : Nat) : List Nat := (c.boundTensors tenant).flatMap c.tensorWindows

/-- Zero to a range for every reader: the stack cache keeps nothing of it. -/
def Cx.scrubRange (c : Cx) (key n : Nat) : Cx :=
  ({ c with dirty := c.dirty.filter fun p => !(decide (key ≤ p.1 ∧ p.1 < key + n)) }).zero key n

/-- A window's live state slot, gradient slot and stash slots, and its accumulation entries. -/
def Cx.scrubWin (c : Cx) (w : Nat) : Cx :=
  match c.win? w with
  | none => c
  | some v =>
    let s := winStack w
    let c := c.scrubRange (if v.resident then stackKey s (c.slotOff v.stateSlot) else slowImageKey w v) slotBytes
    let c := c.scrubRange (stackKey s (c.gOff v.gSlot)) (16 * rowBytes)
    let c := (v.stash.filter (· != noStash)).foldl (fun c n => c.scrubRange (stackKey s (c.stashOff v.region n)) (16 * rowBytes)) c
    c.dropAcc w fun _ => true

/-- Pool slots of a stack whose tag names the tenant: the slots that hold no window's live state. -/
def Cx.taggedPool (c : Cx) (s tenant : Nat) : List Nat :=
  (List.range c.slotCount).filter fun n => kget 0 (c.stk s).tags n = tenant && !(c.liveSlots s).contains n

/-- Statistics sections of a tensor in every stack. -/
def Cx.scrubStats (c : Cx) (t : Tensor) : Cx :=
  match c.img.cfg with
  | none => c
  | some g => if !t.factored then c else g.geo.active.foldl (fun c s =>
      c.scrubRange (stackKey s (g.section_ t s)) (t.statBytes (g.windowsIn t s).length)) c

/-- A window's commit without a step, in place (R246, R329). -/
def Cx.scrubCommit (c : Cx) (w : Nat) : Cx :=
  (((c.bumpLedger w 0x600).modWin w fun v => { v with
    committed := v.committed + 1#32, stash := [], stashSteps := [], copies := [], step := none
    digest := List.replicate 16 0#8, eccSeen := false, commitSent := false, commitHeld := false }).unfenceWin w).saveEntry w

/-- A scrub fences its windows, zeroes what the tenant left, and waits for the journal to hold every commit. -/
def bodyScrub : Body := fun st f c =>
  let tenant := f.arg 16 13 0
  let ts := c.boundTensors tenant
  let ws := f.wins.map (·.1)
  if f.phase = 2 then
    if !(ws.all fun w => (c.win? w).all fun v => v.commitHeld) then (c, .wait .peerCommit)
    else if c.noMaster st then retryLater c
    else
      let c := ws.foldl Cx.scrubCommit c
      let slots := (List.range 4).map (· + 1) |>.filter fun n => c.slotTenant n = tenant && (kget? c.keys n).isSome
      let c := slots.foldl (fun c n => c.sendKey n 0 true [] (some (st, f.number))) c
      let c := ts.foldl (fun c t => c.submit c.master (.bind t.handle tenant false t.windows) (some (st, f.number))) c
      let c := c.modFlight st f.number fun g => { g with owed := g.owed + slots.length + ts.length }
      okOpen (c.ev 0x600E 6 0 (c.dieOf st) (c.dieOf st).num [tenant, ws.length, f.worst] none (some tenant)) 0x61
  else
    let ws := c.boundWindows tenant
    if c.anyBusy ws || c.cutOff st ws then retryLater c
    else
      let committing (w : Nat) : Bool := match ((c.win? w).map fun v => v.st).getD .quiet with | .committing _ => true | _ => false
      let c := (ws.filter fun w => !committing w && !(c.win? w).any (·.fenced)).foldl Cx.fenceWin c
      if ws.any committing then (c, .wait .other)
      else
        let c := ws.foldl Cx.scrubWin c
        let pool := (List.range 20).flatMap fun s => (c.taggedPool s tenant).map fun n => (s, n)
        let pool := pool.filter fun p => c.active p.1
        let c := pool.foldl (fun c p => c.scrubRange (stackKey p.1 (c.slotOff p.2)) slotBytes) c
        let c := ts.foldl Cx.scrubStats c
        let c := ws.foldl (fun c w => (c.modWin w fun v => { v with commitSent := true, commitHeld := false }).submit
          (c.owner (winStack w)) (.commit w)) c
        (c.modFlight st f.number fun g => { g with phase := 2, wins := ws.map fun w => (w, WinOut.todo), worst := pool.length },
         .wait .peerCommit)

/-- SCRUB_TENANT (R329). -/
def execScrubTenant (st : StreamId) (s : State) : R := s.go (s.cx.runStream 0x61 bodyScrub st)

end Sys2Proof.Machine
end

