-- ==== Sys2Proof/Machine/ImageRun.lean ====
section
/-!
DEFINITION. The initialisation of an enabled image and its disable (R119, R128, R129, R345, R346).
-/
namespace Sys2Proof.Machine

/-! ### Initialisation (R128) -/

/-- Zero to rows of a stack before the image is in force: no parity yet, and nothing of them stays in the stack cache. -/
def Cx.zeroRows (c : Cx) (s row n : Nat) : Cx :=
  let k := stackKey s (row * rowBytes)
  { c.clearRange k (n * rowBytes) with dirty := c.dirty.filter fun p => !(decide (k ≤ p.1 ∧ p.1 < k + n * rowBytes)) }

/-- The areas that initialisation zeroes in a stack, the statistics store among them (R128, R229). -/
def Img.zeroAreas (g : Img) : List (Nat × Nat) :=
  (g.stashEnd, g.statRows) ::
  [(g.lay.stateBase, (g.lay.live + g.lay.pool) * 33), (g.lay.gradBase, g.lay.live * 16), (g.lay.promoBase, g.lay.promo * 33)]
    ++ g.stash.map fun r => (r.firstRow, 16 * r.slots)

def Cx.initStack (c : Cx) (g : Img) (s : Nat) : Cx :=
  (g.zeroAreas.foldl (fun c a => c.zeroRows s a.1 a.2) c).modStk s fun k => { k with
    releasing := [], tags := [], stashTags := [], promoUsed := [], deltas := [], log := [], logFull := false
    grants := [], grantQueue := [], admission := {}, engine := { rules := g.ruleSlots } }

/-- Tensor and window number of a window id. -/
def Img.windowOf (g : Img) (w : Nat) : Option (Tensor × Nat) :=
  g.tensors.findSome? fun t => ((List.range t.windows).find? fun k => g.windowId t k = w).map fun k => (t, k)

/-- The window map entry that a record makes (R119). -/
def Img.initWin (g : Img) (m : MapRec) : Option Win :=
  (g.windowOf m.window).map fun x =>
    { tensor := x.1.handle, region := x.1.region, k := x.2, valid := x.1.valid x.2, stateSlot := m.stateSlot
      gSlot := m.gSlot, resident := m.resident, slowHome := !m.resident
      slowIndex := if m.resident then 0 else m.stateSlot
      tails := (g.regions.find? fun r => r.id = x.1.region).any (·.tails) }

/-- A frozen tensor's window: the freeze bit of every block header, in the stack or in the slow-tier image. -/
def Cx.freezeWin (c : Cx) (g : Img) (w : Nat) (v : Win) : Cx :=
  if (g.tensors.find? fun t => t.handle = v.tensor).any (·.frozen) then
    let key := (if v.resident then stackKey (winStack w) ((g.lay.stateBase + v.stateSlot * 33) * rowBytes)
      else slowKey (homeDie (winStack w)) (v.slowIndex * (33 * rowBytes))) + offH
    (List.range 16384).foldl (fun c b => c.putByte (key + 8 * b + 2) 1#8) c
  else c

/-- A window that rests in the slow tier starts with an image of zeros there (log entry 36). -/
def Cx.initSlow (c : Cx) (w : Nat) (v : Win) : Cx :=
  if v.resident then c
  else
    let k := slowKey (homeDie (winStack w)) (v.slowIndex * (33 * rowBytes))
    (fullUnits k (33 * rowBytes)).foldl Cx.clearPoison (c.clearRange k (33 * rowBytes))

def Cx.initWindow (c : Cx) (g : Img) (m : MapRec) : Cx :=
  match g.initWin m with
  | none => c
  | some v =>
    let c := ((c.initSlow m.window v).freezeWin g m.window v)
    { c with wins := kput c.wins m.window v }

/-- Parity rows brought into agreement with the rows they cover (R318, log entry 35). -/
def Cx.initParity (c : Cx) (g : Img) : Cx :=
  if g.geo.parity != 1 then c
  else
    let l := g.lay
    (List.range 20).foldl (fun c s => (List.range l.parityRows).foldl (fun c i => (List.range 32).foldl (fun c k =>
      let row := l.parityBase + i
      let others := (l.members (l.stripe s row)).filter fun m => m != (s, row)
      c.restore (granuleKey s row k)
        (others.foldl (fun b m => xorBytes b (c.bytes (granuleKey m.1 m.2 k) 4096)) (List.replicate 4096 0#8))) c) c) c

/-- A port at enable: a cold reset when the fabric record enables it, DOWN otherwise, reported when it was not DOWN already
(R345, log entry 32). -/
def Cx.enablePort (g : Img) (c : Cx) (p : Nat) : Cx :=
  let r := g.fabric.ports.getD p 0
  if bit r 0 then
    (c.startReset p 5).modFp p fun q => { q.cold [0, 0, 0, 0] with
      bootstrap := false, role := b2n (bit r 1), wasUp := false, queue := [] }
  else
    let d := c.modFp p fun q => { q.cold [0, 0, 0, 0] with st := .down, queue := [], wasUp := false, resetting := 0 }
    if (c.fp p).st != .down then d.ev 0x7002 7 1 (portDie p) p [p, 1] else d

/-- The fabric node at enable: nothing assigned yet; a node with a role takes part in the election (R347). -/
def Cx.enableFabric (c : Cx) (g : Img) : Cx :=
  let c := (List.range 12).foldl (Cx.enablePort g) c
  let c := { c with fab := { uid := c.fab.uid, st := if g.fabric.role = 0 then 0 else 1 } }
  { c with fab := { c.fab with best := if g.fabric.role = 0 then none else c.offer } }

/-- The machinery that starts afresh with an image: streams, queues, sync objects, the journal, the NaN trap, newts. -/
def Cx.initUnits (c : Cx) (g : Img) : Cx :=
  { c with
    wins := [], verdicts := [], abandoned := [], binding := [], charge := [], quotaSaid := [], streams := [], syncs := [], queues := []
    turns := []
    holds := [], acc := [], arrivals := 0, seqs := [], gradHeld := [], gatherHeld := [], finals := [], journal := {}
    attCtx := [], newts := g.channels.foldl (fun m n => kput m n { store := g.tadStore n, retired := (c.newt n).retired }) []
    arb := { c.arb with armed := none, record := none }
    dieA := { c.dieA with norm := {} }, dieB := { c.dieB with norm := {} }
    portA := { c.portA with doorbells := [] }, portB := { c.portB with doorbells := [] }
    master := g.geo.master }

/-- Minor of the host command set in force (R135). -/
def Cx.hostMinor (c : Cx) (g : Img) : Nat := min (bits c.hostClaim 7 0) (min (silicon 3).2 (g.limits 3).2)

/-- IMAGE_INIT_DONE (R128): every active stack is initialised and the state is ENABLED. -/
def execImageInitDone (s : State) : R :=
  let c := s.cx
  match c.img.checked with
  | none => s.go c
  | some g =>
    if c.img.st != .checking then s.go c
    else if !c.coreUp .A || !c.coreUp .B then s.go (c.refuseImage false (0x0103, 1, 10))
    else
      let c := c.initUnits g
      let c := g.geo.active.foldl (fun c k => c.initStack g k) c
      let c := g.wmap.foldl (fun c m => c.initWindow g m) c
      let c := c.initParity g
      let minor := c.hostMinor g
      let c := c.setImg fun m => { m with st := .enabled, cfg := some g, checked := none, part := .none
                                          agreed := true, agreedMinor := minor }
      let c := g.wmap.foldl (fun c m => c.saveEntry m.window) c
      s.go ((c.enableFabric g).ev 0x2001 11 0 c.master c.master.num [g.id.toNat])

/-! ### Disable (R129, R346) -/

/-- Speculative versions whose step has no verdict yet. -/
def Cx.openSpecs (c : Cx) : List Nat :=
  (c.wins.filter fun p => match p.2.st with
    | .specRun _ | .specReady _ => p.2.verdict.isNone
    | _ => false).map (·.1)

/-- Commands that wait without a bound end `RETRY_LATER`. -/
def Cx.endWaits (c : Cx) : Cx :=
  c.streams.foldl (fun c p =>
    (p.2.flights.filter fun f => f.status.isNone && !c.bounded (BitVec.ofNat 12 p.1) f).foldl (fun c f =>
      Cx.settle (retryLater c) (BitVec.ofNat 12 p.1) f.number) c) c

/-- IMAGE_DISABLE (R129): enable is written 0. Commands not started are discarded, UP ports announce their departure, and
the state is EMPTY once the started commands have completed and the ports are down. -/
def execImageDisable (d : Side) (s : State) : R :=
  let c := s.cx
  if !c.serves d || !c.enabled || !c.img.enableBit then s.go c
  else
    let c := c.setImg fun m => { m with enableBit := false }
    let c := c.submit c.master (.image 0)
    let c := { c with streams := c.streams.map fun p : Nat × Stream => (p.1, { p.2 with
      cache := [], waiting := [], fetching := false, routing := none }) }
    let c := c.endWaits
    let c := c.openSpecs.foldl (fun (c : Cx) w => (c.discardSpec w).modWin w fun v =>
      { v with st := .quiet, hold := false, verdict := none }) c
    let c := (List.range 12).foldl (fun (c : Cx) p => c.modFp p fun q =>
      if q.st == .up then { q with departing := true } else { q with st := .down, resetting := 0, bootstrap := true }) c
    s.go c.endDisable

end Sys2Proof.Machine
end

