-- ==== Sys2Proof/Machine/Discovery.lean ====
section
/-!
DEFINITION. Discovery of the fabric (R347 to R349, R352): root election, collection, node ids, routing tables.
-/
namespace Sys2Proof.Machine

/-- Event of the node as a whole: class 7, index 12 (no port). -/
def Cx.nodeEv (c : Cx) (code sev : Nat) (fields : List Nat) : Cx := c.ev code 7 sev c.master 12 fields

def Cx.setFab (c : Cx) (f : Fabric → Fabric) : Cx := { c with fab := f c.fab }

/-- Lexicographic order of election keys: a lower key wins (R347). -/
def keyLt (a b : Nat × Nat) : Bool := decide (a.1 < b.1) || (a.1 = b.1 && decide (a.2 < b.2))

/-! ### Election (R347) -/

/-- Adopt what an ELECT on port p offers: a better key, the same key at a shorter distance, or the same key and distance
at a lower port. -/
def Cx.betterElect (c : Cx) (p : Nat) (k : Nat × Nat) (dist : Nat) : Bool :=
  match c.fab.best with
  | none => true
  | some b => keyLt k b || (k = b && (decide (dist + 1 < c.fab.dist) || (dist + 1 = c.fab.dist && decide (p < c.fab.parent))))

/-- ELECT (R347): fields key (two numbers) and distance. -/
def execElect (p : Fin 13) (m : Msg) (s : State) : R :=
  s.go (s.cx.onMsg p m 0x20 fun c =>
    let k := (m.fields.getD 0 0, m.fields.getD 1 0)
    let dist := m.fields.getD 2 0
    if c.fab.st = 0 || !c.betterElect p k dist then c
    else (c.setFab fun f => { f with best := some k, dist := dist + 1, parent := p, st := 1, root := false
                                     changed := true }).sendElectAll)

/-- ELECTION_SETTLE (R347): 200 µs without a change: the node whose own key is best is root; every other node follows. -/
def execElectionSettle (s : State) : R :=
  let c := s.cx
  match c.fab.best with
  | none => s.go c
  | some k =>
    if c.fab.st != 1 then s.go c
    else
      let own : Bool := c.offer = some k
      let c := c.setFab fun f => { f with
        st := 2, root := own, rootUid := BitVec.ofNat 64 k.2, changed := false, topos := []
        dist := if own then 0 else f.dist, parent := if own then 0 else f.parent }
      let c := c.nodeEv 0x7005 0 [k.2, c.fab.dist, c.fab.parent]
      let want := (c.img.cfg.map fun g => g.fabric.rootUid.toNat).getD 0
      s.go (if want != 0 && want != k.2 then c.nodeEv 0x7006 1 [want, k.2] else c)

/-- HEARTBEAT_TIMEOUT (R349): 10 ms without a HEARTBEAT start a new election; id and tables stay. -/
def execHeartbeatTimeout (s : State) : R :=
  let c := s.cx
  if c.fab.st = 0 || c.fab.root then s.go c
  else
    s.go ((c.setFab fun f => { f with st := 1, best := c.offer, dist := 0, parent := 0, rootUid := 0#64 }).sendElectAll)

/-! ### Heartbeats and topology reports (R348) -/

/-- UP ports of this node, each with its index, partner uid, partner port, role, width and speed. -/
def Cx.ownTopo (c : Cx) : TopoRec where
  uid := c.fab.uid.toNat
  node := c.fab.id.map BitVec.toNat
  ports := c.upPorts.map fun p =>
    let q := c.fp p
    [p, q.partnerUid.toNat, q.partnerPort, q.role, b2n q.width4, b2n q.speed56]

/-- A TOPO message: uid, id valid, id, then six numbers for each UP port. -/
def TopoRec.fields (t : TopoRec) : List Nat := [t.uid, b2n t.node.isSome, t.node.getD 0] ++ t.ports.flatten

def readTopo (l : List Nat) : TopoRec where
  uid := l.getD 0 0
  node := if l.getD 1 0 = 0 then none else some (l.getD 2 0)
  ports := (List.range ((l.length - 3) / 6)).map fun i => ((l.drop 3).drop (6 * i)).take 6

/-- Send a discovery message on a port. -/
def Cx.sendDisc (c : Cx) (p op : Nat) (fields : List Nat) (data : List Byte := []) : Cx :=
  c.portSend p (c.localMsg op 1 0#64 0#64 data fields)

/-- HEARTBEAT_TIMER (R348): the root sends HEARTBEAT down the tree. -/
def execHeartbeatTimer (s : State) : R :=
  let c := s.cx
  if c.fab.root then s.go (c.upPorts.foldl (fun c p => c.sendDisc p 0x25 [c.fab.rootUid.toNat]) c) else s.go c

/-- HEARTBEAT (R348): from the parent port it goes on down the tree and is answered with TOPO. -/
def execHeartbeat (p : Fin 13) (m : Msg) (s : State) : R :=
  s.go (s.cx.onMsg p m 0x25 fun c =>
    if c.fab.st = 0 || c.fab.root || p.val != c.fab.parent then c
    else
      let c := (c.upPorts.filter (· != p.val)).foldl (fun c q => c.sendDisc q 0x25 m.fields) c
      c.sendDisc c.fab.parent 0x21 c.ownTopo.fields)

def putTopo (l : List TopoRec) (t : TopoRec) : List TopoRec := (l.filter fun x => x.uid != t.uid) ++ [t]

/-- TOPO (R348): collected at the root, else forwarded to the parent; the child port it came from is kept. -/
def execTopo (p : Fin 13) (m : Msg) (s : State) : R :=
  s.go (s.cx.onMsg p m 0x21 fun c =>
    let t := readTopo m.fields
    if c.fab.st = 0 then c
    else
      let c := c.setFab fun f => { f with via := kput f.via t.uid p.val }
      if c.fab.root then
        if c.fab.st = 2 then c.setFab fun f => { f with topos := putTopo f.topos t } else c
      else c.sendDisc c.fab.parent 0x21 m.fields)

/-- LINK_CHANGE (R349): forwarded to the root, which collects again. -/
def execLinkChange (p : Fin 13) (m : Msg) (s : State) : R :=
  s.go (s.cx.onMsg p m 0x26 fun c =>
    if c.fab.st = 0 then c
    else if c.fab.root then c.setFab fun f => { f with st := 2, topos := [] }
    else c.sendDisc c.fab.parent 0x26 m.fields)

/-! ### Node ids (R348) -/

/-- A link between two reported nodes: uid and port at each end, and whether both ports have role data or both stage. -/
structure Edge where
  a : Nat
  pa : Nat
  b : Nat
  data : Bool
  stage : Bool
  deriving DecidableEq, Repr

/-- Links as both ends report them. -/
def edgesOf (ts : List TopoRec) : List Edge :=
  ts.flatMap fun t => t.ports.filterMap fun x =>
    let pu := x.getD 1 0
    let pp := x.getD 2 0
    (ts.find? fun u => u.uid = pu).bind fun u => (u.ports.find? fun y => y.getD 0 0 = pp && y.getD 1 0 = t.uid).map fun y =>
      { a := t.uid, pa := x.getD 0 0, b := pu, data := x.getD 3 0 = 0 && y.getD 3 0 = 0
        stage := x.getD 3 0 = 1 && y.getD 3 0 = 1 }

/-- Nodes reachable from a set over some links, in n rounds. -/
def reach (es : List Edge) : Nat → List Nat → List Nat
  | 0, l => l
  | n + 1, l => reach es n (es.foldl (fun l e => if l.contains e.a then nput l e.b else l) l)

/-- Ids already held; of two nodes with one id the lower uid keeps it. -/
def heldIds (ts : List TopoRec) : List (Nat × Nat) :=
  ts.filterMap fun t => t.node.bind fun i =>
    if ts.any fun u => u.node = some i && decide (u.uid < t.uid) then none else some (t.uid, i)

/-- An id for a new node: the lowest group of its data component with a free member, else member 0 of the lowest unused
group. -/
def newId (es : List Edge) (n : Nat) (held : List (Nat × Nat)) (uid : Nat) : Option Nat :=
  let comp := reach (es.filter (·.data)) n [uid]
  let groups := (held.filter fun p => comp.contains p.1).map fun p => p.2 / 256
  let free (g : Nat) : Option Nat := (firstBelow 256 fun m => !(held.any fun p => p.2 = g * 256 + m)).map (g * 256 + ·)
  match firstBelow 512 fun g => groups.contains g && (free g).isSome with
  | some g => free g
  | none => (firstBelow 512 fun g => !(held.any fun p => p.2 / 256 = g)).map (· * 256)

/-- Insert in ascending order. -/
def insertAsc (l : List Nat) (x : Nat) : List Nat := (l.takeWhile (· < x)) ++ [x] ++ l.dropWhile (· < x)

/-- Every node's id after collection, by uid. -/
def assignIds (ts : List TopoRec) : List (Nat × Nat) :=
  let es := edgesOf ts
  let held := heldIds ts
  let fresh := ((ts.filter fun t => !(held.any fun p => p.1 = t.uid)).map (·.uid)).foldl insertAsc []
  fresh.foldl (fun h u => match newId es ts.length h u with
    | some i => h ++ [(u, i)]
    | none => h) held

/-! ### Routes (R352) -/

/-- Breadth-first levels from the root. -/
def levels (es : List Edge) (n root : Nat) : List (Nat × Nat) :=
  (List.range n).foldl (fun l d => es.foldl (fun l e =>
    if kget? l e.a = some d && (kget? l e.b).isNone then kput l e.b (d + 1) else l) l) [(root, 0)]

/-- Does a link lead up: toward a lower level, or at one level toward the lower uid? -/
def Edge.up (lv : List (Nat × Nat)) (e : Edge) : Bool :=
  let la := kget 0 lv e.a
  let lb := kget 0 lv e.b
  decide (lb < la) || (la = lb && decide (e.b < e.a))

/-- Shorter of a known distance and a new one. -/
def closer (l : List (Nat × Nat)) (k d : Nat) : List (Nat × Nat) :=
  match kget? l k with
  | some x => if d < x then kput l k d else l
  | none => kput l k d

/-- Lengths of the shortest routes that only go down to one of the destinations. -/
def downDist (es : List Edge) (lv : List (Nat × Nat)) (n : Nat) (dests : List Nat) : List (Nat × Nat) :=
  (List.range n).foldl (fun l _ => es.foldl (fun l e =>
    if e.up lv then l else match kget? l e.b with
      | some d => closer l e.a (d + 1)
      | none => l) l) (dests.foldl (fun l u => kput l u 0) [])

/-- Lengths of the shortest up*/down* routes. -/
def upDist (es : List Edge) (lv : List (Nat × Nat)) (n : Nat) (down : List (Nat × Nat)) : List (Nat × Nat) :=
  (List.range n).foldl (fun l _ => es.foldl (fun l e =>
    if !e.up lv then l else match kget? l e.b with
      | some d => closer l e.a (d + 1)
      | none => l) l) down

/-- Ports of a node that begin a shortest up*/down* route to a destination, lowest first, at most four. -/
def nextHops (es : List Edge) (lv : List (Nat × Nat)) (n uid : Nat) (dests : List Nat) : List Nat :=
  let down := downDist es lv n dests
  let all := upDist es lv n down
  match kget? all uid with
  | none => []
  | some d =>
    let ok (e : Edge) : Bool := e.a = uid && (kget? (if e.up lv then all else down) e.b).map (· + 1) = some d
    (((es.filter ok).map (·.pa)).foldl insertAsc []).take 4

/-- Ports and count of one set of an entry (Table 13.7). -/
def setBitsOf (ps : List Nat) : Nat :=
  if ps.isEmpty then 0xFFFF
  else ((List.range 4).map fun i => (ps.getD i 0xF) * 16 ^ i).sum + (ps.length - 1) * 2 ^ 16 + 2 ^ 18

/-- A routing table entry: set S prefers stage links, set D data links (R352). -/
def routeEntry (es : List Edge) (lv : List (Nat × Nat)) (n uid : Nat) (dests : List Nat) : W64 :=
  let pick (sel : Edge → Bool) : List Nat :=
    let a := nextHops (es.filter sel) lv n uid dests
    if a.isEmpty then nextHops es lv n uid dests else a
  BitVec.ofNat 64 (setBitsOf (pick (·.stage)) + setBitsOf (pick (·.data)) * 2 ^ 32)

/-- Group and member tables of a node: entries of the nodes that hold ids. -/
def tablesFor (ts : List TopoRec) (ids : List (Nat × Nat)) (root uid : Nat) : List (Nat × W64) × List (Nat × W64) :=
  let es := edgesOf ts
  let n := ts.length
  let lv := levels es n root
  match kget? ids uid with
  | none => ([], [])
  | some own =>
    let groups := (ids.map fun p => p.2 / 256).foldl nput []
    let g := (groups.filter (· != own / 256)).map fun k =>
      (k, routeEntry es lv n uid ((ids.filter fun p => p.2 / 256 = k).map (·.1)))
    let m := (ids.filter fun p => p.2 / 256 = own / 256 && p.1 != uid).map fun p => (p.2 % 256, routeEntry es lv n uid [p.1])
    (g, m)

/-! ### Installing tables (R349) -/

/-- Install an id and both tables: `FAB_TABLES_INSTALLED`, and what the id means for the node. -/
def Cx.installTables (c : Cx) (t : NewTables) : Cx :=
  let old := c.fab.id
  let c := c.setFab fun f => { f with id := t.id, group := t.group, member := t.member, epoch := t.epoch, newTables := none
                                      st := 4 }
  let c := match old, t.id with
    | some a, some b => if a = b then c else c.nodeEv 0x7009 3 [a.toNat, b.toNat]
    | _, none => c.nodeEv 0x7008 2 [c.fab.uid.toNat]
    | none, some _ => c
  c.nodeEv 0x7007 0 [t.epoch.toNat, c.node.toNat, t.nodes]

/-- Entries as the bytes of a TABLE message, 8 each. -/
def tableBytes (size : Nat) (l : List (Nat × W64)) : List Byte :=
  (List.range size).flatMap fun i => leBytes 8 (kget 0#64 l i).toNat

/-- The valid entries that such bytes hold. -/
def routeEntries (size : Nat) (bs : List Byte) : List (Nat × W64) :=
  (List.range size).filterMap fun i =>
    let v := leNat ((bs.drop (8 * i)).take 8)
    if v = 0 then none else some (i, BitVec.ofNat 64 v)

/-- Send a node its id and tables, through the child port of its TOPO. -/
def Cx.sendTables (c : Cx) (epoch : Nat) (ids : List (Nat × Nat)) (t : TopoRec) : Cx :=
  match kget? c.fab.via t.uid with
  | none => c
  | some p =>
    let tb := tablesFor c.fab.topos ids c.fab.uid.toNat t.uid
    let id := kget? ids t.uid
    let c := c.sendDisc p 0x22 [t.uid, epoch, b2n id.isSome, id.getD 0, ids.length]
    let c := c.sendDisc p 0x23 [t.uid, epoch, 0] (tableBytes 512 tb.1)
    c.sendDisc p 0x23 [t.uid, epoch, 1] (tableBytes 256 tb.2)

/-- COLLECTION_CLOSE (R348): every partner named has reported, or 500 ms have passed: the root assigns ids and sends
tables. -/
def execCollectionClose (s : State) : R :=
  let c := s.cx
  if !c.fab.root || c.fab.st != 2 then s.go c
  else
    let c := c.setFab fun f => { f with topos := putTopo f.topos c.ownTopo }
    let ids := assignIds c.fab.topos
    let epoch := c.fab.nextEpoch + 1#32
    let own := c.fab.uid.toNat
    let others := c.fab.topos.filter fun t => t.uid != own
    let tb := tablesFor c.fab.topos ids own own
    let c := others.foldl (fun c t => c.sendTables epoch.toNat ids t) c
    let c := c.installTables { epoch := epoch, id := (kget? ids own).map (BitVec.ofNat 17), nodes := ids.length
                               group := tb.1, member := tb.2 }
    s.go (c.setFab fun f => { f with nextEpoch := epoch, assigned := ids, acks := others.map (·.uid)
                                     st := if others.isEmpty then 4 else 3 })

/-- A message of the root for a node: handled there, or passed to the child port of the addressee. -/
def Cx.rootMsg (c : Cx) (m : Msg) (f : Cx → Cx) : Cx :=
  let uid := m.fields.getD 0 0
  if uid = c.fab.uid.toNat then f c
  else match kget? c.fab.via uid with
    | some p => c.sendDisc p m.op.toNat m.fields m.data
    | none => c

/-- Tables of an epoch that are arriving. -/
def Cx.newTablesFor (c : Cx) (epoch : W32) : NewTables :=
  match c.fab.newTables with
  | some t => if t.epoch = epoch then t else { epoch := epoch }
  | none => { epoch := epoch }

/-- With the id and both tables there, they are installed together and acknowledged. -/
def Cx.tryInstall (c : Cx) (t : NewTables) : Cx :=
  if t.assigned && t.parts.contains 0 && t.parts.contains 1 then
    let c := c.installTables t
    c.sendDisc c.fab.parent 0x24 [c.fab.uid.toNat, t.epoch.toNat]
  else c.setFab fun f => { f with newTables := some t }

/-- ASSIGN (R349): fields uid, epoch, id valid, id, nodes assigned. -/
def execAssign (p : Fin 13) (m : Msg) (s : State) : R :=
  s.go (s.cx.onMsg p m 0x22 fun c => if c.fab.st = 0 then c else c.rootMsg m fun c =>
    c.tryInstall { c.newTablesFor (BitVec.ofNat 32 (m.fields.getD 1 0)) with
      assigned := true, nodes := m.fields.getD 4 0
      id := if m.fields.getD 2 0 = 0 then none else some (BitVec.ofNat 17 (m.fields.getD 3 0)) })

/-- TABLE (R349): fields uid, epoch, and which table; the entries as bytes. -/
def execTable (p : Fin 13) (m : Msg) (s : State) : R :=
  s.go (s.cx.onMsg p m 0x23 fun c => if c.fab.st = 0 then c else c.rootMsg m fun c =>
    let t := c.newTablesFor (BitVec.ofNat 32 (m.fields.getD 1 0))
    if m.fields.getD 2 0 = 0 then c.tryInstall { t with parts := nput t.parts 0, group := routeEntries 512 m.data }
    else c.tryInstall { t with parts := nput t.parts 1, member := routeEntries 256 m.data })

/-- TABLE_ACK (R349): at the root; with the last one the fabric is routed. -/
def execTableAck (p : Fin 13) (m : Msg) (s : State) : R :=
  s.go (s.cx.onMsg p m 0x24 fun c =>
    if c.fab.st = 0 then c
    else if !c.fab.root then c.sendDisc c.fab.parent 0x24 m.fields
    else if c.fab.st != 3 || m.fields.getD 1 0 != c.fab.nextEpoch.toNat then c
    else
      let acks := c.fab.acks.filter (· != m.fields.getD 0 0)
      c.setFab fun f => { f with acks := acks, st := if acks.isEmpty then 4 else 3 })

end Sys2Proof.Machine
end

