-- ==== Sys2Proof/Machine/ImagePush.lean ====
section
/-!
DEFINITION. Image pushes between neighbours (R126, R359) and UCIe modules (R133).
-/
namespace Sys2Proof.Machine

/-! ### The sender (R359) -/

def pushLen (c : Cx) (p : Nat) : Nat := (c.reg (fabOff p 0x88)).toNat
def pushAddr (c : Cx) (p : Nat) : Nat := (c.reg (fabOff p 0x80)).toNat + (c.reg (fabOff p 0x84)).toNat * 2 ^ 32

/-- A push ends: its state, its status and `FAB_PUSH_DONE`. -/
def Cx.endPush (c : Cx) (p sent status : Nat) : Cx :=
  (c.modFp p fun q => { q with pushing := none, pushState := if status = stOk then 2 else 3, pushStatus := status }).ev
    0x700B 7 0 (portDie p) p [p, sent, status]

/-- Send the message that begins at offset `off`: its data, its offset as address, the total as arg. -/
def Cx.pushNext (c : Cx) (p off len : Nat) : Cx :=
  let data := c.readAt (pushAddr c p + off) (min 4096 (len - off))
  (c.modFp p fun q => { q with pushing := some (off, len), pushState := 1 }).portSend p
    (c.localMsg 0x28 0 (BitVec.ofNat 64 off) (BitVec.ofNat 64 len) data [])

/-- FAB_PUSH_GO (R359): on an UP port; a second go while a push runs does nothing (R10). An address that fails R64 or a poisoned source ends the push `POISONED`. -/
def execFabPushGo (p : Fin 12) (s : State) : R :=
  let c := s.cx
  let a := pushAddr c p
  let n := pushLen c p
  if (c.fp p).pushing.isSome then s.go c
  else if (c.fp p).st != .up then s.go (c.hostAccess (portDie p) 0 (fabOff p 0x8C) 4 true)
  else if !([0, 2, 3, 4].contains (bits a 63 60)) || (c.checkRange .read a n).isSome || (c.away? (portDie p) a).isSome
      || (c.poisonIn a n).isSome
    then s.go (c.endPush p 0 stPoison)
  else if n = 0 then s.go (c.endPush p 0 stOk)
  else s.go (c.pushNext p 0 n)

/-- IMAGE_PUSH_ACK (R359): the first status other than `OK` ends the push. Field: status. -/
def execImagePushAck (p : Fin 13) (m : Msg) (s : State) : R :=
  s.go (s.cx.onMsg p m 0x29 fun c =>
    match (c.fp p.val).pushing with
    | none => c
    | some (off, len) =>
      let status := m.fields.getD 0 0
      if status != stOk then c.endPush p.val off status
      else if off + 4096 ≥ len then c.endPush p.val len stOk
      else c.pushNext p.val (off + 4096) len)

/-! ### The receiver (R126) -/

/-- A push message may load: it begins one, or continues the one that its port is bound to. -/
def Cx.pushOpen (c : Cx) (p : Nat) : Bool :=
  match c.img.push with
  | some (q, _) => c.img.st == .loading && p = q
  | none => (c.img.st == .empty || c.img.st == .refused) && (c.die .A).imgAccept

/-- The push has ended: LOADED, and enabled when the header and HUB_IMAGE_PEER both ask for it. The length that the
check compares is the push's (log entry 33). -/
def Cx.pushEnd (c : Cx) (total : Nat) : Cx :=
  let c := (c.setReg (hubBase .A + 8) (BitVec.ofNat 32 total)).setImg fun m =>
    { m with st := .loaded, push := none, stagedLen := total }
  if c.img.autoEnable && bit ((c.staged false).fld 6 2) 1 then c.startCheck c.master else c

/-- IMAGE_PUSH (R126, R359): answered `POISONED` for a length above 64 MiB, `RETRY_LATER` while the staging is not free for
it, else loaded. -/
def execImagePush (p : Fin 13) (m : Msg) (s : State) : R :=
  s.go (s.cx.onMsg p m 0x28 fun c =>
    let off := m.addr.toNat
    let total := m.arg.toNat
    let answer (c : Cx) (k : Nat) : Cx := c.portSend p.val (c.localMsg 0x29 1 0#64 0#64 [] [k])
    if total = 0 || total > 0x4000000 || off + m.data.length > total then answer c stPoison
    else if !c.pushOpen p.val then answer c stRetry
    else
      let c := c.setImg fun i => { i with st := .loading, push := some (p.val, total), lastPort := p.val }
      let c := c.poke (sramKey c.master (stagingOff + off)) m.data
      answer (if off + m.data.length = total then c.pushEnd total else c) stOk)

/-! ### UCIe modules (R133) -/

/-- MODULE_BRINGUP (R133): the module and the complex advertise; they run at the lower minor, or the module stays down. -/
def execModuleBringup (m : Fin 64) (major minor : Byte) (s : State) : R :=
  let c := s.cx
  let d := moduleDie m
  if !(c.die d).shell || (kget? c.modules m.val).isSome then s.go c
  else
    let lim := (c.img.cfg.map fun g => g.limits 0).getD (0, 0xFF)
    let own := (silicon 0).1
    let adv := min (silicon 0).2 lim.2
    let v := min adv minor.toNat
    let c := c.emit (.advert m.val own adv)
    let parts := [0, m.val, own, adv, major.toNat, minor.toNat]
    if major.toNat != own || v < lim.1 then s.go (c.ev 0x2007 3 1 d m (parts ++ [lim.1]))
    else s.go (({ c with modules := kput c.modules m.val v }).ev 0x2006 3 0 d m (parts ++ [v]))

/-- UCIE_MODULE_FAILURE (Table 14.3): the module retrains, or it is down. -/
def execUcieModuleFailure (m : Fin 64) (retrained : Bool) (s : State) : R :=
  let c := s.cx
  s.go (if retrained then c else { c with modules := kdel c.modules m.val })

end Sys2Proof.Machine
end

