-- ==== Sys2Proof/Machine/Twin.lean ====
section
/-!
DEFINITION. The journal, and the twin hub dies: suspicion, fencing, failover, rejoin and the reset of the complex
(R17 to R19, R362 to R385).
-/
namespace Sys2Proof.Machine

/-! ### The journal (R365 to R368) -/

/-- Records the journal holds. -/
def journalSize : Nat := 131072

/-- A command's record is held: one less is owed (R366). -/
def Cx.paid (c : Cx) (cmd : Option (StreamId × W32)) : Cx :=
  match cmd with
  | some (st, num) => c.modFlight st num fun f => { f with owed := f.owed - 1 }
  | none => c

/-- A signal that a fabric message brought takes effect (R153, R154). -/
def Cx.fabSync (c : Cx) (o : Nat) (v : W64) : Cx :=
  match c.takeSignal o v with
  | some c => c
  | none => c.ev 0x3003 6 1 c.master c.master.num [o, (c.sync o).toNat, v.toNat, 0, 0]

/-- The NEWT_JOB of a context record goes on once all its records are held. -/
def Cx.jobsGo (c : Cx) (cmd : Option (StreamId × W32)) : Cx :=
  match cmd with
  | some (st, num) => c.runFlight bodyNewtJob st num
  | none => c

/-- The change that a record carries takes effect, and the operation that caused it goes on (R366). A commit's remap is a
step of its own (R254), and its record is freed there. -/
def Cx.takeRecord (c : Cx) (e : JEntry) : Cx :=
  match e.body with
  | .commit w =>
    if (c.win? w).any (·.commitSent) then c.modWin w fun v => { v with commitHeld := true } else c.freeRecord e
  | .repair w slot _ digest =>
    let who := (c.fab.repairs.find? fun r => r.w = w).map fun r => (r.stream, r.command)
    let c := (c.endRepair w slot digest).freeRecord e
    match who with
    | some (st, num) => c.runFlight bodyDigest st num
    | none => c
  | .flags w => (c.saveEntry w).freeRecord e
  | .verdict t n v st num => ((c.applyVerdict t n v st num e.from_).paid e.cmd).freeRecord e
  | .sync o v =>
    match e.cmd with
    | some (st, num) => (((c.endSignal st num o v).paid e.cmd).freeRecord e)
    | none => (c.fabSync o v).freeRecord e
  | .key n half clear _ ws => ((c.applyKey n half clear ws).paid e.cmd).freeRecord e
  | .context n t sl => (({ c with attCtx := kput c.attCtx n (t, sl) }).paid e.cmd).freeRecord e |>.jobsGo e.cmd
  | .bind t k b ch => ((c.applyBind t k b ch).paid e.cmd).freeRecord e
  | .evtBlock _ | .image _ => c.freeRecord e

/-- Records whose mirror no longer answers complete on the master alone (R18, R366). -/
def Cx.completeAlone (c : Cx) : Cx :=
  (c.journal.entries.filter fun e => !e.acked).foldl (fun (c : Cx) e =>
    let mark (x : JEntry) : JEntry := if x.seq = e.seq then { x with acked := true } else x
    ({ c with journal := { c.journal with entries := c.journal.entries.map mark, solo := c.journal.solo ++ [e.body] } }).takeRecord
      { e with acked := true }) c

/-- A record can reach the journal master: it is on that die, or the bridge carries it. A commit record is not sent while
its commits wait (R397). -/
def Cx.canReach (c : Cx) (e : JEntry) : Bool :=
  (e.from_ = c.master || c.bridge) && (match e.body with
    | .commit w => !c.commitsWait (winStack w)
    | _ => true)

/-- JOURNAL_RECORD (R366, R368): the oldest record that can reach the master is numbered and written; a full journal makes
it wait. Without a mirror it completes at once. -/
def execJournalRecord (s : State) : R :=
  let c := s.cx
  if !c.enabled || !c.coreUp c.master || c.journal.entries.length ≥ journalSize then s.go c
  else match c.journal.queue.findIdx? c.canReach with
    | none => s.go c
    | some i =>
      match c.journal.queue[i]? with
      | none => s.go c
      | some e =>
        let seq := c.journal.seq + 1#64
        let e := { e with seq := seq, written := true }
        let c := { c with journal := { c.journal with
          queue := c.journal.queue.eraseIdx i, entries := c.journal.entries ++ [e], seq := seq } }
        s.go (if c.alone then c.completeAlone else c)

/-- MIRROR_ACK (R366): the mirror acknowledges the oldest record it has not yet acknowledged. -/
def execMirrorAck (s : State) : R :=
  let c := s.cx
  if c.alone then s.go c.completeAlone
  else match c.journal.entries.find? fun e => !e.acked with
    | none => s.go c
    | some e =>
      let mark (x : JEntry) : JEntry := if x.seq = e.seq then { x with acked := true } else x
      s.go (({ c with journal := { c.journal with entries := c.journal.entries.map mark } }).takeRecord { e with acked := true })

/-! ### The hub bridge (R16, R17) -/

/-- Write back and invalidate every line of both stack caches (R17). -/
def Cx.flushAll (c : Cx) : Cx := c.writeBack fun _ => true

/-- Mark every stack shared, or clear the marks. -/
def Cx.markShared (c : Cx) (b : Bool) : Cx := (List.range 20).foldl (fun (c : Cx) s => c.modStk s fun k => { k with shared := b }) c

/-- The bridge is lost while both cores run: R17 applies from now on. The arbiter's die raises the event, which names the die
that noticed. -/
def Cx.loseBridge (c : Cx) (d : Side) : Cx :=
  let c := (c.flushAll.markShared true)
  let c := { c with bridge := false }
  let c := (c.modDie .A fun k => { k with twinSt := .bridgeLost }).modDie .B fun k => { k with twinSt := .bridgeLost }
  (c.ev 0x8001 10 2 c.master c.master.num [d.num]).completeAlone

/-- BRIDGE_HEARTBEAT (R369): this die's heartbeat crosses the bridge, every 10 µs while it is in Run. -/
def execBridgeHeartbeat (d : Side) (s : State) : R :=
  let c := s.cx
  if c.bridge && c.coreUp d && (c.die d).power == .run then s.go (c.modDie d.twin fun k => { k with lastBeat := true }) else s.go c

/-- Held events reach the arbiter's queue again (R380). -/
def Cx.forwardHeld (c : Cx) : Cx :=
  { c with arb := { c.arb with queue := c.arb.queue ++ c.arb.held, held := [], heldLost := 0 } }

/-- BRIDGE_RESTORED (R17, R380): the bridge is retrained; the shared marks clear, the caches resume, the mirror is whole again
and held events go to the arbiter. -/
def execBridgeRestored (s : State) : R :=
  let c := s.cx
  if c.bridge || !c.coreUp .A || !c.coreUp .B then s.go c
  else
    let held := c.arb.held.length
    let lost := c.arb.heldLost
    let c := { c.markShared false with bridge := true }
    let c := { c with journal := { c.journal with solo := [] } }
    let c := (c.modDie .A fun k => { k with twinSt := .paired }).modDie .B fun k => { k with twinSt := .paired }
    let o := c.forwardHeld.drawOpen 0x800B
    s.go (((o.2.ev 0x800B 10 0 c.master c.master.num [o.1.toNat, held, lost]).forwardAll .A).forwardAll .B)

/-! ### Suspicion (R369) -/

/-- A die suspects its twin: it raises fence (R370). -/
def Cx.suspect (c : Cx) (d : Side) (cause : Nat) : Cx :=
  (c.modDie d fun k => { k with twinSt := .fencing, suspectCause := cause, fenceLine := true, fenceAnswered := false }).ev
    0x8002 10 2 d d.num [d.num, cause]

/-- A die may suspect its twin. -/
def Cx.canSuspect (c : Cx) (d : Side) : Bool :=
  c.coreUp d && !(c.die d.twin).fenced && ((c.die d).twinSt == .paired || (c.die d).twinSt == .bridgeLost)

/-- CORE_ALIVE_FALL (R369): the twin's core_alive is low. -/
def execCoreAliveFall (d : Side) (s : State) : R :=
  let c := s.cx
  if c.canSuspect d && !(c.die d.twin).coreAlive then s.go (c.suspect d (c.die d.twin).suspectCause) else s.go c

/-- HEARTBEAT_MISS (R369): no heartbeat for 1 ms. With the twin's core_alive low it is a suspicion, with it high the bridge is
lost. -/
def execHeartbeatMiss (d : Side) (s : State) : R :=
  let c := s.cx.modDie d fun k => { k with lastBeat := false }
  if !c.canSuspect d || (c.die d).power != .run then s.go s.cx
  else if !(c.die d.twin).coreAlive then s.go (c.suspect d 3)
  else if c.bridge && (c.die d.twin).power == .run && c.coreUp d.twin then s.go (c.loseBridge d) else s.go s.cx

/-- A hub core drops its own core_alive (R369); with no twin to fence it, or while it fences its twin, no hub core is left to
carry the complex and it stops (R378). -/
def Cx.dropAlive (c : Cx) (d : Side) (cause : Nat) (detail : List Nat) : Cx :=
  let last := !c.coreUp d.twin || (c.die d).twinSt == .fencing
  (c.modDie d fun k => { k with coreAlive := false, suspectCause := cause, core := k.core && !last }).ev 0x800A 10 3 d d.num
    ([d.num, cause] ++ detail)

/-- WATCHDOG_EXPIRY (R369). -/
def execWatchdogExpiry (d : Side) (s : State) : R :=
  if s.cx.coreUp d && (s.cx.die d).power == .run then s.go (s.cx.dropAlive d 0 [0, 0]) else s.go s.cx

/-- SRAM_UNCORRECTABLE (R369): in hub SRAM that holds control state; unit and offset are the error's (log entry 15). -/
def execSramUncorrectable (d : Side) (s : State) : R :=
  let c := s.cx
  if !c.coreUp d then s.go c
  else
    let u := c.drawOpen 0x800A
    let o := u.2.drawOpen 0x800A
    s.go (o.2.dropAlive d 1 [u.1.toNat, o.1.toNat])

/-- FENCE_TWIN (R369, R384): HUB_TWIN_CTRL.fence_twin. -/
def execFenceTwin (d : Side) (s : State) : R :=
  let c := s.cx
  if c.canSuspect d then s.go (c.suspect d 4) else s.go (c.hostAccess d 0 (hubBase d + 0xA84) 4 true)

/-! ### Fencing (R370) -/

/-- Rows of a stack that hold dirty bytes in a stack cache: its hub-dirty map (R374). -/
def Cx.hubDirtyRows (c : Cx) (s : Nat) : List Nat :=
  (c.dirty.filter fun p => inStack s p.1).foldl (fun l p => nput l (p.1 % 2 ^ 37 / rowBytes)) []

/-- HUB_ offsets whose registers act for the complex: the image, the tenant slots and the contexts (R103, R304, R326). -/
def complexWide (o : Nat) : Bool := decide (o < 0x34 ∧ o ≠ 0x2C) || decide (0x740 ≤ o ∧ o < 0x850) || decide (0x2000 ≤ o ∧ o < 0x4000)

/-- Registers and counters that a reset of a hub core returns to their reset values (R10): its HUB_ block, but for what acts for
the complex, and the FAB_ blocks of its ports. -/
def coreReg (f : Side) (o : Nat) : Bool :=
  (decide (hubBase f ≤ o ∧ o < hubBase f + 0x8000) && !complexWide (o - hubBase f))
    || decide (fabBase (6 * f.num) ≤ o ∧ o < fabBase (6 * f.num + 6))

/-- What a hub core that stops takes with it: its port's registers, its fabric links, the dirty lines of its cache and the
registers and counters of its blocks; a load pushed through one of its ports ends (R126). -/
def Cx.stopCore (c : Cx) (f : Side) : Cx :=
  let own := (List.range 20).filter fun s => c.owner s = f
  let c := own.foldl (fun (c : Cx) s => c.modStk s fun k => { k with hubDirty := c.hubDirtyRows s }) c
  let c := { c with dirty := c.dirty.filter fun p => !(own.any fun s => inStack s p.1) }
  let c := c.modPort f fun q => { ({} : Port) with perst := q.perst }
  let c := ((List.range 12).filter fun p => portDie p = f).foldl (fun (c : Cx) p => c.modFp p fun q =>
    { q.cold [0, 0, 0, 0] with st := .down, queue := [], wasUp := false, resetting := 0, departing := false
                               salvaging := false, salvage := [], heldBack := [] }) c
  let c := { c with ctrs := c.ctrs.filter fun p => !coreReg f p.1, regs := c.regs.filter fun p => !coreReg f p.1 }
  let c := match c.img.push with
    | some (p, _) => if portDie p = f then c.pushBroken p else c
    | none => c
  c.modDie f fun k => { k with core := false, coreAlive := false, norm := {}, snap := [], snapOvf := [], sel := 0 }

/-- Items of mirrored state that the fenced master held alone (R378). -/
def Cx.loseSolo (c : Cx) (d : Side) : Cx :=
  let typ : JRec → Nat := fun r => match r with
    | .commit _ => 1 | .repair _ _ _ _ => 2 | .flags _ => 3 | .verdict _ _ _ _ _ => 4 | .sync _ _ => 5
    | .key _ _ _ _ _ => 6 | .context _ _ _ => 7 | .bind _ _ _ _ => 8 | .evtBlock _ => 9 | .image _ => 10
  let lost := c.journal.solo.filter fun r => [4, 5, 6, 7].contains (typ r)
  let c := lost.foldl (fun (c : Cx) r => match r with
    | .sync o _ => { c with syncs := kdel c.syncs o }
    | .key n _ _ _ _ => { c with keys := kdel c.keys n }
    | .context n _ _ => { c with attCtx := kdel c.attCtx n }
    | .verdict t _ _ _ _ => { c with verdicts := kdel c.verdicts t
                                     wins := c.wins.map fun p => if p.2.tensor = t then (p.1, { p.2 with verdict := none }) else p }
    | _ => c) c
  let c := { c with journal := { c.journal with solo := [] } }
  if lost.isEmpty then c
  else c.ev 0x8009 10 3 d d.num [((lost.map typ).foldl nput []).foldl (fun a t => a + 2 ^ t) 0]

/-- The event that names the unused rest of a block of sequence numbers as lost (R379). -/
def blockLost (d : Side) (a : Arbiter) : List Ev :=
  let n := (a.claimed - a.seq).toNat
  if n = 0 then []
  else [{ code := 0x0004, unitClass := 13, sev := 1, die := d, index := d.num
          fields := [n, a.seq.toNat, (a.claimed - 1#64).toNat] }]

/-- The image staging, the partial staging and the journal move with the journal master (R131): its hub SRAM from 0x0C00_0000
upward. -/
def Cx.moveStaging (c : Cx) (d : Side) : Cx :=
  let lo (x : Side) : Nat := sramKey x stagingOff
  let n := sramBytes - stagingOff
  let own := c.mem.filter fun p => decide (lo d.twin ≤ p.1 ∧ p.1 < lo d.twin + n)
  own.foldl (fun c p => c.putByte (p.1 - lo d.twin + lo d) p.2) ((c.clearRange (lo d) n).clearRange (lo d.twin) n)

/-- The survivor takes the journal, the arbiter and the governor (R372, R379): numbers go on at the end of the claimed block,
and what the fenced die raised and did not deliver is gone, but for its fault log. -/
def Cx.takeOver (c : Cx) (d : Side) : Cx :=
  let f := d.twin
  let c := c.moveStaging d
  let gone := c.arb.queue.filter fun e => e.die = f
  let c := (gone.filter fun e => e.sev = 3).foldl (fun (c : Cx) e => c.logFault f e.code e.index e.unitClass false) c
  let solo := !c.bridge
  let a := c.arb
  let c := { c with
    master := d
    arb := { a with seq := a.claimed, held := [], heldLost := 0
                    queue := blockLost d a ++ (a.queue.filter fun e : Ev => e.die != f) ++ a.held } }
  let keep := c.journal.entries.filter fun e : JEntry => e.acked
  let c := { c with journal := { c.journal with entries := keep } }
  let c := { c with fab := { c.fab with sums := [] } }
  if solo then c.loseSolo d else c

/-- The fence is complete (R370, R372): records of the fenced die that never reached the journal are lost. -/
def Cx.fenced (c : Cx) (d : Side) (relay : Bool) : Cx :=
  let f := d.twin
  let cause := (c.die d).suspectCause
  let c := c.stopCore f
  let c := { c with journal := { c.journal with queue := c.journal.queue.filter fun e => e.from_ != f } }
  let c := (c.modDie f fun k => { k with fenced := true, twinSt := .fencedUs, fenceLine := false }).modDie d fun k =>
    { k with twinSt := .failover, fenceLine := false, relay := relay }
  let c := if relay then c else { c with modules := c.modules.filter fun p => moduleDie p.1 != f }
  let c := if c.master = f then c.takeOver d else c.completeAlone
  let c := (c.logFault f 0x800A f.num cause true).logFault d 0x800A f.num cause false
  let c := c.ev 0x8003 10 3 d d.num [f.num, cause, b2n relay]
  if c.img.st == .checking then c.refuseImage false (0x0103, 1, 10) else c

/-- FENCE_RECEIVED (R370): the always-on domain of this die acts on its twin's fence line. The relay works over the hub bridge
(R19): across a lost one there is none. -/
def execFenceReceived (d : Side) (s : State) : R :=
  let c := s.cx
  if (c.die d.twin).fenceLine && (c.die d).aon && (c.die d).shell && !(c.die d).fenced then
    s.go ((c.fenced d.twin c.bridge).modDie d.twin fun k => { k with fenceAnswered := true })
  else s.go c

/-- FENCE_ANSWER_TIMEOUT (R370): 10 ms without an answer: the twin counts as fenced, without a relay. -/
def execFenceAnswerTimeout (d : Side) (s : State) : R :=
  let c := s.cx
  if (c.die d).fenceLine && c.coreUp d then s.go (c.fenced d false) else s.go c

/-! ### Owners (R362, R371) -/

/-- OWNER_CHANGE_REQUEST (R371): after the fence the survivor asks a home stack of the fenced die, over its standby link, to
change owner; the link then carries the stack's traffic (R15). A stack whose standby link is down cannot be asked: it stays, in
link reset (log entry 89). -/
def execOwnerChangeRequest (stk : Fin 20) (quiet : Bool) (s : State) : R :=
  let c := s.cx
  let f := homeDie stk
  let d := f.twin
  if (c.die d).twinSt != .failover || c.owner stk != f || (c.stk stk).refusedOwner then s.go c
  else if ((c.die d).fenceAnswered || quiet) && decide (2 ≤ (c.stk stk).standby) then
    s.go ((c.modStk stk fun k => { k with owner := d, carried := true, onStandby := true }).ev 0x8004 8 1 d stk [stk, 0])
  else
    s.go ((c.modStk stk fun k => { k with refusedOwner := true, cause := 2 }).ev 0x8004 8 1 d stk [stk, 1])

/-! ### Failover (R372 to R376) -/

/-- Outcome of a window of an adopted stack (Table 14.2): a commit whose record the mirror lacks is lost, and its pass runs
again under the mirrored verdict; a lost import leaves the window QUIET. -/
def Cx.adoptWin (c : Cx) (w : Nat) (v : Win) : Cx :=
  match v.st with
  | .committing n =>
    if v.commitHeld then c
    else if v.importStep.isSome then
      (c.discardSpec w).modWin w fun v => { v with st := .quiet, hold := false, importStep := none }
    else (c.discardSpec w).modWin w fun v => { v with st := .writeRun n false, rerun := true }
  | _ => c

/-- Windows of adopted stacks whose pass must run again. -/
def Cx.reruns (c : Cx) (adopted : List Nat) : Nat :=
  (c.wins.filter fun p => adopted.contains (winStack p.1) && p.2.rerun).length

/-- A stream of the fenced die: served by the survivor, and halted with DONE as its completion ring shows it (R375). -/
def Cx.adoptStream (d : Side) (c : Cx) (n : Nat) : Cx :=
  let x := c.strm n
  let c := { c with holds := c.holds.filter fun h => h.2.2.1 != n
                    fab := { c.fab with reqs := c.fab.reqs.filter fun r => r.stream.toNat != n || r.op = opRebuildFetch } }
  (c.modStrm n fun x => { x with serving := some d, routing := none, routed := none, flights := [] }).haltStream (BitVec.ofNat 12 n) 9 x.next x.gen

/-- Streams that a die serves (R375): those it has served, and those whose descriptor in the table is valid and names it. -/
def Cx.streamsOf (c : Cx) (f : Side) : List Nat :=
  let named (n : Nat) : Bool :=
    let v := (c.hubByte (c.keyAt (c.descAddr n + 0x1C) 0)).toNat
    bit v 0 && decide (Side.ofNum (bits v 2 2) = f)
  (List.range ((c.img.cfg.map fun g => g.streams.count).getD 0)).filter fun n =>
    match (c.strm n).serving with
    | some d => d = f
    | none => named n

/-- GRAD_ADDs and GATHER_REQs held in the fenced core or its shell are answered `RETRY_LATER` (R185, Table 14.2). -/
def Cx.answerHeld (c : Cx) (f : Side) : Cx :=
  let mine (m : Nat) (d : Side) : Bool := moduleDie m = f || d = f
  let gs := c.gradHeld.filter fun q => mine q.m q.die
  let c := gs.foldl (fun (c : Cx) q => c.emit (.gradResp q.m stRetry 0 (gradHdr q.hdr).seq.toNat)) c
  let hs := c.gatherHeld.filter fun q => mine q.m q.die
  let c := hs.foldl (fun (c : Cx) q => c.emit (.gatherResp q.m stRetry 0 (bits q.hdr.toNat 111 96) 0#32 [])) c
  { c with gradHeld := c.gradHeld.filter fun q => !mine q.m q.die
           gatherHeld := c.gatherHeld.filter fun q => !mine q.m q.die }

/-- `TWIN_CACHE_LOSS` of an adopted stack, and its hub-dirty map clears (R374). -/
def Cx.reportDirty (c : Cx) (d : Side) (s : Nat) : Cx :=
  match (c.stk s).hubDirty with
  | [] => c
  | r :: rest =>
    let first := rest.foldl min r
    (c.modStk s fun k => { k with hubDirty := [] }).ev 0x8006 8 2 d s [s, rest.length + 1, first]

/-- FAILOVER (R372 to R376): the survivor builds the adopted stacks' state and the failover ends. -/
def execFailover (d : Side) (s : State) : R :=
  let c := s.cx
  let f := d.twin
  if (c.die d).twinSt != .failover || !c.coreUp d then s.go c
  else
    let adopted := (List.range 20).filter fun k => homeDie k = f && c.owner k = d
    let records := (c.journal.entries.filter fun e => e.acked && (e.body.stack?).any adopted.contains).length
    let c := (c.wins.filter fun p => adopted.contains (winStack p.1)).foldl (fun (c : Cx) p => c.adoptWin p.1 p.2) c
    let rerun := c.reruns adopted
    let c := adopted.foldl (fun (c : Cx) k => c.reportDirty d k) c
    let c := c.answerHeld f
    let c := { c with queues := c.queues.filter fun p => queueDie p.1 != f }
    let mine := c.streamsOf f
    let c := mine.foldl (Cx.adoptStream d) c
    let o := c.drawOpen 0x8005
    s.go ((o.2.modDie d fun k => { k with twinSt := .solo }).ev 0x8005 10 1 d d.num
      [adopted.length, records, rerun, mine.length, o.1.toNat] |>.forwardAll d)

/-! ### Reset and rejoin of a twin (R377, R382) -/

/-- RESET_TWIN (R382, R384): fences if needed, then resets the twin's core; a core already fenced is in reset. -/
def execResetTwin (d : Side) (s : State) : R :=
  let c := s.cx
  if c.canSuspect d then s.go (c.suspect d 4)
  else if (c.die d).twinSt == .solo then s.go (c.modDie d.twin fun k => { k with core := false, coreAlive := false })
  else s.go (c.hostAccess d 0 (hubBase d + 0xA84) 4 true)

/-- Hand one home stack back: the survivor's dirty lines of it are written back, and its owner changes. -/
def Cx.handBack (f : Side) (c : Cx) (s : Nat) : Cx :=
  let c0 := c.writeBack (inStack s)
  Cx.linkEdge c0 s (c0.modStk s fun k => { k with owner := f, carried := false, onStandby := false, refusedOwner := false })

/-- The fabric ports of a die that comes back train again with a cold reset (R343, R377). -/
def Cx.retrainPorts (c : Cx) (f : Side) : Cx :=
  ((List.range 12).filter fun p => portDie p = f).foldl (fun (c : Cx) p =>
    let on : Bool := !c.enabled || bit ((c.img.cfg.map fun g => g.fabric.ports.getD p 0).getD 0) 0
    if on then c.modFp p fun q => { q with st := .training, wasUp := false } else c) c

/-- The PCIe link trains once PERST_N is deasserted and the die is in Run (R401), at a width and rate that the model leaves
open (Table 4.1); the root complex then enables bus mastering (DESIGN CHOICE, log entry 43). -/
def Cx.trainPcie (c : Cx) (d : Side) : Cx :=
  let q := c.port d
  if q.perst && !q.up && (c.die d).power == .run && c.coreUp d then
    let o := c.drawOpen 0x4001
    o.2.modPort d fun q => { q with
      up := true, busMaster := true, lanes := [16, 8, 4, 2, 1].getD (bits o.1.toNat 7 0) 16
      rate := [64, 32, 16, 8, 5, 2].getD (bits o.1.toNat 15 8) 64 }
  else c

/-- Before an image is enabled hub die A holds the roles and the staging, as soon as its core is not fenced (R18). -/
def Cx.rolesHome (c : Cx) : Cx :=
  if c.enabled || c.master = .A || !c.coreUp .A then c else { c.moveStaging .A with master := .A }

/-- HUB_TWIN_CTRL.rejoin (R377, R384): the fenced core is released from reset; REJOIN brings the outcome. -/
def Cx.startRejoin (c : Cx) (d : Side) : Cx :=
  if (c.die d).twinSt == .solo && c.coreUp d then c.modDie d fun k => { k with twinSt := .rejoining }
  else c.hostAccess d 0 (hubBase d + 0xA84) 4 true

/-- REJOIN (R377): the fenced core is released, tests itself, retrains the bridge, becomes the mirror and takes its stacks
back in ascending order. -/
def execRejoin (d : Side) (selfTest bridge : Bool) (s : State) : R :=
  let c := s.cx
  let f := d.twin
  let failed (cause : Nat) : R :=
    s.go ((c.modDie d fun k => { k with twinSt := .solo }).ev 0x8008 10 3 d d.num [f.num, cause])
  if ((c.die d).twinSt != .solo && (c.die d).twinSt != .rejoining) || !c.coreUp d then
    s.go (c.hostAccess d 0 (hubBase d + 0xA84) 4 true)
  else if !selfTest then failed 0
  else if !bridge then failed 1
  else
    let back := (List.range 20).filter fun k => homeDie k = f
    let c := (c.modDie f fun k => { k with core := true, fenced := false, coreAlive := true, twinSt := .paired, fenceLine := false
                                           fenceAnswered := false }).modDie d fun k =>
      { k with twinSt := .paired, relay := false, fenceAnswered := false }
    let c := { c with bridge := true, journal := { c.journal with solo := [] } }
    let c := back.foldl (Cx.handBack f) c
    let c := ((c.trainPcie f).retrainPorts f).rolesHome
    let o := c.drawOpen 0x8007
    s.go (o.2.ev 0x8007 10 0 d d.num [f.num, back.length, o.1.toNat])

/-! ### The reset of the complex (R382, R383, rung 4 of Table 14.4) -/

/-- What a stack keeps through a reset of the complex: spared rows, channel retirements and what the channel controllers
hold. -/
def Stack.afterReset (k : Stack) (s : Nat) : Stack :=
  { ({} : Stack) with
    owner := homeDie s, temps := k.temps, row := k.row, stackLimit := k.stackLimit, thermalTrip := k.thermalTrip
    retired := k.retired, retireCause := k.retireCause, spareExhausted := k.spareExhausted, failed := k.failed
    spares := k.spares, eccRows := k.eccRows, lost := k.lost }

/-- A hub die after a reset of its core and shell: the always-on domain keeps its fault log, straps and readings. -/
def Die.afterReset (k : Die) : Die :=
  { ({} : Die) with
    power := if k.power == .frost then .frost else .thaw, aon := k.aon, pwrReq := k.pwrReq, pgIn := k.pgIn
    smbAddr := k.smbAddr, imgAccept := k.imgAccept, faults := k.faults, faultNext := k.faultNext
    faultWrapped := k.faultWrapped, temp := k.temp, thermal := k.thermal, thermal115 := k.thermal115, warn := k.warn
    below := k.below, rails := k.rails, wakeCause := k.wakeCause, thawUs := k.thawUs, jtag := k.jtag }

/-- Registers that the always-on domain keeps: PWR_ of both dies. -/
def pwrRegOff (o : Nat) : Bool := decide ((0x20000 ≤ o ∧ o < 0x21000) ∨ (0x28000 ≤ o ∧ o < 0x29000))

/-- Memory that a reset of the complex keeps: DRAM, the slow tier and host memory. -/
def keptKey (k : Nat) : Bool := keySpace k != 3

/-- Rung 4: everything but the memories, the channel controllers, the always-on domains and the levels of pins starts
afresh. -/
def Cx.resetAll (c : Cx) : Cx :=
  { Cx.reset with
    mem := c.mem.filter fun p => keptKey p.1
    poison := c.poison.filter fun w => keptKey (w * 64)
    eccUnknown := c.eccUnknown
    regs := c.regs.filter fun p => pwrRegOff p.1
    ctrs := c.ctrs.filter fun p => pwrRegOff p.1
    portA := { perst := c.portA.perst }, portB := { perst := c.portB.perst }
    dieA := { c.dieA.afterReset with slowPoison := c.dieA.slowPoison }
    dieB := { c.dieB.afterReset with slowPoison := c.dieB.slowPoison }
    fab := { uid := c.fab.uid }
    stks := (List.range 20).map fun s => (s, (c.stk s).afterReset s)
    newts := c.newts.map fun p => (p.1, { ({} : Newt) with retired := p.2.retired })
    ticks := c.ticks
    free := c.free
    out := c.out }

/-- RESET_COMPLEX (R384): takes effect only with key 0xC5. -/
def execResetComplex (d : Side) (key : Byte) (s : State) : R :=
  let c := s.cx
  if key = 0xC5#8 && c.coreUp d then s.go c.resetAll else s.go (c.hostAccess d 0 (hubBase d + 0xA84) 4 true)

end Sys2Proof.Machine
end

