-- ==== Sys2Proof/Machine/Power.lean ====
section
/-!
DEFINITION. Power states, the governor, supplies, start-up and resets (chapter 15).
-/
namespace Sys2Proof.Machine

/-! ### Power states (R386 to R390) -/

/-- A stack does nothing of what keeps its owner busy (R388). -/
def Cx.stackIdle (c : Cx) (s : Nat) : Bool :=
  let k := c.stk s
  !k.retrainP && !k.retrainS && !k.rebuilding
    && !(c.wins.any fun p => winStack p.1 = s && (p.2.pass.isSome || p.2.cut.isSome || !p.2.copies.isEmpty || p.2.promoting
        || p.2.writingBack))
    && !(c.newts.any fun p => p.1 / 32 = s && (p.2.job.isSome || p.2.wait.isSome))

/-- R388: the die is idle. -/
def Cx.idle (c : Cx) (d : Side) : Bool :=
  !(c.streams.any fun p => p.2.serving = some d && (!p.2.cache.isEmpty || !p.2.flights.isEmpty || !p.2.waiting.isEmpty
      || (p.2.st == .active && (p.2.desc.any (·.poll)))))
    && !(c.gradHeld.any fun q => moduleDie q.m = d) && !(c.gatherHeld.any fun q => moduleDie q.m = d)
    && !(c.ports.any fun p => portDie p.1 = d && (!p.2.delivered.isEmpty || !p.2.replay.isEmpty || !p.2.queue.isEmpty))
    && (List.range 20).all (fun s => c.owner s != d || c.stackIdle s)
    && (c.port d).doorbells.isEmpty && (c.port d).ring.held.isEmpty && c.journal.queue.isEmpty && c.journal.entries.all (·.acked)

/-- Dew: the fast clocks stop, and nothing is lost. -/
def Cx.enterDew (c : Cx) (d : Side) (cause : Nat) : Cx :=
  (c.modDie d fun k => { k with dewPending := false }).setPower d .dew cause

/-- What Frost retains of a stack (Table 15.1): owner, hub-dirty map, spared rows. -/
def Stack.frozen (k : Stack) : Stack :=
  { ({} : Stack) with owner := k.owner, hubDirty := k.hubDirty, spares := k.spares }

/-- What Frost retains of a die: straps, fault log; its rails' readings are the board's. -/
def Die.frozen (k : Die) : Die :=
  { ({} : Die) with
    power := .frost, aon := k.aon, smbAddr := k.smbAddr, imgAccept := k.imgAccept, faults := k.faults
    faultNext := k.faultNext, faultWrapped := k.faultWrapped, rails := k.rails, temp := k.temp, jtag := k.jtag, stale := true }

/-- Both dies enter Frost (R390): streams stop, ports go down, the stacks are in self-refresh. -/
def Cx.enterFrost (c : Cx) (cause : Nat) : Cx :=
  let c := (c.setPower .A .frost cause).setPower .B .frost cause
  let a := c.arb
  { c.resetAll with
    arb := { queue := a.queue }
    regs := [], ctrs := []
    portA := { perst := c.portA.perst }, portB := { perst := c.portB.perst }
    dieA := c.dieA.frozen, dieB := c.dieB.frozen
    stks := (List.range 20).map fun s => (s, { (c.stk s).frozen with temps := (c.stk s).temps })
    newts := [] }

/-- Why Frost is refused (R390): 0 the image state, 1 a fenced core. -/
def Cx.frostRefused (c : Cx) : Option Nat :=
  if c.dieA.fenced || c.dieB.fenced then some 1
  else match c.img.st with
    | .empty | .loaded | .refused => none
    | _ => some 0

/-- A request for a power state (R387, R390): the second component is the cause of a refusal. -/
def Cx.requestPower (c : Cx) (d : Side) (target cause : Nat) : Cx × Option Nat :=
  match target, (c.die d).power with
  | 0, .frost | 0, .thaw => (c, none)
  | 0, _ => (match c.frostRefused with
    | some k => (c, some k)
    | none => (c.enterFrost cause, none))
  | 1, .run => (if c.idle d then c.enterDew d cause else c.modDie d fun k => { k with dewPending := true }, none)
  | 3, .dew => (c.wake d cause, none)
  | 3, .frost => (c.leaveFrost cause, none)
  | 3, .run => (c.modDie d fun k => { k with dewPending := false }, none)
  | _, _ => (c, none)

/-- PWR_CTRL_GO (R405): PWR_CTRL.go; target 2 is ignored with `HOST_ACCESS`, and a go while a request for Dew waits does nothing
(R10). -/
def execPwrCtrlGo (d : Side) (s : State) : R :=
  let c := s.cx
  let t := bits (c.reg (pwrBase d + 4)).toNat 1 0
  if !(c.die d).aon || (c.die d).dewPending then s.go c
  else if t = 2 then s.go (c.hostAccess d 0 (pwrBase d + 4) 4 true)
  else
    let r := c.requestPower d t 5
    match r.2 with
    | some k => s.go (r.1.pwrEv 0x9007 1 d [t, k])
    | none => s.go r.1

/-- DEW_IDLE_EXPIRY (R387): idle for dew_idle_us, or idle at last after a request. -/
def execDewIdleExpiry (d : Side) (s : State) : R :=
  let c := s.cx
  let us := (c.img.cfg.map fun g => g.power.dewIdleUs).getD 0
  if (c.die d).power == .run && c.coreUp d && c.idle d && ((c.die d).dewPending || (c.enabled && us != 0))
  then s.go (c.enterDew d 0) else s.go c

/-- WAKE (R389): causes 1 to 7 of PWR_WAKE. -/
def execWake (d : Side) (cause : BitVec 4) (s : State) : R := s.go (s.cx.wake d cause.toNat)

/-- THAW_DONE (R387): the fast clocks and the DRAM are up; a PCIe link whose PERST_N rose meanwhile trains (R401). -/
def execThawDone (d : Side) (us : W16) (s : State) : R :=
  let c := s.cx
  if (c.die d).power == .thaw && (c.die d).core then
    s.go (((c.modDie d fun k => { k with thawUs := us.toNat }).setPower d .run (c.die d).wakeCause).trainPcie d).resumeCheck
  else s.go c

/-! ### The governor (R394) -/

/-- Add a sample to a running window of 100. -/
def addSample (l : List Nat) (x : Nat) : List Nat := (l ++ [x]).drop (l.length + 1 - 100)

/-- Average over a window. -/
def average (l : List Nat) : Nat := if l.isEmpty then 0 else l.sum / l.length

/-- GOVERNOR_SAMPLE (R394): readings of the tile, the hub dies and the stacks, in units of 0.25 W. -/
def execGovernorSample (tile dieA dieB : Nat) (stks : List Nat) (s : State) : R :=
  let c := s.cx
  let c := { c with gov := { c.gov with samples := addSample c.gov.samples tile } }
  let c := (c.modDie .A fun k => { k with samples := addSample k.samples dieA }).modDie .B fun k =>
    { k with samples := addSample k.samples dieB }
  s.go ((List.range (min 20 stks.length)).foldl (fun c i =>
    c.modStk i fun k => { k with watts := addSample k.watts (stks.getD i 0) }) c)

def Cx.powerRec (c : Cx) : PowerRec := (c.img.cfg.map fun g => g.power).getD {}

/-- Which way a controller steps at a projection, both in 0.25 W: up one limit above cap − 40 W of 1,200, down below cap − 60 W
of 1,200, and in between it holds. For the tile the margins are watts; for a stack or a die the same shares of its cap (log
entry 38). -/
inductive Turn where
  | limit
  | hold
  | undo
  deriving DecidableEq, Repr

def turnAt (projected high low : Nat) : Turn := if projected > high then .limit else if projected < low then .undo else .hold

def shareTurn (projected cap : Nat) : Turn := turnAt projected (4 * cap * 1160 / 1200) (4 * cap * 1140 / 1200)

def Turn.steps (t : Turn) (n most : Nat) : Nat :=
  match t with
  | .limit => min most (n + 1)
  | .hold => n
  | .undo => n - 1

/-- Hub-core clock in sixteenths (R392, R394, R395, R397): the smallest of what its controllers ask for. -/
def Cx.hubFraction (c : Cx) (d : Side) : Nat :=
  let k := c.die d
  let dip := k.hold.any fun h => decide (5 ≤ h.rail ∧ h.rail ≤ 9) || h.rail = 0 || h.rail = 1
  min (16 - k.hubSteps) (min (16 - k.capSteps) (if dip || k.thermal then 8 else 16))

/-- GOVERNOR_STEP (R394): every 100 µs. -/
def execGovernorStep (s : State) : R :=
  let c := s.cx
  let g := c.gov
  let p := c.powerRec
  let proj := Config.projected g.samples
  let high := 4 * (p.tileCap - 40)
  let low := 4 * (p.tileCap - 60)
  let hub := c.dieA.hubSteps
  let setHub (c : Cx) (n : Nat) : Cx := (c.modDie .A fun k => { k with hubSteps := n }).modDie .B fun k => { k with hubSteps := n }
  let r : Cx × Bool := match turnAt proj high low with
    | .limit =>
      if g.admission != 0 then ({ c with gov := { g with admission := g.admission - 2 } }, true)
      else if hub < 8 then (setHub c (hub + 1), true) else (c, false)
    | .undo =>
      if hub != 0 then (setHub c (hub - 1), false)
      else if g.admission < 20 then ({ c with gov := { g with admission := min 20 (g.admission + 2) } }, false) else (c, false)
    | .hold => (c, false)
  let c := { r.1 with gov := { r.1.gov with projected := proj, idleSteps := if r.2 then 0 else min 10 (g.idleSteps + 1) } }
  let c := (c.modDie .A fun k => { k with capSteps := (shareTurn (Config.projected k.samples) p.hubCap).steps k.capSteps 8 }).modDie
    .B fun k => { k with capSteps := (shareTurn (Config.projected k.samples) p.hubCap).steps k.capSteps 8 }
  let c := (List.range 20).foldl (fun (c : Cx) i => c.modStk i fun k =>
    { k with capSteps := (shareTurn (Config.projected k.watts) p.stackCap).steps k.capSteps 10 }) c
  s.go (if r.2 && g.idleSteps ≥ 10 then
      c.pwrEv 0x9004 1 c.master [proj / 4, c.gov.admission, c.hubFraction .A, c.hubFraction .B]
    else c)

/-! ### Supplies (R396 to R398) -/

/-- Home stack and rail kind of a stack rail (Table 15.7): 0 VDD_BASE, 1 VDD_BAON, 2 VPP, 3 VDD_DRAM. -/
def stackRail (d : Side) (rail : Nat) : Option (Nat × Nat) :=
  if 16 ≤ rail ∧ rail < 56 then some (10 * d.num + (rail - 16) / 4, (rail - 16) % 4) else none

/-- The same for the rails that a die's reading lumps together: every home stack. -/
def stackRails (d : Side) (rail : Nat) : List (Nat × Nat) :=
  let all (k : Nat) : List (Nat × Nat) := (List.range 10).map fun n => (10 * d.num + n, k)
  match stackRail d rail, rail with
  | some x, _ => [x]
  | none, 10 => all 0
  | none, 2 => all 1
  | none, 3 => all 2
  | none, 4 => all 3
  | none, _ => []

def readRail (k : Die) (rail mv : Nat) : Die := { k with rails := kput k.rails rail mv }

/-- RAIL_WARNING (R397): a rail crosses its warning level and stays above reset: a hold starts, or starts again. -/
def execRailWarning (d : Side) (rail mv : Nat) (s : State) : R :=
  let c := s.cx
  if !(c.die d).aon then s.go c
  else
    let c := match (c.die d).hold with
      | some _ => c
      | none => c.bump (pwrBase d + 0x60) 31 d
    s.go (c.modDie d fun k =>
      let h := match k.hold with
        | some h => { h with minMv := min h.minMv mv, crossings := h.crossings + 1 }
        | none => { rail := rail, minMv := mv, crossings := 1, usBelow := 0 }
      { readRail k rail mv with
        warn := if rail ≤ 10 then nput k.warn rail else k.warn, below := nput k.below rail, hold := some h
        minRail := h.rail, minMv := h.minMv })

/-- RAIL_ABOVE_WARNING (R397): a rail rises above warning again after `us` below it. -/
def execRailAboveWarning (d : Side) (rail us : Nat) (s : State) : R :=
  s.go (s.cx.modDie d fun k =>
    if k.below.contains rail then
      { k with below := ndel k.below rail, hold := k.hold.map fun h => { h with usBelow := h.usBelow + us } }
    else k)

/-- Commits of a die's stacks that wait now. -/
def Cx.heldCommits (c : Cx) (d : Side) : Nat :=
  (c.wins.filter fun p => (c.owner (winStack p.1) = d || c.master = d)
    && (match p.2.st with | .committing _ => true | _ => false)).length

/-- DIP_HOLD_END (R397): the hold ends; with the rail still below warning the held commits are deferred. -/
def execDipHoldEnd (d : Side) (s : State) : R :=
  let c := s.cx
  match (c.die d).hold with
  | none => s.go c
  | some h =>
    let defer := !(c.die d).below.isEmpty
    let n := if defer then c.heldCommits d else 0
    s.go ((c.modDie d fun k => { k with hold := none, deferred := k.deferred || defer }).pwrEv 0x9002 1 d
      [d.num, h.rail, h.minMv, h.crossings, h.usBelow, n])

/-- DEFERRED_COMMIT_RELEASE (R397): the rail has stayed above warning for a further 1 ms. -/
def execDeferredCommitRelease (d : Side) (s : State) : R :=
  s.go (s.cx.modDie d fun k => if k.below.isEmpty then { k with deferred := false } else k)

/-- A base die is reset: its units hold nothing any more, and outside self-refresh the stack's contents are lost (R320). -/
def Cx.resetBase (c : Cx) (s : Nat) : Cx :=
  let refreshing := (c.die (homeDie s)).power == .frost
  let c := { c with
    acc := c.acc.filter fun p => winStack (accWin p.1) != s
    newts := c.newts.map fun p : Nat × Newt => if p.1 / 32 = s then
      (p.1, { ({} : Newt) with retired := p.2.retired, store := p.2.newStore.getD p.2.store }) else p }
  let c := ((c.stopForRebuild s).endStopped s).modStk s fun k => { k with
    grants := [], grantQueue := [], admission := {}, refreshing := [], eccRows := [] }
  if refreshing then c else c.loseStack s 0

/-- The hub core of a die loses its supply (R398): its twin fences it with cause supply. -/
def Cx.hubDown (c : Cx) (d : Side) : Cx :=
  if (c.die d).core then (c.dropAlive d 2 [0, 0]).stopCore d else c

/-- UCIe modules of a die go down. -/
def Cx.modulesDown (c : Cx) (d : Side) : Cx := { c with modules := c.modules.filter fun p => moduleDie p.1 != d }

/-- Every link of a die goes down: fabric, PCIe, UCIe, stack links and the bridge. -/
def Cx.linksDown (c : Cx) (d : Side) : Cx :=
  let c := c.modulesDown d
  let c := (List.range 20).foldl (fun (c : Cx) s => c.modStk s fun k =>
    if homeDie s = d then { k with primary := 0 } else { k with standby := 0 }) c
  { c with bridge := false }

/-- Power-on reset of a hub die, always-on domain included. With both dies in it, the complex starts afresh. -/
def Cx.powerOnReset (c : Cx) (d : Side) : Cx :=
  let c := ((c.stopCore d).modulesDown d).modDie d fun _ => { suspectCause := 2 }
  let own (o : Nat) : Bool := decide (pwrBase d ≤ o ∧ o < pwrBase d + 0x8000)
  let c := { c with bridge := false, regs := c.regs.filter fun p => !own p.1, ctrs := c.ctrs.filter fun p => !own p.1 }
  if (c.die d.twin).aon then c else { c.resetAll with dieA := {}, dieB := {}, regs := [], ctrs := [], modules := [] }

/-- Effect of one rail at its reset level (R398). -/
def Cx.railEffect (c : Cx) (d : Side) (rail : Nat) : Cx :=
  match rail with
  | 0 | 1 => c.powerOnReset d
  | 5 => c.hubDown d
  | 6 => ((c.modulesDown d).modDie d fun k => { k with shell := false }).modDie d.twin fun k => { k with relay := false }
  | 7 | 8 => (c.linksDown d).hubDown d
  | 9 => c.modDie d fun k => { k with slowUp := false }
  | _ => (stackRails d rail).foldl (fun (c : Cx) x => if x.2 = 0 then c.resetBase x.1 else c.loseStack x.1 1) c

/-- A reset-level crossing: `PWR_SUPPLY_RESET` and its effect. -/
def Cx.railDown (c : Cx) (d : Side) (rail mv : Nat) : Cx :=
  ((c.modDie d fun k => readRail k rail mv).pwrEv 0x9003 3 d [d.num, rail, mv]).railEffect d rail

/-- RAIL_RESET (R398). -/
def execRailReset (d : Side) (rail mv : Nat) (s : State) : R :=
  if (s.cx.die d).aon then s.go (s.cx.railDown d rail mv) else s.go s.cx

/-- PG_IN_FALL (R398): with PWR_REQ high, every rail of the second group crosses its reset level. -/
def execPgInFall (d : Side) (s : State) : R :=
  let c := s.cx.modDie d fun k => { k with pgIn := false }
  if (s.cx.die d).pwrReq && (s.cx.die d).power != .frost then
    s.go ([5, 6, 7, 8, 9, 10].foldl (fun (c : Cx) r => c.railDown d r (kget 0 (c.die d).rails r)) c)
  else s.go c

/-- HUB_TEMPERATURE (R395): thresholds 105 °C and 115 °C, released 2 °C below. -/
def execHubTemperature (d : Side) (t : Byte) (s : State) : R :=
  let c := s.cx
  let x : Int := t.toInt
  let k := c.die d
  let hot := decide (105 ≤ x) || (k.thermal && decide (103 < x))
  let trip := decide (115 ≤ x) || (k.thermal115 && decide (113 < x))
  let c := c.modDie d fun k => { k with temp := x, thermal := hot, thermal115 := trip }
  let c := if hot && !k.thermal then c.pwrEv 0x9005 1 d [d.num, t.toNat] else c
  if trip && !k.thermal115 then
    s.go ((c.pwrEv 0x9005 2 d [d.num, t.toNat]).railDown d 5 (kget 0 k.rails 5))
  else s.go c

/-! ### Start-up (R400, R401) -/

/-- The hub bridge trains as soon as both dies are in Thaw or Run. -/
def Cx.trainBridge (c : Cx) : Cx :=
  let up (k : Die) : Bool := (k.power == .thaw || k.power == .run) && !k.fenced && k.aon
  if up c.dieA && up c.dieB then { c with bridge := true } else c

/-- AON_RST_N_RELEASE (R400): straps are sampled, fuses loaded, and PWR_REQ rises. -/
def execAonRstRelease (d : Side) (straps : Straps) (s : State) : R :=
  let c := s.cx
  if (c.die d).aon then s.go c
  else
    let c := c.modDie d fun k => { k with
      aon := true, power := .frost, smbAddr := straps.smbAddr, imgAccept := straps.imgAccept, pwrReq := true }
    s.go (if d = .A then { c with fab := { c.fab with uid := straps.uid } } else c)

/-- PG_IN_RISE (R400): the second group is in regulation: the PLLs lock and the die is in Thaw. -/
def execPgInRise (d : Side) (s : State) : R :=
  let c := s.cx.modDie d fun k => { k with pgIn := true }
  if (c.die d).aon && (c.die d).pwrReq && (c.die d).power == .frost then
    s.go ((c.setPower d .thaw (c.die d).wakeCause).trainBridge)
  else s.go c

/-- Failed lanes of a link that trained, none when it did not. -/
def lanes? (l : List (Fin 20 × Nat)) (s : Nat) : Option Nat := (l.find? fun p => p.1.val = s).map (·.2)

/-- The links of a stack as this die's training left them: primary links of its home stacks, standby links of its twin's. -/
def Cx.trainStack (d : Side) (t : Trained) (c : Cx) (s : Nat) : Cx :=
  if homeDie s = d then
    match lanes? t.primary s with
    | some n => c.modStk s fun k => { k with trained := true, primary := (trainedState false n).1, sparePrimary := (trainedState false n).2
                                             onStandby := false, retrainP := false }
    | none => c.modStk s fun k => { k with trained := false, primary := 0 }
  else
    match lanes? t.standby s with
    | some n => c.modStk s fun k => { k with standby := (trainedState true n).1, spareStandby := (trainedState true n).2, retrainS := false }
    | none => c.modStk s fun k => { k with standby := 0 }

/-- A mask of a list of numbers. -/
def maskOf (l : List Nat) : Nat := (l.foldl nput []).foldl (fun a i => a + 2 ^ i) 0

/-- STARTUP_DONE (R400): what trained, and Run. Channels that fail their self-test are retired (R313). -/
def execStartupDone (d : Side) (t : Trained) (s : State) : R :=
  let c := s.cx
  if (c.die d).power != .thaw || (c.die d).core || (c.die d).fenced then s.go c
  else
    let c := c.modDie d fun k => { k with
      core := true, coreAlive := true, shell := true, stale := false, twinSt := .paired
      slowType := t.slowType.toNat, slowPos := t.positions.toNat, slowGib := t.gib.toNat, slowRate := t.slowRate.toNat
      slowUp := true }
    let c := (List.range 20).foldl (Cx.trainStack d t) c
    let c := (t.badChannels.filter fun g => homeDie (g.val / 32) = d).foldl (fun (c : Cx) g =>
      c.retireChannel (g.val / 32) (g.val % 32) 1) c
    let c := if t.slowRate != 0#2 && t.slowType != 0#2 then
        (List.range 8).foldl (fun (c : Cx) i => if bit t.positions.toNat i then
          c.ev 0x600B 8 1 d d.num [d.num, i, t.slowRate.toNat] else c) c
      else c
    let c := ((List.range 12).filter fun p => portDie p = d).foldl (fun (c : Cx) p =>
      c.modFp p fun q => { q with st := .training, bootstrap := true }) c
    let c := ((c.setPower d .run (c.die d).wakeCause).trainBridge).trainPcie d
    let c := if c.coreUp .A then c.rolesHome else { c with master := .B }
    s.go (c.pwrEv 0x9006 0 d [d.num, maskOf (t.primary.map (·.1.val)), t.positions.toNat, maskOf (t.modules.map (·.val)),
      t.ms]).resumeCheck

/-! ### Resets (R402) -/

/-- AON_RST_N_ASSERT (R402): power-on reset of the whole hub die. -/
def execAonRstAssert (d : Side) (s : State) : R := s.go (s.cx.powerOnReset d)

/-- TILE_RST_N (R402): the complex reset. -/
def execTileRst (s : State) : R := s.go s.cx.resetAll

/-- Port reset (R93): PCIe state, HST_ and EVT_ registers; the ring is disabled. -/
def Cx.resetPort (c : Cx) (d : Side) : Cx := c.modPort d fun q => { ({} : Port) with perst := q.perst }

/-- PERST_N (R401, R402): low resets the endpoint; high starts link training, and leaves Frost. -/
def execPerst (port : Side) (high : Bool) (s : State) : R :=
  let c := s.cx
  if !high then s.go ((c.resetPort port).modPort port fun q => { q with perst := false })
  else
    let c := c.modPort port fun q => { q with perst := true }
    s.go ((if (c.die port).power == .frost && (c.die port).aon then c.leaveFrost 7 else c).trainPcie port)

end Sys2Proof.Machine
end

