-- ==== Sys2Proof/Machine/Telemetry.lean ====
section
/-!
DEFINITION. Telemetry (R105, R106): the idle-or-busy counters of a hub die, their snapshots, and the always-on tick.
-/
namespace Sys2Proof.Machine

/-- Place of an idle cause in Table 4.10. -/
def IdleCause.num : IdleCause → Nat
  | .powerCap => 0
  | .refresh => 1
  | .fabricCredit => 2
  | .peerCommit => 3
  | .norm => 4
  | .gradients => 5
  | .host => 6
  | .other => 7

/-- Offsets within the HUB_ block of the live counters, in the order of HUB_TELEM_OVF: the nine idle-or-busy counters, the
six stall counts and the six stall tick counts (Table 4.10). -/
def telemOffsets : List Nat :=
  (List.range 9).map (fun i => 0x200 + 8 * i) ++ (List.range 6).map (fun i => 0x300 + 16 * i)
    ++ (List.range 6).map fun i => 0x308 + 16 * i

/-- Every live counter and overflow flag of the die into its snapshot copy. -/
def Cx.snapshot (c : Cx) (d : Side) : Cx :=
  let all := telemOffsets.map fun o => (o, c.ctr (hubBase d + o))
  c.modDie d fun k => { k with
    snap := all.foldl (fun m p => kset 0 m p.1 p.2.val) []
    snapOvf := all.foldl (fun m p => kset false m p.1 p.2.ovf) [] }

/-- Every live counter and flag of the die cleared together (R12). -/
def Cx.telemClear (c : Cx) (d : Side) : Cx := telemOffsets.foldl (fun (c : Cx) o => c.ctrClear (hubBase d + o)) c

/-- TELEMETRY_SNAP (R106): with clear written too, the clear follows the snapshot in the same tick. -/
def execTelemetrySnap (d : Side) (clear : Bool) (s : State) : R :=
  let c := s.cx
  if !c.serves d then s.go c
  else
    let c := c.snapshot d
    s.go (if clear then c.telemClear d else c)

/-- TELEMETRY_CLEAR (R106). -/
def execTelemetryClear (d : Side) (s : State) : R :=
  if s.cx.serves d then s.go (s.cx.telemClear d) else s.go s.cx

/-- Causes for which the demand of a channel waits: the stack's grants are all out, or the channel refreshes. -/
def Cx.channelCauses (c : Cx) (g : Nat) : List IdleCause :=
  let s := g / 32
  let fresh := (c.stk s).refreshing.contains (g % 32)
  (if c.channelDemand g && !c.hasGrant g && !fresh && c.grantLimit s ≤ (c.grantsHeld s).length then [.powerCap] else [])
    ++ (if fresh || (c.newt g).suspended then [.refresh] else [])

/-- Causes for which a window of a SPECULATE or DIRECT UPDATE waits: statistics or the verdict, both of which follow the
global norm; its commit; or the channels that its pass reads. -/
def Cx.windowCauses (c : Cx) (w : Nat) : List IdleCause :=
  match c.win? w with
  | none => []
  | some v =>
    (if c.statsWait w v then [.norm] else [])
      ++ (match v.st with | .committing _ => [.peerCommit] | .specReady _ => [.norm] | _ => [])
      ++ (if v.pass.isSome then (List.range 32).flatMap fun i => c.channelCauses (winStack w * 32 + i) else [])

/-- Causes for which a command that has not ended waits: what its newts and its windows wait for now, or the cause with
which it last waited. -/
def Cx.flightCauses (c : Cx) (st : StreamId) (f : Flight) : List IdleCause :=
  if f.op = 0x51 && f.phase = 1 then
    (c.newts.filter fun p => (p.2.job.bind (·.origin)).any fun o => o.1 = st && o.2.1 = f.number).flatMap fun p =>
      c.channelCauses p.1
  else if f.op = 0x23 && f.phase = 1 && f.mode != 2 then
    (f.wins.filter fun p => p.2 == .todo).flatMap fun p => c.windowCauses p.1
  else f.why.toList

/-- Causes for which some waiting command of the die qualifies. -/
def Cx.waitCauses (c : Cx) (d : Side) : List IdleCause :=
  (c.streams.filter fun p => p.2.serving = some d).flatMap fun p =>
    ((p.2.flights.filter fun f => f.status.isNone).flatMap (c.flightCauses (BitVec.ofNat 12 p.1)))
      ++ (if p.2.fetching then [.host] else [])

/-- Offset of the counter that a tick without progress belongs to: the first cause in table order, else other. -/
def Cx.idleCounter (c : Cx) (d : Side) : Nat :=
  0x200 + 8 * ((c.waitCauses d).map IdleCause.num).foldl min IdleCause.other.num

/-- A governor limit is in force (Table 15.7). -/
def Cx.governed (c : Cx) (d : Side) : Bool := decide (c.gov.admission < 20) || decide (0 < (c.die d).hubSteps)

/-- TELEMETRY_TICK (R105): one 40 ns tick of a die's always-on clock. In Run and Thaw exactly one idle-or-busy counter
counts it. The complex's tick count follows hub die A's clock while that die is powered (log entry 41). -/
def execTelemetryTick (d : Side) (progress : Bool) (s : State) : R :=
  let c := s.cx
  if !(c.die d).aon then s.go c
  else
    let c := if d = .A || !c.dieA.aon then { c with ticks := c.ticks + 1 } else c
    let c := if c.governed d then c.bump (pwrBase d + 0x64) 31 d else c
    let counts := c.coreUp d && ((c.die d).power == .run || (c.die d).power == .thaw)
    s.go (if counts then c.bump (hubBase d + (if progress then 0x240 else c.idleCounter d)) 64 d else c)

end Sys2Proof.Machine
end

