-- ==== Sys2Proof/Machine/Registers.lean ====
section
/-!
DEFINITION. The register map of BAR0 as reads and writes see it, and the accesses of the host: registers, the aperture
and the function level reset (chapter 4 and the register tables of every chapter).
-/
namespace Sys2Proof.Machine

/-- The effect of a command that a register write starts. -/
def Cx.does (c : Cx) (f : State → R) : Cx :=
  match f { pending := [], cx := c } with
  | .next s => s.cx
  | _ => c

/-! ### Blocks (Table 4.4) -/

/-- A block of BAR0, with its instance. -/
inductive Blk where
  | hst | evt | table | pba
  | pwr (d : Side)
  | hub (d : Side)
  | fab (p : Fin 12)
  | upd (s : Fin 20)
  | stk (s : Fin 20)
  | nwt (g : Fin 640)
  deriving DecidableEq, Repr

/-- Instance n of a block of so many. -/
def fin? (n m : Nat) : Option (Fin n) := if h : m < n then some ⟨m, h⟩ else none

/-- The block that an offset lies in, and the offset within it. -/
def blockOf (off : Nat) : Option (Blk × Nat) :=
  if off < 0x10000 then some (.hst, off)
  else if off < 0x20000 then some (.evt, off - 0x10000)
  else if off < 0x30000 then some (.pwr (Side.ofNum (off / 0x8000)), off % 0x8000)
  else if off < 0x40000 then some (.hub (Side.ofNum (off / 0x8000)), off % 0x8000)
  else if off < 0x100000 then (fin? 12 ((off - 0x40000) / 0x1000)).map fun p => (.fab p, off % 0x1000)
  else if off < 0x200000 then (fin? 20 ((off - 0x100000) / 0x1000)).map fun s => (.upd s, off % 0x1000)
  else if off < 0x400000 then (fin? 20 ((off - 0x200000) / 0x4000)).map fun s => (.stk s, off % 0x4000)
  else if off < 0x1F00000 then (fin? 640 ((off - 0x400000) / 0x100)).map fun g => (.nwt g, off % 0x100)
  else if off < 0x1F01000 then some (.table, off - 0x1F00000)
  else some (.pba, off - 0x1F01000)

/-! ### Reachability (R96) -/

/-- A port reaches a hub die: it is the port's own, or its core answers over the bridge. -/
def Cx.reaches (c : Cx) (p d : Side) : Bool := d = p || (c.bridge && c.serves d)

/-- Hub die that holds the HUB_IMAGE_ registers of the complex (R18, R103). -/
def Cx.imgDie (c : Cx) : Side := if c.coreUp .A then .A else .B

/-- Hub die that holds the registers of a stack: its owner. For the complex-wide HUB_ registers it is the die that acts for
the complex (R103, R304, R326). -/
def Cx.holder (c : Cx) (p : Side) (b : Blk) (o : Nat) : Side :=
  match b with
  | .hst | .evt | .table | .pba => p
  | .pwr d => d
  | .hub d =>
    if o < 0x34 && o != 0x2C then c.imgDie else if complexWide o then c.master else d
  | .fab q => portDie q
  | .upd s | .stk s => c.owner s
  | .nwt g => c.owner (g.val / 32)

/-- The stack behind a register can be reached: one of its links trained and it is not in link reset. The link registers
themselves are held by the owner. -/
def Cx.linked (c : Cx) (b : Blk) (o : Nat) : Bool :=
  match b with
  | .upd s => c.stackUp s
  | .stk s => o = 0x000 || o = 0x004 || o = 0x04C || c.stackUp s
  | .nwt g => c.stackUp (g.val / 32)
  | _ => true

def Cx.reachable (c : Cx) (p : Side) (b : Blk) (o : Nat) : Bool :=
  (match b with
   | .hub d => c.reaches p d
   | _ => true) && c.reaches p (c.holder p b o) && c.linked b o

/-! ### Reading (Tables 4.5 to 4.12 and the tables of each chapter) -/

/-- A field at a bit position. -/
def fldAt (v lo : Nat) : Nat := v * 2 ^ lo

def flagAt (b : Bool) (lo : Nat) : Nat := fldAt (b2n b) lo

def low32 (v : Nat) : Nat := v % 2 ^ 32
def high32 (v : Nat) : Nat := v / 2 ^ 32 % 2 ^ 32

/-- Offset o within an array of n entries of z bytes from base: the entry and the offset within it. -/
def entry? (base n z o : Nat) : Option (Nat × Nat) :=
  if base ≤ o ∧ o < base + n * z then some ((o - base) / z, (o - base) % z) else none

/-- A 31-bit counter with its overflow flag in bit [31] (R211, R237, R273, R304, R330, R360). -/
def Cx.ctr31 (c : Cx) (off : Nat) : Nat := (c.ctr off).val + flagAt (c.ctr off).ovf 31

/-- A 63-bit counter as two registers, the flag in bit [31] of the high one (R237, R304). -/
def Cx.ctr63 (c : Cx) (off : Nat) (high : Bool) : Nat :=
  if high then high32 (c.ctr off).val + flagAt (c.ctr off).ovf 31 else low32 (c.ctr off).val

def Cx.readHst (c : Cx) (p : Side) (o : Nat) : Option Nat :=
  let q := c.port p
  match o with
  | 0x000 => some (0xA020 + fldAt 0x01 16)
  | 0x004 => some (fldAt 0x01 8 + fldAt 0x02 24)
  | 0x008 => some (p.num + flagAt (c.master = p) 1 + flagAt (c.bridge && !(c.die p.twin).fenced) 2
      + flagAt (c.die p.twin).fenced 3 + fldAt (c.die p).power.num 4)
  | 0x00C => some (b2n q.driverReady)
  | 0x010 => some (b2n q.remoteUnreachable + flagAt q.dropped 1 + flagAt (decide (q.lanes < 16 ∨ q.rate < 64)) 2)
  | 0x018 => some (low32 q.aperture.toNat)
  | 0x01C => some (high32 q.aperture.toNat)
  | _ => none

def Cx.readEvt (c : Cx) (p : Side) (o : Nat) : Option Nat :=
  let g := (c.port p).ring
  match o with
  | 0x000 => some (low32 g.base.toNat)
  | 0x004 => some (high32 g.base.toNat)
  | 0x008 => some (b2n g.enable + fldAt g.size 8)
  | 0x00C => some (g.tail + flagAt g.phase 16)
  | 0x010 => some g.head
  | 0x014 => some (g.irqCount + fldAt g.holdoff 16)
  | 0x018 => some g.lost.val
  | 0x01C => some (b2n g.full + flagAt g.lost.ovf 1 + fldAt (min 1023 g.heldCount) 2)
  | 0x020 => some (low32 g.lastSeq.toNat)
  | 0x024 => some (high32 g.lastSeq.toNat)
  | _ => none

/-- Rail readings: the rails of Table 15.3, and those of the home stacks (Table 15.7). -/
def railOk (i : Nat) : Bool := decide (i ≤ 10 ∨ (16 ≤ i ∧ i < 56))

def Cx.readPwr (c : Cx) (d : Side) (o : Nat) : Option Nat :=
  let k := c.die d
  match o with
  | 0x000 => some k.power.num
  | 0x004 => some (bits (c.reg (pwrBase d + 4)).toNat 1 0 + flagAt k.dewPending 4)
  | 0x008 => some (k.wakeCause + fldAt k.thawUs 16)
  | 0x00C => some (average c.gov.samples % 65536 + fldAt (average k.samples % 65536) 16)
  | 0x010 => some (c.gov.admission + fldAt (c.hubFraction d) 8 + flagAt k.hold.isSome 13 + flagAt k.thermal 14)
  | 0x014 => some (maskOf k.warn)
  | 0x018 => some (k.minRail + fldAt (k.minMv % 4096) 16)
  | 0x01C => some (toField 8 k.temp)
  | 0x060 | 0x064 => some (c.ctr31 (pwrBase d + o))
  | _ => match entry? 0x100 56 4 o with
    | some (i, 0) => if railOk i then some (kget 0 k.rails i % 4096) else none
    | _ => none

/-- Coding of HUB_IMAGE_STATUS.state (Table 4.9). -/
def ImgState.num : ImgState → Nat
  | .empty => 0
  | .loading => 1
  | .loaded => 2
  | .checking => 3
  | .enabled => 4
  | .refused => 5

/-- Coding of HUB_IMAGE_PARTIAL.state (Table 5.13). -/
def PartState.num : PartState → Nat
  | .none => 0
  | .loading => 1
  | .loaded => 2
  | .checking => 3
  | .applying => 4
  | .applied => 5
  | .refused => 6

/-- HUB_IMAGE_ registers and the version registers (Tables 4.9, 5.13). -/
def Cx.readImage (c : Cx) (o : Nat) : Option Nat :=
  let m := c.img
  let id := if c.enabled then (m.cfg.map fun g => g.id.toNat).getD 0 else 0
  match o with
  | 0x000 | 0x004 | 0x008 => some (c.reg (hubBase .A + o)).toNat
  | 0x00C => some (b2n (m.st == .loading || m.part == .loading) + flagAt m.enableBit 1)
  | 0x010 => some (m.st.num + fldAt m.reason 16)
  | 0x014 => some m.section_
  | 0x018 => some m.offset
  | 0x01C => some (b2n (c.die .A).imgAccept + flagAt m.autoEnable 1 + fldAt m.lastPort 8)
  | 0x020 => some (m.part.num + flagAt (m.part == .checking || m.part == .applying) 4)
  | 0x024 => some (low32 id)
  | 0x028 => some (high32 id)
  | 0x02C => some (0x02 + fldAt 0x01 8 + fldAt 0x01 16 + fldAt 0x03 24)
  | 0x030 => some (bits c.hostClaim 15 0 + fldAt m.agreedMinor 16 + flagAt m.agreed 24)
  | _ => none

/-- Telemetry: the snapshot copies and their flags (Tables 4.10, 4.11). -/
def Cx.readTelemetry (c : Cx) (d : Side) (o : Nat) : Option Nat :=
  let k := c.die d
  let flags (base step n lo : Nat) : Nat :=
    ((List.range n).map fun i => flagAt (kget false k.snapOvf (base + step * i)) (lo + i)).sum
  if o = 0x100 then some 0
  else if o = 0x104 then some (flags 0x200 8 9 0 + flags 0x300 16 6 16 + flags 0x308 16 6 24)
  else if o % 4 = 0 && telemOffsets.contains (o / 8 * 8) then
    let v := kget 0 k.snap (o / 8 * 8)
    some (if o % 8 = 0 then low32 v else high32 v)
  else none

/-- Coding of HUB_STREAM_STATUS.state (Table 6.10). -/
def StreamSt.num : StreamSt → Nat
  | .idle => 0
  | .active => 1
  | .paused => 2
  | .halted => 3
  | .reinit => 4

/-- HUB_STREAM_ registers: the selected stream, or FOREIGN and zeros (R161). -/
def Cx.readStream (c : Cx) (d : Side) (o : Nat) : Option Nat :=
  let x := c.strm (c.selected d).toNat
  let own (v : Nat) : Nat := if c.foreign d then 0 else v
  match o with
  | 0x400 => some (c.die d).sel
  | 0x404 => some (if c.foreign d then 5 else x.st.num + fldAt x.halt 16)
  | 0x408 => some (own x.next.toNat)
  | 0x40C => some (own x.done.toNat)
  | 0x410 => some (own x.gen.toNat)
  | 0x414 => some (own (b2n x.pauseBit + flagAt (x.st == .reinit) 1))
  | 0x418 => some (own x.reinitNum.toNat)
  | _ => none

/-- The norm record (Table 8.5). -/
def NormRec.read (n : NormRec) (o : Nat) : Option Nat :=
  match o with
  | 0x500 => some (low32 n.sumSq.toNat)
  | 0x504 => some (high32 n.sumSq.toNat)
  | 0x508 => some n.clip.toNat
  | 0x50C => some (low32 n.step.toNat)
  | 0x510 => some (high32 n.step.toNat)
  | 0x514 => some (b2n n.valid + flagAt n.nonfinite 1 + flagAt n.clipped 2)
  | _ => none

/-- Ledger counters and pools of the die's home stacks (Table 10.11). -/
def Cx.readLedger (c : Cx) (d : Side) (o : Nat) : Option Nat :=
  match entry? 0x600 6 4 o, entry? 0x640 10 4 o with
  | some (_, 0), _ => some (c.ctr31 (hubBase d + o))
  | _, some (i, 0) =>
    let s := 10 * d.num + i
    some (min 0x1FFF (c.freeCount s) + fldAt (min 0x1FFF (c.specSlots s).length) 13)
  | _, _ => none

/-- Slow tier and tenant keys (Table 12.9). -/
def Cx.readSlow (c : Cx) (d : Side) (o : Nat) : Option Nat :=
  let k := c.die d
  match o with
  | 0x700 => some (k.slowPos + fldAt k.slowRate 8)
  | 0x704 => some k.slowPoison.length
  | 0x708 => some (bits (c.reg (hubBase d + 0x708)).toNat 18 0 + flagAt k.marginBusy 19)
  | 0x70C => some (k.marginErrors + flagAt k.marginDone 24)
  | _ => match entry? 0x740 64 4 o, entry? 0x840 4 4 o with
    | some (_, 0), _ => some 0
    | _, some (i, 0) => some (c.slotTenant (i + 1) + flagAt (kget [] c.keys (i + 1)).isEmpty.not 16)
    | _, _ => none

/-- The fabric node (Table 13.9). -/
def Cx.readNode (c : Cx) (o : Nat) : Option Nat :=
  let f := c.fab
  match o with
  | 0x900 => some ((f.id.map BitVec.toNat).getD 0 + flagAt f.id.isSome 17 + flagAt f.root 18)
  | 0x904 => some (low32 f.rootUid.toNat)
  | 0x908 => some (high32 f.rootUid.toNat)
  | 0x90C => some f.epoch.toNat
  | 0x910 => some (f.st + fldAt f.parent 8 + fldAt (min 255 f.dist) 16)
  | 0x914 => some (low32 f.uid.toNat)
  | 0x918 => some (high32 f.uid.toNat)
  | _ => match entry? 0x1000 512 8 o, entry? 0x4000 256 8 o with
    | some (i, 0), _ => some (low32 (kget 0#64 f.group i).toNat)
    | some (i, 4), _ => some (high32 (kget 0#64 f.group i).toNat)
    | _, some (i, 0) => some (low32 (kget 0#64 f.member i).toNat)
    | _, some (i, 4) => some (high32 (kget 0#64 f.member i).toNat)
    | _, _ => none

/-- Coding of HUB_TWIN_STATUS.state (Table 14.5). -/
def TwinSt.num : TwinSt → Nat
  | .paired => 0
  | .bridgeLost => 1
  | .fencing => 2
  | .failover => 3
  | .solo => 4
  | .rejoining => 5
  | .fencedUs => 6

/-- Twin, journal and fault log (Table 14.5). -/
def Cx.readTwin (c : Cx) (d : Side) (o : Nat) : Option Nat :=
  let k := c.die d
  let adopted := ((List.range 10).map fun n => flagAt (c.owner (10 * d.twin.num + n) = d) n).sum
  match o with
  | 0xA80 => some (k.twinSt.num + flagAt (c.die d.twin).coreAlive 3 + flagAt (c.die d.twin).relay 4 + fldAt adopted 5)
  | 0xA84 => some (b2n (k.twinSt == .fencing) + flagAt (k.twinSt == .rejoining) 2)
  | 0xA88 => some (min 0x3FFFF c.journal.entries.length + flagAt (c.master = d) 18 + flagAt (!c.alone) 19)
  | 0xA8C => some (low32 c.journal.seq.toNat)
  | 0xA90 => some (high32 c.journal.seq.toNat)
  | 0xA94 => some (c.ctr31 (hubBase d + o))
  | 0xB00 => some (k.faultNext + flagAt k.faultWrapped 3)
  | _ => match entry? 0xB10 8 16 o with
    | some (n, x) =>
      let f := kget { code := 0, unit := 0, cause := 0, fencedUs := false, tick := 0 } k.faults n
      match x with
      | 0 => some (f.code % 65536 + fldAt (f.unit % 65536) 16)
      | 4 => some (f.cause % 256 + flagAt f.fencedUs 8)
      | 8 => some (low32 f.tick)
      | 12 => some (high32 f.tick)
      | _ => none
    | none => none

/-- HUB_ATT_CTX (Table 11.8). -/
def Cx.readContext (c : Cx) (o : Nat) : Option Nat :=
  match entry? 0x2000 1024 8 o with
  | some (n, 0) => some (kget (0#32, 0#32) c.attCtx n).1.toNat
  | some (n, 4) => some (bits (kget (0#32, 0#32) c.attCtx n).2.toNat 15 0)
  | _ => none

def Cx.readHub (c : Cx) (d : Side) (o : Nat) : Option Nat :=
  if o < 0x80 then c.readImage o
  else if o = 0x80 then some (bits (c.reg (hubFlagsReg d)).toNat 7 0)
  else if o < 0x400 then c.readTelemetry d o
  else if o < 0x500 then c.readStream d o
  else if o < 0x600 then (c.die d).norm.read o
  else if o < 0x700 then c.readLedger d o
  else if o < 0x900 then c.readSlow d o
  else if o < 0xA80 then c.readNode o
  else if o < 0x1000 then c.readTwin d o
  else if o < 0x2000 then c.readNode o
  else if o < 0x4000 then c.readContext o
  else c.readNode o

/-- Coding of FAB_PORT_STATUS.state (Table 13.9). -/
def LinkSt.num : LinkSt → Nat
  | .down => 0
  | .training => 1
  | .hello => 2
  | .up => 3
  | .reset => 4
  | .failed => 5

/-- FAB_ registers of a port (Table 13.9). -/
def Cx.readFab (c : Cx) (p o : Nat) : Option Nat :=
  let q := c.fp p
  match o with
  | 0x000 => some (q.st.num + flagAt q.width4 3 + flagAt q.speed56 4 + fldAt q.role 5 + flagAt q.bootstrap 7)
  | 0x004 => some (b2n (q.st == .reset) + flagAt q.force4 1 + flagAt q.force56 2)
  | 0x008 => some (low32 q.partnerUid.toNat)
  | 0x00C => some (high32 q.partnerUid.toNat)
  | 0x010 => some (q.partnerPort % 16 + fldAt ((q.partnerNode.map BitVec.toNat).getD 0) 4 + flagAt q.partnerNode.isSome 21)
  | 0x014 => some (((List.range 4).map fun i => fldAt (q.avail.getD i 0 % 256) (8 * i)).sum)
  | 0x018 => some ((q.replay.length + q.salvage.length) % 1024 + fldAt q.nextSeq.toNat 10)
  | 0x01C => some q.rxNext.toNat
  | 0x080 | 0x084 | 0x088 => some (c.reg (fabOff p o)).toNat
  | 0x08C => some (b2n q.pushing.isSome)
  | 0x090 => some (q.pushState + fldAt q.pushStatus 8)
  | _ => match entry? 0x040 8 4 o with
    | some (_, 0) => some (c.ctr31 (fabOff p o))
    | _ => none

/-- What UPD_PROGRAM says of a resident program (Table 9.11). -/
def programWord (p : List W32) : Nat :=
  let ops := p.filterMap decodeRule
  let has (f : RInstr → Bool) : Bool := ops.any f
  p.length + flagAt (has fun i => match i with | .fstat _ _ _ => true | _ => false) 8
    + flagAt (has fun i => match i with | .fac _ _ => true | _ => false) 9
    + flagAt (has fun i => match i with | .ste _ _ => true | _ => false) 10
    + flagAt (!p.isEmpty && p.all fun w => (decodeRule w).any (·.pyroOk)) 11

/-- A pass 2 of the stack waits for final statistics or under R233 (UPD_STATUS.stats_wait). -/
def Cx.statsWaiting (c : Cx) (s : Nat) : Bool := c.wins.any fun p => winStack p.1 = s && c.statsWait p.1 p.2

/-- UPD_STATUS.state: PASS1, the prologue and re-initialisation take one step each, so only pass 2 is seen running. -/
def Cx.updState (c : Cx) (s : Nat) : Nat := if c.engineDemand s then 2 else 0

/-- UPD_ registers of a stack (Tables 4.9, 8.6, 9.11). -/
def Cx.readUpd (c : Cx) (s o : Nat) : Option Nat :=
  let e := (c.stk s).engine
  match o with
  | 0x000 => some (bits (c.reg (updFlagsReg s)).toNat 7 0)
  | 0x010 => some (c.updState s + flagAt (c.statsWaiting s) 3 + flagAt e.pyro 4)
  | 0x014 => some e.tensor
  | 0x018 => some 0
  | 0x060 | 0x064 | 0x804 | 0x808 | 0x80C => some (c.ctr31 (updBase s + o))
  | 0x070 => some ((c.img.cfg.map fun g => if c.enabled then g.stashEnd else 0).getD 0)
  | 0x074 => some ((c.img.cfg.map fun g => if c.enabled then g.statRows else 0).getD 0)
  | 0x800 => some ((c.accEntries s).length + fldAt (c.accWindows s).length 18)
  | _ => match entry? 0x020 8 4 o, entry? 0x040 4 8 o with
    | some (n, 0), _ => some (programWord (kget [] e.rules n))
    | _, some (n, 0) => some (c.ctr63 (updBase s + 0x040 + 8 * n) false)
    | _, some (n, 4) => some (c.ctr63 (updBase s + 0x040 + 8 * n) true)
    | _, _ => none

/-- Fewest spare rows left in any bank of a channel. -/
def Stack.sparesMin (k : Stack) (ch : Nat) : Nat :=
  (k.spares.filter fun p => p.1 % 32 = ch).foldl (fun m p => min m p.2) 16

/-- STK_ registers of a stack (Table 12.8). -/
def Cx.readStk (c : Cx) (s o : Nat) : Option Nat :=
  let k := c.stk s
  let r (x : Nat) : Nat := (c.reg (stkBase s + x)).toNat
  match o with
  | 0x000 => some (k.primary + fldAt k.standby 2 + flagAt k.onStandby 4 + flagAt k.linkReset 5 + fldAt k.sparePrimary 8
      + fldAt k.spareStandby 16)
  | 0x004 => some (b2n k.retrainP + flagAt k.retrainS 1 + flagAt k.marginBusy 2)
  | 0x008 => some (r 0x008)
  | 0x00C => some (k.marginErrors + flagAt k.marginDone 24)
  | 0x010 => some (toField 8 ((k.temps.map (·.2)).foldl max ((k.temps.head?.map (·.2)).getD 0)) + fldAt k.row 8)
  | 0x014 => some (k.retired.getD 0 + flagAt k.retired.isSome 5 + flagAt k.rebuilding 6 + flagAt k.spareExhausted 7
      + flagAt k.lost 8)
  | 0x018 => some (bits (r 0x018) 4 0 + flagAt (k.rebuilding && !k.lost) 8)
  | 0x01C => some k.progress
  | 0x020 => some (min 262144 k.log.length)
  | 0x040 | 0x044 | 0x048 | 0x04C => some (c.ctr31 (stkBase s + o))
  | _ => match entry? 0x100 32 4 o with
    | some (n, 0) => some (kget 0 k.ceChan n + fldAt (k.sparesMin n) 16)
    | _ => none

/-- NWT_ registers of a newt (Tables 4.9, 11.8). -/
def Cx.readNwt (c : Cx) (g o : Nat) : Option Nat :=
  let n := c.newt g
  match o with
  | 0x000 => some (b2n n.ready + flagAt n.mode 1 + flagAt n.window.isSome 2 + flagAt n.wait.isSome 3 + flagAt n.suspended 4
      + flagAt n.chainWait 5 + flagAt (c.hasGrant g) 6 + flagAt n.retired 7)
  | 0x004 => some (bits (c.reg (nwtFlagsReg g)).toNat 7 0)
  | 0x008 => some (n.window.getD 0)
  | 0x00C => some n.lastTag.toNat
  | 0x010 => some (n.error % 256 + flagAt n.errorValid 8)
  | 0x014 => some 0
  | 0x018 => some (low32 n.poisonOff)
  | 0x020 | 0x028 => some (c.ctr63 (nwtBase g + o) false)
  | 0x024 | 0x02C => some (c.ctr63 (nwtBase g + o - 4) true)
  | 0x030 | 0x034 => some (c.ctr31 (nwtBase g + o))
  | 0x0C0 => some 0
  | _ => match entry? 0x040 32 4 o with
    | some (_, 0) => some (c.reg (nwtBase g + o)).toNat
    | _ => none

/-- The MSI-X table: 64 entries of address, upper address, data and vector control (R88, R90). -/
def Cx.readTable (c : Cx) (p : Side) (o : Nat) : Option Nat :=
  let q := c.port p
  match entry? 0 64 16 o with
  | some (n, 12) => some (b2n (q.masked.contains n))
  | some (_, x) => if x % 4 = 0 then some (kget 0#32 q.table (o / 4)).toNat else none
  | none => none

/-- The pending-bit array. -/
def Cx.readPba (c : Cx) (p : Side) (o : Nat) : Option Nat :=
  let m := maskOf (c.port p).pending
  match o with
  | 0 => some (low32 m)
  | 4 => some (high32 m)
  | _ => none

/-- The value that a 32-bit read finds; none at an offset that no register table defines. -/
def Cx.readReg (c : Cx) (p : Side) (b : Blk) (o : Nat) : Option Nat :=
  match b with
  | .hst => c.readHst p o
  | .evt => c.readEvt p o
  | .pwr d => c.readPwr d o
  | .hub d => c.readHub d o
  | .fab q => c.readFab q o
  | .upd s => c.readUpd s o
  | .stk s => c.readStk s o
  | .nwt g => c.readNwt g o
  | .table => c.readTable p o
  | .pba => c.readPba p o

/-- Is the register a counter with RC fields, kept at its BAR0 offset? -/
def isRc (b : Blk) (o : Nat) : Bool :=
  match b with
  | .pwr _ => o = 0x060 || o = 0x064
  | .hub _ => (entry? 0x600 6 4 o).isSome || o = 0xA94
  | .fab _ => (entry? 0x040 8 4 o).isSome
  | .upd _ => o = 0x060 || o = 0x064 || o = 0x804 || o = 0x808 || o = 0x80C
  | .stk _ => (entry? 0x040 4 4 o).isSome
  | .nwt _ => o = 0x030 || o = 0x034
  | _ => false

/-- The RC fields that a read clears (R9, R12). -/
def Cx.afterRead (c : Cx) (p : Side) (b : Blk) (o off : Nat) : Cx :=
  match b with
  | .evt => if o = 0x018 then c.modPort p fun q => { q with ring := { q.ring with lost := {} } } else c
  | .stk s => match entry? 0x100 32 4 o with
    | some (n, 0) => c.modStk s fun k => { k with ceChan := kdel k.ceChan n }
    | _ => if isRc b o then c.ctrClear off else c
  | _ => if isRc b o then c.ctrClear off else c

/-! ### Writing -/

/-- Clear the bits of a W1C register that are written 1. -/
def Cx.w1c (c : Cx) (off : Nat) (v : W32) : Cx := c.setReg off (c.reg off &&& ~~~v)

/-- A write of HUB_IMAGE_ state while the image is enabled is mirrored state: it goes through the journal (Table 14.1). -/
def Cx.noteImage (c : Cx) : Cx := if c.enabled then c.submit c.master (.image 2) else c

/-- HUB_IMAGE_CTRL: load, then a change of enable. -/
def Cx.writeImageCtrl (c : Cx) (d : Side) (v : Nat) : Cx :=
  let c := if bit v 0 then c.does (execImageLoad d) else c
  if bit v 1 && (!c.img.enableBit || c.img.st == .checking) then c.does (execImageEnable d)
  else if bit v 1 then c
  else if c.img.enableBit then
    if c.enabled then c.does (execImageDisable d) else c.hostDrop d 0 (hubBase d + 0x0C) 4 true
  else c

/-- The newest contents of an attention context, records on their way included. -/
def Cx.contextNow (c : Cx) (n : Nat) : W32 × W32 :=
  let mine (e : JEntry) : Option (W32 × W32) := match e.body with
    | .context m t x => if m = n && !e.acked then some (t, x) else none
    | _ => none
  (((c.journal.entries ++ c.journal.queue).filterMap mine).getLast?).getD (kget (0#32, 0#32) c.attCtx n)

/-- HUB_ATT_CTX: while an image is enabled the change goes through the journal (R365). -/
def Cx.writeContext (c : Cx) (n x : Nat) (v : W32) : Cx :=
  let e := c.contextNow n
  let e := if x = 0 then (v, e.2) else (e.1, v &&& 0xFFFF#32)
  if c.enabled then c.submit c.master (.context n e.1 e.2) else { c with attCtx := kput c.attCtx n e }

/-- HUB_STREAM_CTRL and HUB_STREAM_REINIT_NUM (R161, R162). -/
def Cx.writeStream (c : Cx) (d : Side) (o : Nat) (v : W32) : Cx :=
  if o = 0x400 then c.modDie d fun k => { k with sel := bits v.toNat 11 0 }
  else if o != 0x414 && o != 0x418 then c
  else if c.foreign d then c.hostAccess d 0 (hubBase d + o) 4 true
  else if o = 0x418 then c.modStrm (c.selected d).toNat fun x => { x with reinitNum := v }
  else
    let c := if bit v.toNat 0 then c.does (execStreamPause d) else c
    if bit v.toNat 1 then c.does (execStreamReinit d) else c

/-- HUB_TWIN_CTRL. The outcome of a rejoin's self-test and of the bridge's training comes with the command REJOIN (log entry
42). -/
def Cx.writeTwin (c : Cx) (d : Side) (v : Nat) : Cx :=
  let c := if bit v 0 then c.does (execFenceTwin d) else c
  let c := if bit v 1 then c.does (execResetTwin d) else c
  let c := if bit v 2 then c.startRejoin d else c
  if bit v 3 then c.does (execResetComplex d (BitVec.ofNat 8 (bits v 15 8))) else c

/-- HUB_TENANT_SLOT: the tenant, and clear (R326). -/
def Cx.writeSlot (c : Cx) (i : Fin 4) (v : W32) : Cx :=
  let c := c.setReg (slotReg (i.val + 1)) (v &&& 0x3FFF#32)
  if bit v.toNat 17 then c.does (execTenantSlotClear i) else c

def Cx.writeHub (c : Cx) (d : Side) (o : Nat) (v : W32) : Cx :=
  let n := v.toNat
  match o with
  | 0x000 | 0x004 | 0x008 => (c.setReg (hubBase .A + o) v).noteImage
  | 0x00C => c.writeImageCtrl d n
  | 0x01C => ((c.modDie .A fun k => { k with imgAccept := bit n 0 }).setImg fun m => { m with autoEnable := bit n 1 }).noteImage
  | 0x020 => if bit n 4 then c.does (execPartialApply d) else c
  | 0x030 => (c.setReg (hubBase .A + o) (v &&& 0xFFFF#32)).noteImage
  | 0x080 => c.w1c (hubFlagsReg d) v
  | 0x100 =>
    if bit n 0 then c.does (execTelemetrySnap d (bit n 1)) else if bit n 1 then c.does (execTelemetryClear d) else c
  | 0x400 | 0x414 | 0x418 => c.writeStream d o v
  | 0x708 =>
    let c := c.setReg (hubBase d + 0x708) (v &&& 0x7FFFF#32)
    if bit n 19 then c.does (execSlowMargin d) else c
  | 0xA84 => c.writeTwin d n
  | 0xB00 => if bit n 3 then c.modDie d fun k => { k with faultWrapped := false } else c
  | _ => match entry? 0x740 64 4 o, entry? 0x840 4 4 o, entry? 0x2000 1024 8 o with
    | some (i, _), _, _ => c.does (execTenantKeyWrite (Fin.ofNat 4 (i / 16)) (Fin.ofNat 16 i) v)
    | _, some (i, _), _ => c.writeSlot (Fin.ofNat 4 i) v
    | _, _, some (i, x) => c.writeContext i x v
    | _, _, _ => c

/-- HST_ registers. A write of HST_CONTROL stands for the driver that has enabled bus mastering again (DESIGN CHOICE, log entry
43); records that waited for it are written (R99). -/
def Cx.writeHst (c : Cx) (p : Side) (o : Nat) (v : W32) : Cx :=
  let n := v.toNat
  match o with
  | 0x00C => (c.modPort p fun q => { q with driverReady := bit n 0, busMaster := true }).drainRing p
  | 0x010 => c.modPort p fun q => { q with remoteUnreachable := q.remoteUnreachable && !bit n 0, dropped := q.dropped && !bit n 1 }
  | 0x018 => if v = 0#32 then c else c.hostDrop p 0 0x18 4 true
  | 0x01C => c.modPort p fun q => { q with aperture := v ++ 0#32 }
  | _ => c

def Cx.writeEvt (c : Cx) (p : Side) (o : Nat) (v : W32) : Cx :=
  match o with
  | 0x000 => c.does (execEvtRingBaseWrite p false v)
  | 0x004 => c.does (execEvtRingBaseWrite p true v)
  | 0x008 => c.does (execEvtRingCtrlWrite p v)
  | 0x010 => c.does (execEvtRingHeadWrite p v)
  | 0x014 => c.modPort p fun q => { q with ring := { q.ring with irqCount := bits v.toNat 15 0, holdoff := bits v.toNat 31 16 } }
  | _ => c

def Cx.writePwr (c : Cx) (d : Side) (o : Nat) (v : W32) : Cx :=
  match o with
  | 0x004 =>
    let c := c.setReg (pwrBase d + 4) (v &&& 3#32)
    if bit v.toNat 4 then c.does (execPwrCtrlGo d) else c
  | 0x014 => c.modDie d fun k => { k with warn := k.warn.filter fun i => !bit v.toNat i }
  | _ => c

def Cx.writeFab (c : Cx) (p : Fin 12) (o : Nat) (v : W32) : Cx :=
  match o with
  | 0x004 =>
    let c := c.modFp p fun q => { q with force4 := bit v.toNat 1, force56 := bit v.toNat 2 }
    if bit v.toNat 0 && (c.fp p).st != .reset then c.does (execFabPortReset p) else c
  | 0x080 | 0x084 | 0x088 => c.setReg (fabOff p o) v
  | 0x08C => if bit v.toNat 0 then c.does (execFabPushGo p) else c
  | _ => c

def Cx.writeUpd (c : Cx) (s : Fin 20) (o : Nat) (v : W32) : Cx :=
  match o with
  | 0x000 => c.w1c (updFlagsReg s) v
  | 0x018 =>
    let c := if bit v.toNat 0 then c.does (execUpdReinit s) else c
    if bit v.toNat 1 then c.does (execUpdClearCounters s) else c
  | _ => c

def Cx.writeStk (c : Cx) (s : Fin 20) (o : Nat) (v : W32) : Cx :=
  match o with
  | 0x004 =>
    let c := if bit v.toNat 0 then c.does (execRetrainPrimary s) else c
    let c := if bit v.toNat 1 then c.does (execRetrainStandby s) else c
    if bit v.toNat 2 then c.does (execMargin s) else c
  | 0x008 => c.setReg (stkBase s + 8) v
  | 0x018 =>
    let c := c.setReg (stkBase s + 0x18) (v &&& 0x1F#32)
    if bit v.toNat 8 then c.does (execChannelRetire s) else c
  | _ => c

def Cx.writeNwt (c : Cx) (g : Fin 640) (o : Nat) (v : W32) : Cx :=
  match o with
  | 0x004 => c.w1c (nwtFlagsReg g) v
  | 0x010 => if bit v.toNat 8 then c.modNewt g fun n => { n with errorValid := false } else c
  | 0x014 =>
    let c := if bit v.toNat 0 then c.does (execNwtReinit g) else c
    if bit v.toNat 1 then c.does (execNwtClearCounters g) else c
  | 0x0C0 => c.does (execNwtGo g v)
  | _ => match entry? 0x040 32 4 o with
    | some (_, 0) => c.setReg (nwtBase g + o) v
    | _ => c

/-- The MSI-X table: a vector control word masks or unmasks its vector, which sends its pending message. -/
def Cx.writeTable (c : Cx) (p : Side) (o : Nat) (v : W32) : Cx :=
  match entry? 0 64 16 o with
  | some (n, 12) =>
    if bit v.toNat 0 then c.modPort p fun q => { q with masked := nput q.masked n }
    else c.does (execMsixUnmask p (some (Fin.ofNat 64 n)))
  | _ => c.modPort p fun q => { q with table := kset 0#32 q.table (o / 4) v }

/-- A 32-bit write of a defined register: RO, RC and reserved bits ignore what is written (R8). -/
def Cx.writeReg (c : Cx) (p : Side) (b : Blk) (o : Nat) (v : W32) : Cx :=
  match b with
  | .hst => c.writeHst p o v
  | .evt => c.writeEvt p o v
  | .pwr d => c.writePwr d o v
  | .hub d => c.writeHub d o v
  | .fab q => c.writeFab q o v
  | .upd s => c.writeUpd s o v
  | .stk s => c.writeStk s o v
  | .nwt g => c.writeNwt g o v
  | .table => c.writeTable p o v
  | .pba => c

/-! ### Accesses of BAR0 (R7, R89, R96) -/

/-- An access whose owner is unreachable (R96). -/
def Cx.remoteLost (c : Cx) (p : Side) (off : Nat) : Cx :=
  (c.modPort p fun q => { q with remoteUnreachable := true }).ev 0x0003 11 1 p p.num [off]

/-- One 32-bit write of BAR0. -/
def Cx.write32 (c : Cx) (p : Side) (off : Nat) (v : W32) : Cx :=
  match blockOf off with
  | none => c.hostDrop p 0 off 4 true
  | some (b, o) =>
    if (c.readReg p b o).isNone then c.hostDrop p 0 off 4 true
    else if c.reachable p b o then c.writeReg p b o v
    else c.remoteLost p off

/-- One 32-bit read of BAR0: its value, zero where the access is dropped or its owner unreachable. -/
def Cx.read32 (c : Cx) (p : Side) (off : Nat) : Cx × W32 :=
  match blockOf off with
  | none => (c.hostDrop p 0 off 4 false, 0#32)
  | some (b, o) =>
    match c.readReg p b o with
    | none => (c.hostDrop p 0 off 4 false, 0#32)
    | some v => if c.reachable p b o then (c.afterRead p b o off, BitVec.ofNat 32 v) else (c.remoteLost p off, 0#32)

/-- REGISTER_WRITE (R7): a write of BAR0. A 64-bit write is two 32-bit ones, the lower address first. -/
def execRegisterWrite (p : Side) (off : BitVec 25) (size : Nat) (v : W64) (s : State) : R :=
  let c := s.cx
  let o := off.toNat
  let lo := v.setWidth 32
  if !c.serves p then s.go c
  else if size = 4 && o % 4 = 0 then s.go (c.write32 p o lo)
  else if size = 8 && o % 8 = 0 then s.go ((c.write32 p o lo).write32 p (o + 4) (BitVec.ofNat 32 (v.toNat / 2 ^ 32)))
  else s.go (c.hostDrop p 0 o size true)

/-- READ_CLEAR (R7, R9): a read of BAR0; an RC field clears as it is read. -/
def execReadClear (p : Side) (off : BitVec 25) (size : Nat) (s : State) : R :=
  let c := s.cx
  let o := off.toNat
  if !c.serves p then s.go c
  else if size = 4 && o % 4 = 0 then
    let r := c.read32 p o
    s.go (r.1.emit (.read p (leBytes 4 r.2.toNat)))
  else if size = 8 && o % 8 = 0 then
    let r := c.read32 p o
    let t := r.1.read32 p (o + 4)
    s.go (t.1.emit (.read p (leBytes 4 r.2.toNat ++ leBytes 4 t.2.toNat)))
  else s.go ((c.hostDrop p 0 o size false).emit (.read p (List.replicate size 0#8)))

/-! ### The aperture (R94, R95, R97) -/

/-- APERTURE_BASE_WRITE (R97). -/
def execApertureBaseWrite (p : Side) (high : Bool) (v : W32) (s : State) : R :=
  if s.cx.serves p then s.go (s.cx.writeHst p (if high then 0x1C else 0x18) v) else s.go s.cx

/-- Device address behind an aperture offset. -/
def Cx.apertureAddr (c : Cx) (p : Side) (off : W32) : Nat := (c.port p).aperture.toNat + off.toNat

/-- The answer of a read that has no effect: zeros of the access size. -/
def Cx.answerZeros (c : Cx) (p : Side) (n : Nat) : Cx := c.emit (.read p (List.replicate n 0#8))

/-- APERTURE_ACCESS (R94): a BAR4 read or write, checked as a one-operand command; reads are debug reads (R86). Memory that
cannot be reached now is answered as an unreachable register (log entry 44). -/
def execApertureAccess (p : Side) (off : W32) (size : Nat) (write : Option (List Byte)) (s : State) : R :=
  let c := s.cx
  let a := c.apertureAddr p off
  let n := (write.map List.length).getD size
  let k : Acc := if write.isSome then .write else .debug
  let none_ (c : Cx) : Cx := if write.isSome then c else c.answerZeros p n
  if !c.serves p then s.go c
  else if bits a 63 60 = 4 || (c.checkRange k a n).isSome then s.go (none_ (c.addrInvalid p 1 0#12 0#32 0 a))
  else if (c.unreachable? p a).isSome then s.go (none_ (c.remoteLost p off.toNat))
  else match write with
    | some bs => s.go (c.accessWrite a bs)
    | none =>
      let r := c.accessRead a n
      s.go (r.1.emit (.read p r.2))

/-! ### Function level reset (R93) -/

/-- FUNCTION_LEVEL_RESET (R93): HST_ and EVT_ registers and the function's PCIe state return to their reset values; the
link stays up, and bus mastering is off. -/
def execFunctionLevelReset (p : Side) (s : State) : R :=
  let q := s.cx.port p
  if s.cx.coreUp p then
    s.go ((s.cx.resetPort p).modPort p fun r => { r with up := q.up, lanes := q.lanes, rate := q.rate })
  else s.go s.cx

end Sys2Proof.Machine
end

