-- ==== Sys2Proof/Machine/Mgmt.lean ====
section
/-!
DEFINITION. SMBus management (R107, R108) and the test access port (R109, R110).
-/
namespace Sys2Proof.Machine

/-! ### SMBus -/

def smbOk : Byte := 0x00#8
def smbBusy : Byte := 0x01#8
def smbRefused : Byte := 0x02#8

/-- One SMBus transaction of a die: none while it is unpowered, a NACK on a PEC error. -/
def Cx.smbus (c : Cx) (d : Side) (pec : Bool) (f : Cx → Cx) : Cx :=
  if !(c.die d).aon then c else if pec then f c else c.emit (.nack d)

/-- A response: status byte, then data. -/
def Cx.reply (c : Cx) (d : Side) (status : Byte) (data : List Byte) : Cx := c.emit (.smbus d (status :: data))

/-- Bytes of a register of the die's own port. -/
def Cx.regBytes (c : Cx) (d : Side) (b : Blk) (o : Nat) : List Byte := leBytes 4 ((c.readReg d b o).getD 0)

/-- GET_ID (Table 4.12): HST_ID, HST_IF_VERSION. -/
def execGetId (d : Side) (pec : Bool) (s : State) : R :=
  s.go (s.cx.smbus d pec fun c => c.reply d smbOk (c.regBytes d .hst 0x000 ++ c.regBytes d .hst 0x004))

/-- GET_STATE (Table 4.12): HST_DIE, PWR_STATE, HUB_IMAGE_STATUS. -/
def execGetState (d : Side) (pec : Bool) (s : State) : R :=
  s.go (s.cx.smbus d pec fun c => c.reply d smbOk
    (c.regBytes d .hst 0x008 ++ c.regBytes d (.pwr d) 0x000 ++ c.regBytes d (.hub d) 0x010))

/-- Highest temperature of a stack's channels. -/
def Stack.maxTemp (k : Stack) : Int := (k.temps.map (·.2)).foldl max ((k.temps.head?.map (·.2)).getD 0)

/-- GET_TEMP (Table 4.12): the ten home stacks and the die, one signed byte each, and the stale flag in byte 12. -/
def execGetTemp (d : Side) (pec : Bool) (s : State) : R :=
  s.go (s.cx.smbus d pec fun c => c.reply d smbOk
    (((List.range 10).map fun i => BitVec.ofInt 8 (c.stk (10 * d.num + i)).maxTemp) ++ [BitVec.ofInt 8 (c.die d).temp]
      ++ [BitVec.ofNat 8 (b2n (c.die d).stale)]))

/-- GET_POWER (Table 4.12): tile power averaged over 1 ms. -/
def execGetPower (d : Side) (pec : Bool) (s : State) : R :=
  s.go (s.cx.smbus d pec fun c => c.reply d smbOk (leBytes 2 (average c.gov.samples)))

/-- GET_EVENT_SUMMARY (Table 4.12): the arbiter's newest sequence number and its count of severity-3 events. -/
def execGetEventSummary (d : Side) (pec : Bool) (s : State) : R :=
  s.go (s.cx.smbus d pec fun c => c.reply d smbOk
    (leBytes 8 (if c.arb.seq = 0#64 then 0 else (c.arb.seq - 1#64).toNat) ++ leBytes 2 (kget 0 c.arb.sev3 0)))

/-- REQUEST_POWER_STATE (R387, R390). -/
def execRequestPowerState (d : Side) (pec : Bool) (target : Byte) (s : State) : R :=
  s.go (s.cx.smbus d pec fun c =>
    if target.toNat = 2 || target.toNat > 3 then c.reply d smbRefused []
    else
      let r := c.requestPower d target.toNat 5
      r.1.reply d (if r.2.isSome then smbRefused else smbOk) [])

/-- The PWR_ block, which answers without a fast clock. -/
def Blk.isPwr : Blk → Bool
  | .pwr _ => true
  | _ => false

/-- An access that needs a fast clock finds it running; in Dew it starts Thaw (R108, R389). -/
def Cx.clocked (c : Cx) (d : Side) (b : Blk) (f : Cx → Cx) : Cx :=
  if b.isPwr || (c.die d).power == .run then f c else (c.wake d 5).reply d smbBusy []

/-- Blocks that REG_READ reaches (R108). -/
def Blk.smbReads : Blk → Bool
  | .hst | .evt | .pwr _ | .hub _ => true
  | _ => false

/-- Registers that REG_WRITE reaches (R108). -/
def Blk.smbWrites (b : Blk) (o : Nat) : Bool :=
  match b with
  | .pwr _ => true
  | .hub _ => o = 0x100
  | _ => false

/-- REG_READ (R108). -/
def execRegRead (d : Side) (pec : Bool) (off : W32) (s : State) : R :=
  s.go (s.cx.smbus d pec fun c =>
    match blockOf off.toNat with
    | some (b, o) =>
      if !b.smbReads || off.toNat % 4 != 0 || (c.readReg d b o).isNone then c.reply d smbRefused []
      else c.clocked d b fun c =>
        let r := c.read32 d off.toNat
        r.1.reply d smbOk (leBytes 4 r.2.toNat)
    | none => c.reply d smbRefused [])

/-- REG_WRITE (R108). -/
def execRegWrite (d : Side) (pec : Bool) (off v : W32) (s : State) : R :=
  s.go (s.cx.smbus d pec fun c =>
    match blockOf off.toNat with
    | some (b, o) =>
      if !b.smbWrites o || off.toNat % 4 != 0 || (c.readReg d b o).isNone then c.reply d smbRefused []
      else c.clocked d b fun c => (c.write32 d off.toNat v).reply d smbOk []
    | none => c.reply d smbRefused [])

/-! ### Test access (R109, R110) -/

/-- Codes of the test access port's instructions in the model's state. -/
def jtagBypass : Nat := 0

/-- R110: while the image is enabled or the hub core is out of reset, everything but BYPASS, IDCODE and SAMPLE/PRELOAD is
decoded as BYPASS. -/
def Cx.jtag (c : Cx) (d : Side) (instr : Nat) : Cx :=
  if !(c.die d).aon then c
  else
    let locked := c.enabled || (c.die d).core
    c.modDie d fun k => { k with jtag := if locked && decide (2 < instr) then jtagBypass else instr }

/-- BYPASS (R109). -/
def execBypass (d : Side) (s : State) : R := s.go (s.cx.jtag d 0)

/-- The IDCODE: version 0x1, part 0xA020, manufacturer field 0x4D3 (R109). -/
def idcode : W32 := 0x1A0209A7#32

/-- IDCODE (R109): the code leaves on TDO. -/
def execIdcode (d : Side) (s : State) : R :=
  let c := s.cx.jtag d 1
  s.go (if (c.die d).aon then c.emit (.tdo d idcode) else c)

/-- SAMPLE/PRELOAD (R109). -/
def execSamplePreload (d : Side) (s : State) : R := s.go (s.cx.jtag d 2)

/-- EXTEST (R110). -/
def execExtest (d : Side) (s : State) : R := s.go (s.cx.jtag d 3)

/-- CLAMP (R110). -/
def execClamp (d : Side) (s : State) : R := s.go (s.cx.jtag d 4)

/-- HIGHZ (R110). -/
def execHighz (d : Side) (s : State) : R := s.go (s.cx.jtag d 5)

/-- WRAPPER_SELECT (R109, R110): reaches the IEEE 1500 wrappers of the hub die and of its home stacks' base dies. -/
def execWrapperSelect (d : Side) (s : State) : R := s.go (s.cx.jtag d 6)

end Sys2Proof.Machine
end

