-- ==== Sys2Proof/Machine/Tadpole.lean ====
section
/-!
DEFINITION. Tadpole programs (R296, R297): the start of a TADPOLE job and one meaning per tadpole instruction. An
instruction's row acts when it is the instruction that the running program of the channel's newt has reached.
-/
namespace Sys2Proof.Machine

/-! ### The program and its place -/

/-- Pointer loaded from an operand field (R285, R296). -/
def Cx.loadPtr (c : Cx) (g : Nat) (j : Job) (field : Nat) : Option Ptr :=
  if j.f field 8 = 0 then none
  else
    let r := j.ref field
    (c.ptrBounds g r).map fun b => { scratch := r.scratch, off := r.off, fmt := r.fmt, lo := b.1, hi := b.2 }

/-- TADPOLE_JOB (R296): a TADPOLE job begins at its start instruction with its pointers loaded. -/
def execTadpoleJob (ch : Fin 640) (s : State) : R :=
  let c := s.cx
  match (c.newt ch).job with
  | none => s.go c
  | some j =>
    if j.kind != 2 || (c.newt ch).tad.isSome then s.go c
    else
      let t : Tad := { pc := bits j.count 7 0, a := ptrFields.map (c.loadPtr ch j) ++ [none, none, none] }
      s.go (c.modNewt ch fun n => { n with tad := some t })

/-- What one instruction does: the newt, its job, the registers and the complex. -/
abbrev TadSem := Nat → Job → Tad → Cx → Cx

/-- Run one instruction when the program has reached exactly it and the newt may go on. -/
def Cx.tadStep (c : Cx) (g : Nat) (i : TInstr) (f : TadSem) : Cx :=
  let n := c.newt g
  match n.job, n.tad with
  | some j, some t => if j.kind = 2 && !n.suspended && n.instr? t == some i then f g j t c else c
  | _, _ => c

/-- Continue after an instruction with new registers. -/
def Cx.tadNext (c : Cx) (g : Nat) (t : Tad) : Cx := c.modNewt g fun n => { n with tad := some { t with pc := t.pc + 1 } }

/-- R297: the job ends at once with error 0x09. -/
def Cx.tadFault (c : Cx) (g : Nat) (t : Tad) (p : Nat) (off : Int) : Cx :=
  ((c.newtEv 0x5005 2 g [t.pc, p, toField 32 off]).taint g).endJob g (some 9) stPoison

/-- An access of 64 elements through a pointer: a fault, a wait for a grant, or the reference to use. -/
inductive Access where
  | fault (off : Int)
  | wait
  | go (p : Ptr) (r : ORef)
  deriving DecidableEq, Repr

def Cx.access (c : Cx) (g : Nat) (t : Tad) (a : BitVec 3) : Access :=
  match t.ptr a with
  | none => .fault 0
  | some p =>
    if !p.within (64 * fmtSize p.fmt) then .fault p.off
    else if !p.scratch && !c.hasGrant g then .wait
    else .go p ⟨p.scratch, p.off.toNat, p.fmt⟩

/-- A pointer moved by a number of elements. -/
def Ptr.move (p : Ptr) (n : Int) : Ptr := { p with off := p.off + n * fmtSize p.fmt }

def Tad.advance (t : Tad) (a : BitVec 3) (adv : Bool) : Tad :=
  if adv then t.setPtr a ((t.ptr a).map fun p => p.move 64) else t

/-! ### Loads and stores -/

def semLdv (f1 f2 : BitVec 3) (adv : Bool) : TadSem := fun g _ t c =>
  match c.access g t f2 with
  | .fault o => c.tadFault g t f2.toNat o
  | .wait => c.settleGrant g
  | .go _ r =>
    let v := c.load g r 0 64 (c.newt g).fx
    (c.keepFx g t.pc v.2).tadNext g ((t.setX f1 v.1).advance f2 adv)

/-- LDV (R296). -/
def execTLdv (ch : Fin 640) (f1 f2 : BitVec 3) (adv : Bool) (s : State) : R :=
  s.go (s.cx.tadStep ch (.ldv f1 f2 adv) (semLdv f1 f2 adv))

def semStv (f1 f2 : BitVec 3) (adv rto : Bool) : TadSem := fun g _ t c =>
  match c.access g t f2 with
  | .fault o => c.tadFault g t f2.toNat o
  | .wait => c.settleGrant g
  | .go _ r =>
    let out := (t.xreg f1).map fun v => outBytes (if r.fmt > 5 then 5 else r.fmt) rto v
    let x := (c.newt g).fx.flag ((out.map (·.2)).foldl (· ||| ·) 0#8)
    ((c.newtWrite g r.scratch r.off (out.flatMap (·.1)) x.bad).keepFx g t.pc x).tadNext g (t.advance f2 adv)

/-- STV (R296). -/
def execTStv (ch : Fin 640) (f1 f2 : BitVec 3) (adv rto : Bool) (s : State) : R :=
  s.go (s.cx.tadStep ch (.stv f1 f2 adv rto) (semStv f1 f2 adv rto))

def semDot (f1 f2 f3 : BitVec 3) (lane : BitVec 6) (adv : Bool) : TadSem := fun g _ t c =>
  match c.access g t f2, c.access g t f3 with
  | .fault o, _ => c.tadFault g t f2.toNat o
  | _, .fault o => c.tadFault g t f3.toNat o
  | .go _ r, .go _ q =>
    let a := c.load g r 0 64 (c.newt g).fx
    let b := c.load g q 0 64 a.2
    let d := b.2.dot ((t.xreg f1).getD lane.toNat 0#32) a.1 b.1 r.off
    (c.keepFx g t.pc d.2).tadNext g (((t.setX f1 ((t.xreg f1).set lane.toNat d.1)).advance f2 adv).advance f3 adv)
  | _, _ => c.settleGrant g

/-- TADPOLE_DOT (R296): DOT of Table 11.7. -/
def execTDot (ch : Fin 640) (f1 f2 f3 : BitVec 3) (lane : BitVec 6) (adv : Bool) (s : State) : R :=
  s.go (s.cx.tadStep ch (.dot f1 f2 f3 lane adv) (semDot f1 f2 f3 lane adv))

/-! ### Lane arithmetic -/

/-- Lane-wise result of up to three registers, its flags and NaNs kept; a computed NaN names no channel offset, so
its element is open (log entry 15). -/
def semLanes (f1 : BitVec 3) (f : Tad → Nat → JobFx → W32 × JobFx) : TadSem := fun g _ t c =>
  let o := c.drawOpen 0x51
  let c := o.2
  let r := (List.range 64).foldl (fun (p : List W32 × JobFx) j =>
    let v := f t j p.2
    (p.1 ++ [v.1], v.2)) (([] : List W32), (c.newt g).fx)
  let x := { r.2 with nans := r.2.nans.map fun _ => o.1.toNat % 2 ^ 32 }
  (c.keepFx g t.pc x).tadNext g (t.setX f1 r.1)

def Tad.lane (t : Tad) (r : BitVec 3) (j : Nat) : W32 := (t.xreg r).getD j 0#32

def vecOp2 (f : W32 → W32 → W32 × Flags) (f2 f3 : BitVec 3) (t : Tad) (j : Nat) (x : JobFx) : W32 × JobFx :=
  x.op2 f (t.lane f2 j) (t.lane f3 j) 0

/-- VADD (R296). -/
def execTVadd (ch : Fin 640) (f1 f2 f3 : BitVec 3) (s : State) : R :=
  s.go (s.cx.tadStep ch (.vec .vadd f1 f2 f3) (semLanes f1 (vecOp2 f32Add f2 f3)))

/-- VSUB (R296). -/
def execTVsub (ch : Fin 640) (f1 f2 f3 : BitVec 3) (s : State) : R :=
  s.go (s.cx.tadStep ch (.vec .vsub f1 f2 f3) (semLanes f1 (vecOp2 f32Sub f2 f3)))

/-- VMUL (R296). -/
def execTVmul (ch : Fin 640) (f1 f2 f3 : BitVec 3) (s : State) : R :=
  s.go (s.cx.tadStep ch (.vec .vmul f1 f2 f3) (semLanes f1 (vecOp2 f32Mul f2 f3)))

/-- xf1 = xf2 × xf3 + xf1 with one rounding. -/
def vecFma (f1 f2 f3 : BitVec 3) (t : Tad) (j : Nat) (x : JobFx) : W32 × JobFx :=
  let a := t.lane f2 j
  let b := t.lane f3 j
  let d := t.lane f1 j
  let r := newtOp3 f32Fma a b d
  (r.1, (x.flag r.2).nan (produces r.1 [a, b, d]) 0)

/-- VFMA (R296). -/
def execTVfma (ch : Fin 640) (f1 f2 f3 : BitVec 3) (s : State) : R :=
  s.go (s.cx.tadStep ch (.vec .vfma f1 f2 f3) (semLanes f1 (vecFma f1 f2 f3)))

/-- VDIV (R296). -/
def execTVdiv (ch : Fin 640) (f1 f2 f3 : BitVec 3) (s : State) : R :=
  s.go (s.cx.tadStep ch (.vec .vdiv f1 f2 f3) (semLanes f1 (vecOp2 f32Div f2 f3)))

/-- VMAX (R296): MAX of Table 9.4. -/
def execTVmax (ch : Fin 640) (f1 f2 f3 : BitVec 3) (s : State) : R :=
  s.go (s.cx.tadStep ch (.vec .vmax f1 f2 f3) (semLanes f1 (vecOp2 f32Max f2 f3)))

/-- VMIN (R296): MIN of Table 9.4. -/
def execTVmin (ch : Fin 640) (f1 f2 f3 : BitVec 3) (s : State) : R :=
  s.go (s.cx.tadStep ch (.vec .vmin f1 f2 f3) (semLanes f1 (vecOp2 f32Min f2 f3)))

/-- VEXP (R276, R296). -/
def execTVexp (ch : Fin 640) (f1 f2 : BitVec 3) (s : State) : R :=
  s.go (s.cx.tadStep ch (.vexp f1 f2) (semLanes f1 fun t j x => x.exp (t.lane f2 j)))

/-- Every lane of a register takes one value. -/
def semFill (f1 : BitVec 3) (f : Tad → JobFx → W32 × JobFx) : TadSem := fun g _ t c =>
  let o := c.drawOpen 0x51
  let c := o.2
  let r := f t (c.newt g).fx
  let x := { r.2 with nans := r.2.nans.map fun _ => o.1.toNat % 2 ^ 32 }
  (c.keepFx g t.pc x).tadNext g (t.setX f1 (List.replicate 64 r.1))

/-- RMAX (R296): the largest lane, under MAX of Table 9.4. -/
def execTRmax (ch : Fin 640) (f1 f2 : BitVec 3) (s : State) : R :=
  s.go (s.cx.tadStep ch (.rmax f1 f2) (semFill f1 fun t x =>
    ((t.xreg f2).drop 1).foldl (fun (p : W32 × JobFx) v => p.2.max p.1 v) ((t.xreg f2).headD 0#32, x)))

/-- RSUM (R204, R296). -/
def execTRsum (ch : Fin 640) (f1 f2 : BitVec 3) (s : State) : R :=
  s.go (s.cx.tadStep ch (.rsum f1 f2) (semFill f1 fun t x => newtTree 7 x (t.xreg f2) 0))

/-- BCAST (R296). -/
def execTBcast (ch : Fin 640) (f1 f2 : BitVec 3) (lane : BitVec 6) (s : State) : R :=
  s.go (s.cx.tadStep ch (.bcast f1 f2 lane) (semFill f1 fun t x => (t.lane f2 lane.toNat, x)))

/-- A lane rounded to a format and widened back. -/
def vecRound (fmt : BitVec 3) (f2 : BitVec 3) (t : Tad) (j : Nat) (x : JobFx) : W32 × JobFx :=
  let b := outBytes fmt.toNat false (t.lane f2 j)
  let v := widen fmt.toNat (leNat b.1)
  (v.1, x.flag (b.2 ||| v.2))

/-- VRND (R296). -/
def execTVrnd (ch : Fin 640) (f1 f2 fmt : BitVec 3) (s : State) : R :=
  s.go (s.cx.tadStep ch (.vrnd f1 f2 fmt) (semLanes f1 (vecRound fmt f2)))

/-- A lane kept where xf2 is below xf3. -/
def vecKeep (f1 f2 f3 : BitVec 3) (t : Tad) (j : Nat) (x : JobFx) : W32 × JobFx :=
  let a := flush (t.lane f2 j)
  let b := flush (t.lane f3 j)
  (if (f32Num a.1).lt (f32Num b.1) then t.lane f1 j else 0#32, x.flag (a.2 ||| b.2 ||| cmpFlags false a.1 b.1))

/-- VKEEP (R296). -/
def execTVkeep (ch : Fin 640) (f1 f2 f3 : BitVec 3) (s : State) : R :=
  s.go (s.cx.tadStep ch (.vkeep f1 f2 f3) (semLanes f1 (vecKeep f1 f2 f3)))

/-! ### Counters, pointers and control -/

def semSets (f1 : BitVec 3) (imm : BitVec 17) : TadSem := fun g _ t c => c.tadNext g (t.setS f1 (imm.setWidth 32))

/-- SETS (R296). -/
def execTSets (ch : Fin 640) (f1 : BitVec 3) (imm : BitVec 17) (s : State) : R :=
  s.go (s.cx.tadStep ch (.sets f1 imm) (semSets f1 imm))

def semAdda (f1 : BitVec 3) (imm : BitVec 17) : TadSem := fun g _ t c =>
  c.tadNext g (t.setPtr f1 ((t.ptr f1).map fun p => p.move imm.toInt))

/-- ADDA (R296). -/
def execTAdda (ch : Fin 640) (f1 : BitVec 3) (imm : BitVec 17) (s : State) : R :=
  s.go (s.cx.tadStep ch (.adda f1 imm) (semAdda f1 imm))

def semSeta (f1 f2 : BitVec 3) : TadSem := fun g _ t c => c.tadNext g (t.setPtr f1 (t.ptr f2))

/-- SETA (R296). -/
def execTSeta (ch : Fin 640) (f1 f2 : BitVec 3) (s : State) : R := s.go (s.cx.tadStep ch (.seta f1 f2) (semSeta f1 f2))

def semLoop (f1 : BitVec 3) (target : BitVec 8) : TadSem := fun g _ t c =>
  let v := t.sreg f1 - 1#32
  let t := t.setS f1 v
  if v = 0#32 then c.tadNext g t else c.modNewt g fun n => { n with tad := some { t with pc := target.toNat } }

/-- LOOP (R296). -/
def execTLoop (ch : Fin 640) (f1 : BitVec 3) (target : BitVec 8) (s : State) : R :=
  s.go (s.cx.tadStep ch (.loop f1 target) (semLoop f1 target))

/-! ### The chain and the mist generator -/

def semCsend (f1 : BitVec 3) (k : BitVec 7) : TadSem := fun g _ t c =>
  let d := c.neighbour true g
  if (c.newt d).takesRecord then
    (c.modNewt d fun m => { m with arriving := some ⟨(t.xreg f1).take k.toNat, (c.newt g).fx.bad⟩ }).tadNext g t
  else c

/-- CSEND (R295, R296): waits while the successor can take no record. -/
def execTCsend (ch : Fin 640) (f1 : BitVec 3) (n : BitVec 7) (s : State) : R :=
  s.go (s.cx.tadStep ch (.csend f1 n) (semCsend f1 n))

def semCrecv (f1 : BitVec 3) : TadSem := fun g _ t c =>
  match (c.newt g).buffer with
  | none => c.modNewt g fun n => { n with chainWait := true }
  | some r =>
    let c := c.modNewt g fun n => { n with buffer := none, chainWait := false }
    let c := if r.poison then c.taint g else c
    (c.tadNext g (t.setX f1 ((r.vals.take 64) ++ List.replicate (64 - r.vals.length) 0#32))).resumeSender g

/-- CRECV (R295, R296). -/
def execTCrecv (ch : Fin 640) (f1 : BitVec 3) (s : State) : R := s.go (s.cx.tadStep ch (.crecv f1) (semCrecv f1))

def semRand (f1 : BitVec 3) (purpose : BitVec 4) : TadSem := fun g j t c =>
  c.tadNext g (t.setX f1 ((List.range 64).map fun i =>
    let e := (j.elemBase + 64 * (t.sreg 7#3).toNat + i) % 2 ^ 48
    natToF32 (mistSlice j.seed (newtCounter j.layer j.microBatch (0x12 + purpose.toNat) e) e)))

/-- RAND (R292, R296). -/
def execTRand (ch : Fin 640) (f1 : BitVec 3) (purpose : BitVec 4) (s : State) : R :=
  s.go (s.cx.tadStep ch (.rand f1 purpose) (semRand f1 purpose))

def semEnd : TadSem := fun g _ _ c => c.closeJob g

/-- END (R297). -/
def execTEnd (ch : Fin 640) (s : State) : R := s.go (s.cx.tadStep ch .end_ semEnd)

end Sys2Proof.Machine
end

