-- ==== Sys2Proof/Machine/Dispatch.lean ====
section
/-!
DEFINITION. The one dispatch of commands to their meanings: one arm per constructor, each a direct call.
-/
namespace Sys2Proof.Machine

/-- The effect of a command on everything but the queue. -/
def exec (i : Instr) (s : State) : Host.Outcome State Fault Refusal :=
  match i with
  | .nop st => Sys2Proof.Machine.execNop st s
  | .copy st => Sys2Proof.Machine.execCopy st s
  | .signal st => Sys2Proof.Machine.execSignal st s
  | .wait st => Sys2Proof.Machine.execWait st s
  | .signalRemote st => Sys2Proof.Machine.execSignalRemote st s
  | .fence st => Sys2Proof.Machine.execFence st s
  | .flushRange st => Sys2Proof.Machine.execFlushRange st s
  | .gather st => Sys2Proof.Machine.execGather st s
  | .drain st => Sys2Proof.Machine.execDrain st s
  | .pass1 st => Sys2Proof.Machine.execPass1 st s
  | .update st => Sys2Proof.Machine.execUpdate st s
  | .exportW st => Sys2Proof.Machine.execExportW st s
  | .importW st => Sys2Proof.Machine.execImportW st s
  | .reduceScatter st => Sys2Proof.Machine.execReduceScatter st s
  | .allGather st => Sys2Proof.Machine.execAllGather st s
  | .norm st => Sys2Proof.Machine.execNorm st s
  | .digestExchange st => Sys2Proof.Machine.execDigestExchange st s
  | .queuePush st => Sys2Proof.Machine.execQueuePush st s
  | .queuePop st => Sys2Proof.Machine.execQueuePop st s
  | .offload st => Sys2Proof.Machine.execOffload st s
  | .prefetch st => Sys2Proof.Machine.execPrefetch st s
  | .newtMode st => Sys2Proof.Machine.execNewtMode st s
  | .newtJob st => Sys2Proof.Machine.execNewtJob st s
  | .stageTenant st => Sys2Proof.Machine.execStageTenant st s
  | .scrubTenant st => Sys2Proof.Machine.execScrubTenant st s
  | .gradAdd m hdr vals => Sys2Proof.Machine.execGradAdd m hdr vals s
  | .gatherReq m hdr => Sys2Proof.Machine.execGatherReq m hdr s
  | .doorbell port off size write v => Sys2Proof.Machine.execDoorbell port off size write v s
  | .pollFlagRead st => Sys2Proof.Machine.execPollFlagRead st s
  | .descriptorFetch st ok => Sys2Proof.Machine.execDescriptorFetch st ok s
  | .commandFetch st ok => Sys2Proof.Machine.execCommandFetch st ok s
  | .completionWrite st delayTicks ok => Sys2Proof.Machine.execCompletionWrite st delayTicks ok s
  | .commandTimeout st number => Sys2Proof.Machine.execCommandTimeout st number s
  | .streamPause die => Sys2Proof.Machine.execStreamPause die s
  | .streamReinit die => Sys2Proof.Machine.execStreamReinit die s
  | .apertureAccess port off size write => Sys2Proof.Machine.execApertureAccess port off size write s
  | .apertureBaseWrite port high v => Sys2Proof.Machine.execApertureBaseWrite port high v s
  | .registerWrite port off size v => Sys2Proof.Machine.execRegisterWrite port off size v s
  | .readClear port off size => Sys2Proof.Machine.execReadClear port off size s
  | .functionLevelReset port => Sys2Proof.Machine.execFunctionLevelReset port s
  | .evtRingHeadWrite port v => Sys2Proof.Machine.execEvtRingHeadWrite port v s
  | .evtRingBaseWrite port high v => Sys2Proof.Machine.execEvtRingBaseWrite port high v s
  | .evtRingCtrlWrite port v => Sys2Proof.Machine.execEvtRingCtrlWrite port v s
  | .eventArrival n => Sys2Proof.Machine.execEventArrival n s
  | .irqHoldoffExpiry port => Sys2Proof.Machine.execIrqHoldoffExpiry port s
  | .nanArrival n => Sys2Proof.Machine.execNanArrival n s
  | .imageLoad die => Sys2Proof.Machine.execImageLoad die s
  | .imageLoadDone ok => Sys2Proof.Machine.execImageLoadDone ok s
  | .imageEnable die => Sys2Proof.Machine.execImageEnable die s
  | .imageInitDone => Sys2Proof.Machine.execImageInitDone s
  | .imageDisable die => Sys2Proof.Machine.execImageDisable die s
  | .partialApply die => Sys2Proof.Machine.execPartialApply die s
  | .telemetrySnap die clear => Sys2Proof.Machine.execTelemetrySnap die clear s
  | .telemetryClear die => Sys2Proof.Machine.execTelemetryClear die s
  | .telemetryTick die progress => Sys2Proof.Machine.execTelemetryTick die progress s
  | .getId die pec => Sys2Proof.Machine.execGetId die pec s
  | .getState die pec => Sys2Proof.Machine.execGetState die pec s
  | .getTemp die pec => Sys2Proof.Machine.execGetTemp die pec s
  | .getPower die pec => Sys2Proof.Machine.execGetPower die pec s
  | .getEventSummary die pec => Sys2Proof.Machine.execGetEventSummary die pec s
  | .requestPowerState die pec target => Sys2Proof.Machine.execRequestPowerState die pec target s
  | .regRead die pec off => Sys2Proof.Machine.execRegRead die pec off s
  | .regWrite die pec off v => Sys2Proof.Machine.execRegWrite die pec off v s
  | .bypass die => Sys2Proof.Machine.execBypass die s
  | .idcode die => Sys2Proof.Machine.execIdcode die s
  | .samplePreload die => Sys2Proof.Machine.execSamplePreload die s
  | .extest die => Sys2Proof.Machine.execExtest die s
  | .clamp die => Sys2Proof.Machine.execClamp die s
  | .highz die => Sys2Proof.Machine.execHighz die s
  | .wrapperSelect die => Sys2Proof.Machine.execWrapperSelect die s
  | .testRawWrite ch off data => Sys2Proof.Machine.execTestRawWrite ch off data s
  | .pass2Start w => Sys2Proof.Machine.execPass2Start w s
  | .pass2End w => Sys2Proof.Machine.execPass2End w s
  | .commitRemap w => Sys2Proof.Machine.execCommitRemap w s
  | .stashCopyDone w => Sys2Proof.Machine.execStashCopyDone w s
  | .slotRelease stk slot => Sys2Proof.Machine.execSlotRelease stk slot s
  | .statsCombine tensor => Sys2Proof.Machine.execStatsCombine tensor s
  | .windowDrain w => Sys2Proof.Machine.execWindowDrain w s
  | .updReinit stk => Sys2Proof.Machine.execUpdReinit stk s
  | .updClearCounters stk => Sys2Proof.Machine.execUpdClearCounters stk s
  | .rAdd at_ d a b q => Sys2Proof.Machine.execRAdd at_ d a b q s
  | .rSub at_ d a b q => Sys2Proof.Machine.execRSub at_ d a b q s
  | .rMul at_ d a b q => Sys2Proof.Machine.execRMul at_ d a b q s
  | .rFma at_ d a b c q => Sys2Proof.Machine.execRFma at_ d a b c q s
  | .rFnma at_ d a b c q => Sys2Proof.Machine.execRFnma at_ d a b c q s
  | .rDiv at_ d a b q => Sys2Proof.Machine.execRDiv at_ d a b q s
  | .rSqrt at_ d a q => Sys2Proof.Machine.execRSqrt at_ d a q s
  | .rRsqrt at_ d a q => Sys2Proof.Machine.execRRsqrt at_ d a q s
  | .rMax at_ d a b q => Sys2Proof.Machine.execRMax at_ d a b q s
  | .rMin at_ d a b q => Sys2Proof.Machine.execRMin at_ d a b q s
  | .rAbs at_ d a q => Sys2Proof.Machine.execRAbs at_ d a q s
  | .rNeg at_ d a q => Sys2Proof.Machine.execRNeg at_ d a q s
  | .rSign at_ d a q => Sys2Proof.Machine.execRSign at_ d a q s
  | .rMov at_ d a q => Sys2Proof.Machine.execRMov at_ d a q s
  | .rClt at_ d a b q => Sys2Proof.Machine.execRClt at_ d a b q s
  | .rCle at_ d a b q => Sys2Proof.Machine.execRCle at_ d a b q s
  | .rCeq at_ d a b q => Sys2Proof.Machine.execRCeq at_ d a b q s
  | .rPand at_ d a b q => Sys2Proof.Machine.execRPand at_ d a b q s
  | .rPor at_ d a b q => Sys2Proof.Machine.execRPor at_ d a b q s
  | .rPnot at_ d a q => Sys2Proof.Machine.execRPnot at_ d a q s
  | .rLdw at_ d mst q => Sys2Proof.Machine.execRLdw at_ d mst q s
  | .rLdg at_ d q => Sys2Proof.Machine.execRLdg at_ d q s
  | .rLdm at_ d q => Sys2Proof.Machine.execRLdm at_ d q s
  | .rLdb at_ d q => Sys2Proof.Machine.execRLdb at_ d q s
  | .rFac at_ d q => Sys2Proof.Machine.execRFac at_ d q s
  | .rStw at_ a srm q => Sys2Proof.Machine.execRStw at_ a srm q s
  | .rStm at_ a srm => Sys2Proof.Machine.execRStm at_ a srm s
  | .rStb at_ a => Sys2Proof.Machine.execRStb at_ a s
  | .rSte at_ a f => Sys2Proof.Machine.execRSte at_ a f s
  | .rFstat w a b c => Sys2Proof.Machine.execRFstat w a b c s
  | .newtWindowJobWrite ch off data => Sys2Proof.Machine.execNewtWindowJobWrite ch off data s
  | .newtWindowGo ch size v => Sys2Proof.Machine.execNewtWindowGo ch size v s
  | .newtWindowScratchpad ch off size write => Sys2Proof.Machine.execNewtWindowScratchpad ch off size write s
  | .nwtGo ch tag => Sys2Proof.Machine.execNwtGo ch tag s
  | .nwtReinit ch => Sys2Proof.Machine.execNwtReinit ch s
  | .nwtClearCounters ch => Sys2Proof.Machine.execNwtClearCounters ch s
  | .dotJob ch => Sys2Proof.Machine.execDotJob ch s
  | .attendJob ch => Sys2Proof.Machine.execAttendJob ch s
  | .tadpoleJob ch => Sys2Proof.Machine.execTadpoleJob ch s
  | .chainRecord ch => Sys2Proof.Machine.execChainRecord ch s
  | .tLdv ch f1 f2 adv => Sys2Proof.Machine.execTLdv ch f1 f2 adv s
  | .tStv ch f1 f2 adv rto => Sys2Proof.Machine.execTStv ch f1 f2 adv rto s
  | .tDot ch f1 f2 f3 lane adv => Sys2Proof.Machine.execTDot ch f1 f2 f3 lane adv s
  | .tVadd ch f1 f2 f3 => Sys2Proof.Machine.execTVadd ch f1 f2 f3 s
  | .tVsub ch f1 f2 f3 => Sys2Proof.Machine.execTVsub ch f1 f2 f3 s
  | .tVmul ch f1 f2 f3 => Sys2Proof.Machine.execTVmul ch f1 f2 f3 s
  | .tVfma ch f1 f2 f3 => Sys2Proof.Machine.execTVfma ch f1 f2 f3 s
  | .tVdiv ch f1 f2 f3 => Sys2Proof.Machine.execTVdiv ch f1 f2 f3 s
  | .tVmax ch f1 f2 f3 => Sys2Proof.Machine.execTVmax ch f1 f2 f3 s
  | .tVmin ch f1 f2 f3 => Sys2Proof.Machine.execTVmin ch f1 f2 f3 s
  | .tVexp ch f1 f2 => Sys2Proof.Machine.execTVexp ch f1 f2 s
  | .tRmax ch f1 f2 => Sys2Proof.Machine.execTRmax ch f1 f2 s
  | .tRsum ch f1 f2 => Sys2Proof.Machine.execTRsum ch f1 f2 s
  | .tBcast ch f1 f2 lane => Sys2Proof.Machine.execTBcast ch f1 f2 lane s
  | .tVrnd ch f1 f2 fmt => Sys2Proof.Machine.execTVrnd ch f1 f2 fmt s
  | .tVkeep ch f1 f2 f3 => Sys2Proof.Machine.execTVkeep ch f1 f2 f3 s
  | .tSets ch f1 imm => Sys2Proof.Machine.execTSets ch f1 imm s
  | .tAdda ch f1 imm => Sys2Proof.Machine.execTAdda ch f1 imm s
  | .tSeta ch f1 f2 => Sys2Proof.Machine.execTSeta ch f1 f2 s
  | .tLoop ch f1 target => Sys2Proof.Machine.execTLoop ch f1 target s
  | .tCsend ch f1 n => Sys2Proof.Machine.execTCsend ch f1 n s
  | .tCrecv ch f1 => Sys2Proof.Machine.execTCrecv ch f1 s
  | .tRand ch f1 purpose => Sys2Proof.Machine.execTRand ch f1 purpose s
  | .tEnd ch => Sys2Proof.Machine.execTEnd ch s
  | .grant stk => Sys2Proof.Machine.execGrant stk s
  | .grantWindowEnd ch => Sys2Proof.Machine.execGrantWindowEnd ch s
  | .refreshDue ch forced => Sys2Proof.Machine.execRefreshDue ch forced s
  | .refreshDone ch => Sys2Proof.Machine.execRefreshDone ch s
  | .temperatureSample ch t => Sys2Proof.Machine.execTemperatureSample ch t s
  | .rowSpare ch bank row off uncorrectable => Sys2Proof.Machine.execRowSpare ch bank row off uncorrectable s
  | .channelRetire stk => Sys2Proof.Machine.execChannelRetire stk s
  | .channelRebuildDone stk => Sys2Proof.Machine.execChannelRebuildDone stk s
  | .parityDelta stk => Sys2Proof.Machine.execParityDelta stk s
  | .parityLogReplay stk => Sys2Proof.Machine.execParityLogReplay stk s
  | .stackRebuild stk => Sys2Proof.Machine.execStackRebuild stk s
  | .linkResetExpiry stk => Sys2Proof.Machine.execLinkResetExpiry stk s
  | .retrainPrimary stk => Sys2Proof.Machine.execRetrainPrimary stk s
  | .retrainStandby stk => Sys2Proof.Machine.execRetrainStandby stk s
  | .stackReplayBurst stk => Sys2Proof.Machine.execStackReplayBurst stk s
  | .laneCheckFailure stk standby => Sys2Proof.Machine.execLaneCheckFailure stk standby s
  | .retrainDone stk standby failed dur => Sys2Proof.Machine.execRetrainDone stk standby failed dur s
  | .margin stk => Sys2Proof.Machine.execMargin stk s
  | .slowMargin die => Sys2Proof.Machine.execSlowMargin die s
  | .marginDwellEnd unit errors => Sys2Proof.Machine.execMarginDwellEnd unit errors s
  | .promotionDone w ok => Sys2Proof.Machine.execPromotionDone w ok s
  | .writeBackStart w => Sys2Proof.Machine.execWriteBackStart w s
  | .writeBackDone w => Sys2Proof.Machine.execWriteBackDone w s
  | .tenantKeyWrite slot word v => Sys2Proof.Machine.execTenantKeyWrite slot word v s
  | .tenantSlotClear slot => Sys2Proof.Machine.execTenantSlotClear slot s
  | .nullFrame p f => Sys2Proof.Machine.execNullFrame p f s
  | .nullSendTimer p => Sys2Proof.Machine.execNullSendTimer p s
  | .ackTimeout p => Sys2Proof.Machine.execAckTimeout p s
  | .hello p f => Sys2Proof.Machine.execHello p f s
  | .helloTimer p => Sys2Proof.Machine.execHelloTimer p s
  | .resetFrame p f => Sys2Proof.Machine.execResetFrame p f s
  | .fabPortReset p => Sys2Proof.Machine.execFabPortReset p s
  | .laneAlignmentLoss p => Sys2Proof.Machine.execLaneAlignmentLoss p s
  | .uncorrectedBlockBurst p n => Sys2Proof.Machine.execUncorrectedBlockBurst p n s
  | .laneTrainingDone p form => Sys2Proof.Machine.execLaneTrainingDone p form s
  | .linkUpTimeout p => Sys2Proof.Machine.execLinkUpTimeout p s
  | .departWaitExpiry p => Sys2Proof.Machine.execDepartWaitExpiry p s
  | .write p m => Sys2Proof.Machine.execWrite p m s
  | .read p m => Sys2Proof.Machine.execRead p m s
  | .writeAck p m => Sys2Proof.Machine.execWriteAck p m s
  | .readData p m => Sys2Proof.Machine.execReadData p m s
  | .fenceReq p m => Sys2Proof.Machine.execFenceReq p m s
  | .fenceAck p m => Sys2Proof.Machine.execFenceAck p m s
  | .fabSignal p m => Sys2Proof.Machine.execFabSignal p m s
  | .fabQueuePush p m => Sys2Proof.Machine.execFabQueuePush p m s
  | .pushAck p m => Sys2Proof.Machine.execPushAck p m s
  | .rsBlocks p m => Sys2Proof.Machine.execRsBlocks p m s
  | .rsReceipt p m => Sys2Proof.Machine.execRsReceipt p m s
  | .normSum p m => Sys2Proof.Machine.execNormSum p m s
  | .digest p m => Sys2Proof.Machine.execDigest p m s
  | .leaves p m => Sys2Proof.Machine.execLeaves p m s
  | .agQuery p m => Sys2Proof.Machine.execAgQuery p m s
  | .agReply p m => Sys2Proof.Machine.execAgReply p m s
  | .agData p m => Sys2Proof.Machine.execAgData p m s
  | .agRelease p m => Sys2Proof.Machine.execAgRelease p m s
  | .agQueryTimeout tag => Sys2Proof.Machine.execAgQueryTimeout tag s
  | .fetch p m => Sys2Proof.Machine.execFetch p m s
  | .fetchData p m => Sys2Proof.Machine.execFetchData p m s
  | .elect p m => Sys2Proof.Machine.execElect p m s
  | .electionSettle => Sys2Proof.Machine.execElectionSettle s
  | .heartbeat p m => Sys2Proof.Machine.execHeartbeat p m s
  | .heartbeatTimer => Sys2Proof.Machine.execHeartbeatTimer s
  | .heartbeatTimeout => Sys2Proof.Machine.execHeartbeatTimeout s
  | .topo p m => Sys2Proof.Machine.execTopo p m s
  | .collectionClose => Sys2Proof.Machine.execCollectionClose s
  | .assign p m => Sys2Proof.Machine.execAssign p m s
  | .table p m => Sys2Proof.Machine.execTable p m s
  | .tableAck p m => Sys2Proof.Machine.execTableAck p m s
  | .linkChange p m => Sys2Proof.Machine.execLinkChange p m s
  | .salvage p m => Sys2Proof.Machine.execSalvage p m s
  | .salvageTimeout p => Sys2Proof.Machine.execSalvageTimeout p s
  | .requestTimeout tag => Sys2Proof.Machine.execRequestTimeout tag s
  | .imagePush p m => Sys2Proof.Machine.execImagePush p m s
  | .imagePushAck p m => Sys2Proof.Machine.execImagePushAck p m s
  | .depart p m => Sys2Proof.Machine.execDepart p m s
  | .fabPushGo p => Sys2Proof.Machine.execFabPushGo p s
  | .moduleBringup m major minor => Sys2Proof.Machine.execModuleBringup m major minor s
  | .coreAliveFall die => Sys2Proof.Machine.execCoreAliveFall die s
  | .bridgeHeartbeat die => Sys2Proof.Machine.execBridgeHeartbeat die s
  | .heartbeatMiss die => Sys2Proof.Machine.execHeartbeatMiss die s
  | .bridgeRestored => Sys2Proof.Machine.execBridgeRestored s
  | .watchdogExpiry die => Sys2Proof.Machine.execWatchdogExpiry die s
  | .sramUncorrectable die => Sys2Proof.Machine.execSramUncorrectable die s
  | .fenceTwin die => Sys2Proof.Machine.execFenceTwin die s
  | .fenceReceived die => Sys2Proof.Machine.execFenceReceived die s
  | .fenceAnswerTimeout die => Sys2Proof.Machine.execFenceAnswerTimeout die s
  | .failover die => Sys2Proof.Machine.execFailover die s
  | .ownerChangeRequest stk quiet => Sys2Proof.Machine.execOwnerChangeRequest stk quiet s
  | .resetTwin die => Sys2Proof.Machine.execResetTwin die s
  | .rejoin die selfTest bridge => Sys2Proof.Machine.execRejoin die selfTest bridge s
  | .resetComplex die key => Sys2Proof.Machine.execResetComplex die key s
  | .journalRecord => Sys2Proof.Machine.execJournalRecord s
  | .mirrorAck => Sys2Proof.Machine.execMirrorAck s
  | .pwrCtrlGo die => Sys2Proof.Machine.execPwrCtrlGo die s
  | .dewIdleExpiry die => Sys2Proof.Machine.execDewIdleExpiry die s
  | .wake die cause => Sys2Proof.Machine.execWake die cause s
  | .thawDone die us => Sys2Proof.Machine.execThawDone die us s
  | .governorSample tile dieA dieB stks => Sys2Proof.Machine.execGovernorSample tile dieA dieB stks s
  | .governorStep => Sys2Proof.Machine.execGovernorStep s
  | .hubTemperature die t => Sys2Proof.Machine.execHubTemperature die t s
  | .railWarning die rail mv => Sys2Proof.Machine.execRailWarning die rail mv s
  | .dipHoldEnd die => Sys2Proof.Machine.execDipHoldEnd die s
  | .deferredCommitRelease die => Sys2Proof.Machine.execDeferredCommitRelease die s
  | .railReset die rail mv => Sys2Proof.Machine.execRailReset die rail mv s
  | .pgInRise die => Sys2Proof.Machine.execPgInRise die s
  | .pgInFall die => Sys2Proof.Machine.execPgInFall die s
  | .aonRstRelease die straps => Sys2Proof.Machine.execAonRstRelease die straps s
  | .startupDone die t => Sys2Proof.Machine.execStartupDone die t s
  | .tileRst => Sys2Proof.Machine.execTileRst s
  | .perst port high => Sys2Proof.Machine.execPerst port high s
  | .sequencedFrame p f => Sys2Proof.Machine.execSequencedFrame p f s
  | .railAboveWarning die rail us => Sys2Proof.Machine.execRailAboveWarning die rail us s
  | .stackRebuildDone stk => Sys2Proof.Machine.execStackRebuildDone stk s
  | .aonRstAssert die => Sys2Proof.Machine.execAonRstAssert die s
  | .msixUnmask port vec => Sys2Proof.Machine.execMsixUnmask port vec s
  | .ucieModuleFailure m retrained => Sys2Proof.Machine.execUcieModuleFailure m retrained s

end Sys2Proof.Machine
end

