-- ==== Sys2Proof/Safety.lean ====
section
/-!
DEFINITION. The terms that the statements use: when a command of each kind runs, and what a safe state is.
-/
namespace Sys2Proof.Machine

/-! ### Safe states -/

/-- A state is in order: its memory has the canonical form, and every waiting command is well formed. -/
def State.Ordered (s : State) : Prop := Memory.wf s.cx.mem = true ∧ ∀ i ∈ s.pending, i.wf = true

/-- Memory reads the same bytes in two complexes, every byte of every space. -/
def SameBytes (c d : Cx) : Prop := ∀ k, d.byte k = c.byte k

/-! ### Stream commands (R147, R160) -/

/-- The stream may start the command now, its tenant has room for it, and no command in flight has its number. -/
structure Starts (c : Cx) (st : StreamId) (op : Nat) (num : W32) (cmd : BitVec 512) : Prop where
  next : c.startable st = some (num, cmd)
  op : opcode cmd = op
  room : c.overQuota (c.tenantOf st) = false
  fresh : ∀ g ∈ (c.strm st.toNat).flights, g.number ≠ num

/-- A started command that ended with a status, a result and flags; the next command, if it is already fetched, is
decoded (R146). -/
def Cx.ended (c : Cx) (st : StreamId) (num : W32) (status result : Nat) (fl : Flags := 0#8) : Cx :=
  (c.finish st num status result fl).haltIfBad st

/-- A started command that waits. -/
def Cx.waiting (c : Cx) (st : StreamId) (num : W32) (why : IdleCause) : Cx :=
  (c.modFlight st num fun f => { f with why := some why }).haltIfBad st

/-- A step of this kind of command tries the waiting command again: the stream cannot start another one of its opcode, and
this is the only one of it in flight. -/
structure Resumes (c : Cx) (st : StreamId) (op : Nat) (f : Flight) : Prop where
  next : ∀ e, c.startable st = some e → opcode e.2 ≠ op
  only : ((c.strm st.toNat).flights.filter fun g => g.op = op) = [f]
  here : c.flight? st f.number = some f
  open_ : f.status = none

/-- A command that waited ends `OK` with a result that the spec leaves open. -/
def Cx.resumed (c : Cx) (st : StreamId) (num : W32) (op : Nat) : Cx :=
  ({ c with free := c.free + 1 } : Cx).finish st num stOk (c.openResult op) 0#8

/-! ### Rule instructions (R213, R220) -/

end Sys2Proof.Machine

namespace Sys2Proof

open Machine

/-- The command of a rule instruction at a lane group; FSTAT acts on the group's window. -/
def RInstr.row (at_ : LaneAt) : RInstr → Instr
  | .alu2 .add d a b q => .rAdd at_ d a b q
  | .alu2 .sub d a b q => .rSub at_ d a b q
  | .alu2 .mul d a b q => .rMul at_ d a b q
  | .alu2 .div d a b q => .rDiv at_ d a b q
  | .alu2 .max d a b q => .rMax at_ d a b q
  | .alu2 .min d a b q => .rMin at_ d a b q
  | .alu3 .fma d a b c q => .rFma at_ d a b c q
  | .alu3 .fnma d a b c q => .rFnma at_ d a b c q
  | .alu1 .sqrt d a q => .rSqrt at_ d a q
  | .alu1 .rsqrt d a q => .rRsqrt at_ d a q
  | .alu1 .abs d a q => .rAbs at_ d a q
  | .alu1 .neg d a q => .rNeg at_ d a q
  | .alu1 .sign d a q => .rSign at_ d a q
  | .alu1 .mov d a q => .rMov at_ d a q
  | .cmp .clt d a b q => .rClt at_ d a b q
  | .cmp .cle d a b q => .rCle at_ d a b q
  | .cmp .ceq d a b q => .rCeq at_ d a b q
  | .pand d a b q => .rPand at_ d a b q
  | .por d a b q => .rPor at_ d a b q
  | .pnot d a q => .rPnot at_ d a q
  | .ldw d m q => .rLdw at_ d m q
  | .ldg d q => .rLdg at_ d q
  | .ldm d q => .rLdm at_ d q
  | .ldb d q => .rLdb at_ d q
  | .fac d q => .rFac at_ d q
  | .stw a r q => .rStw at_ a r q
  | .stm a r => .rStm at_ a r
  | .stb a => .rStb at_ a
  | .ste a f => .rSte at_ a f
  | .fstat a b c => .rFstat at_.window a b c

end Sys2Proof

namespace Sys2Proof.Machine

/-- The lane group stands, in its window's pass, at a word that decodes to the instruction, and the channels that the
instruction accesses are granted. -/
structure LaneRuns (c : Cx) (at_ : LaneAt) (i : RInstr) (v : Win) (p : Pass) (t : Tensor) (l : LaneCtx) : Prop where
  win : kget? c.wins at_.window.toNat = some v
  pass : v.pass = some p
  tensor : c.tensor? v.tensor = some t
  lane : kget? p.lanes at_.group.val = some l
  ready : p.fstatDone = true
  word : (p.prog[l.pc]?).bind decodeRule = some i
  granted : c.engineGranted (c.ruleEnv at_.window.toNat v p t l.block l.pc) i = true

/-- What the group sees of its block. -/
def laneEnv (c : Cx) (at_ : LaneAt) (v : Win) (p : Pass) (t : Tensor) (l : LaneCtx) : RuleEnv :=
  c.ruleEnv at_.window.toNat v p t l.block l.pc

/-- Value that an arithmetic instruction or a load gives in lane j (Tables 9.2 and 9.4, R222); none for the others. -/
def laneValue (c : Cx) (e : RuleEnv) (l : LaneCtx) (j : Nat) : RInstr → Option W32
  | .alu2 op _ a b _ => some (alu2Lane op e.pyro (e.operand l a j) (e.operand l b j)).v
  | .alu3 op _ a b k _ => some (alu3Lane op e.pyro (e.operand l a j) (e.operand l b j) (e.operand l k j)).v
  | .alu1 op _ a _ => some (alu1Lane op e.pyro (e.operand l a j)).v
  | .ldw _ m _ => some (canonical (if m && e.tails then e.oldW c j ++ e.oldT c j ++ 0#8 else e.oldW c j ++ 0#16))
  | .ldg _ _ => some (if e.current then canonical (c.s16At e.stack (e.g + 2 * (64 * e.block + j)) ++ 0#16) else 0#32)
  | .ldm _ _ => some (pyroFlush e.pyro (m8Decode (e.oldM c j) (BitVec.ofNat 16 (bits e.header 15 0)))).1
  | .ldb _ _ => some (natToF32 (bits e.header 31 24))
  | .fac _ _ => some (if e.factored then (c.facValue e.tensor e.stack (e.element + j)
      (e.statBuf.getD (c.statSel e.tensor e.stack))).1 else 0#32)
  | _ => none

/-- Bit that a compare or a predicate operation gives in lane j (Table 9.4); none for the others. -/
def laneBit (e : RuleEnv) (l : LaneCtx) (j : Nat) : RInstr → Option Bool
  | .cmp op _ a b _ => some (cmpLane op (e.operand l a j) (e.operand l b j)).1
  | .pand _ a b _ => some ((l.preg a.toNat &&& l.preg b.toNat).getLsbD j)
  | .por _ a b _ => some ((l.preg a.toNat ||| l.preg b.toNat).getLsbD j)
  | .pnot _ a _ => some (!(l.preg a.toNat).getLsbD j)
  | _ => none

end Sys2Proof.Machine

namespace Sys2Proof

open Machine

/-- Destination register of an instruction that writes one. -/
def RInstr.dest : RInstr → Nat
  | .alu2 _ d _ _ _ | .alu3 _ d _ _ _ _ | .alu1 _ d _ _ | .ldw d _ _ | .ldg d _ | .ldm d _ | .ldb d _ | .fac d _ => d.toNat
  | .cmp _ d _ _ _ | .pand d _ _ _ | .por d _ _ _ | .pnot d _ _ => d.toNat
  | _ => 0

/-- Predicate of an instruction that has one. -/
def RInstr.pred : RInstr → RPred
  | .alu2 _ _ _ _ q | .alu3 _ _ _ _ _ q | .alu1 _ _ _ q | .ldw _ _ q | .ldg _ q | .ldm _ q | .ldb _ q | .fac _ q
  | .cmp _ _ _ _ q | .pand _ _ _ q | .por _ _ _ q | .pnot _ _ q | .stw _ _ q => q
  | _ => noPred

end Sys2Proof

namespace Sys2Proof.Machine

/-! ### Tadpole instructions (R296) -/

end Sys2Proof.Machine

namespace Sys2Proof

open Machine

/-- The command of a tadpole instruction at a channel's newt. -/
def TInstr.row (ch : Fin 640) : TInstr → Instr
  | .ldv f1 f2 adv => .tLdv ch f1 f2 adv
  | .stv f1 f2 adv rto => .tStv ch f1 f2 adv rto
  | .dot f1 f2 f3 lane adv => .tDot ch f1 f2 f3 lane adv
  | .vec .vadd f1 f2 f3 => .tVadd ch f1 f2 f3
  | .vec .vsub f1 f2 f3 => .tVsub ch f1 f2 f3
  | .vec .vmul f1 f2 f3 => .tVmul ch f1 f2 f3
  | .vec .vfma f1 f2 f3 => .tVfma ch f1 f2 f3
  | .vec .vdiv f1 f2 f3 => .tVdiv ch f1 f2 f3
  | .vec .vmax f1 f2 f3 => .tVmax ch f1 f2 f3
  | .vec .vmin f1 f2 f3 => .tVmin ch f1 f2 f3
  | .vexp f1 f2 => .tVexp ch f1 f2
  | .rmax f1 f2 => .tRmax ch f1 f2
  | .rsum f1 f2 => .tRsum ch f1 f2
  | .bcast f1 f2 lane => .tBcast ch f1 f2 lane
  | .vrnd f1 f2 fmt => .tVrnd ch f1 f2 fmt
  | .vkeep f1 f2 f3 => .tVkeep ch f1 f2 f3
  | .sets f1 imm => .tSets ch f1 imm
  | .adda f1 imm => .tAdda ch f1 imm
  | .seta f1 f2 => .tSeta ch f1 f2
  | .loop f1 target => .tLoop ch f1 target
  | .csend f1 n => .tCsend ch f1 n
  | .crecv f1 => .tCrecv ch f1
  | .rand f1 p => .tRand ch f1 p
  | .end_ => .tEnd ch

end Sys2Proof

namespace Sys2Proof.Machine

/-- The channel's newt runs a TADPOLE job whose program has reached the instruction, and is not suspended. -/
structure TadRuns (c : Cx) (ch : Fin 640) (i : TInstr) (j : Job) (t : Tad) : Prop where
  job : (c.newt ch).job = some j
  kind : j.kind = 2
  tad : (c.newt ch).tad = some t
  go : (c.newt ch).suspended = false
  word : (c.newt ch).instr? t = some i

/-- What a tadpole instruction that only writes a vector register leaves: the register's new lanes, the next place, and
every other register, job, newt and byte of memory as before. -/
structure TadWrote (c d : Cx) (ch : Fin 640) (t : Tad) (r : BitVec 3) (v : List W32) : Prop where
  tad : (d.newt ch).tad = some { t with pc := t.pc + 1, x := t.x.set r.toNat v }
  job : (d.newt ch).job = (c.newt ch).job
  poisoned : (d.newt ch).poisoned = (c.newt ch).poisoned
  tainted : (d.newt ch).tainted = (c.newt ch).tainted
  others : ∀ g, g ≠ ch.val → d.newt g = c.newt g
  mem : d.mem = c.mem
  dirty : d.dirty = c.dirty
  wins : d.wins = c.wins
  streams : d.streams = c.streams
  regs : d.regs = c.regs

end Sys2Proof.Machine
end

