-- ==== Sys2Proof/Certificates/Slice0/Obligations.lean ====
section
/-!
DEFINITION. The statements for the provers. Each names the rules of the spec that it formalises in its docstring.
-/
open Sys2Proof Sys2Proof.Machine

/-- A step takes the command at the front of the queue and runs it with the queue's rest (log entry 1: the queue is the
model's own frame). -/
def Obligations.StepRunsFront : Prop :=
  ∀ (i : Instr) (s : State), step { s with pending := i :: s.pending } = exec i s

/-- On an empty queue the block idles: the model's choice, log entry 1. -/
def Obligations.IdleStep : Prop :=
  ∀ s : State, s.pending = [] → step s = .next s

/-- Every step of every state answers a next state (the spec reports every error through statuses, events and
registers; log entry 2), whose queue is the old queue without its front: commands are served first in, first out, and a
queue of well-formed commands stays well formed. -/
def Obligations.QueueFirstInFirstOut : Prop :=
  (∀ s : State, ∃ t : State, step s = .next t ∧ t.pending = s.pending.tail) ∧
  (∀ s t : State, (∀ i ∈ s.pending, i.wf = true) → step s = .next t → ∀ i ∈ t.pending, i.wf = true)

/-- The machine right after reset: an empty queue, memory in canonical form, no image (EMPTY), hub die A master (R18), no
core running, no event numbered. Values the spec gives no reset value for are the model's (log entries 5 and 6). -/
def Obligations.ResetState : Prop :=
  State.reset.pending = [] ∧ Memory.wf State.reset.cx.mem = true ∧ (∀ k, State.reset.cx.byte k = 0#8) ∧
  State.reset.cx.img.st = .empty ∧ State.reset.cx.img.cfg = none ∧ State.reset.cx.master = .A ∧
  (∀ d, State.reset.cx.coreUp d = false ∧ (State.reset.cx.die d).power = .frost) ∧
  (∀ p, (State.reset.cx.port p).up = false ∧ (State.reset.cx.port p).fnMask = true) ∧
  State.reset.cx.arb.seq = 0#64 ∧ (∀ off, State.reset.cx.ctr off = {}) ∧
  State.reset.cx.reg 0x20004 = 3#32 ∧ State.reset.cx.reg 0x28004 = 3#32

/-- Decoding the word of a well-formed rule instruction gives the instruction back, and every word that decodes is the
word of what it decodes to, which is well formed (R219, Tables 9.2 to 9.4). -/
def Obligations.RuleWordRoundTrip : Prop :=
  (∀ i : RInstr, i.wf = true → decodeRule (encodeRule i) = some i) ∧
  (∀ (w : BitVec 32) (i : RInstr), decodeRule w = some i → i.wf = true ∧ encodeRule i = w)

/-- Decoding the word of a well-formed tadpole instruction gives it back, and every word that decodes is the word of what
it decodes to (R296, Table 11.7). -/
def Obligations.TadpoleWordRoundTrip : Prop :=
  (∀ i : TInstr, i.wf = true → decodeTad (encodeTad i) = some i) ∧
  (∀ (w : BitVec 32) (i : TInstr), decodeTad w = some i → i.wf = true ∧ encodeTad i = w)

/-- Sanity: words written out from the encodings of Tables 9.2 to 9.4 and 11.7. -/
def Obligations.WordsDecode : Prop :=
  decodeRule 0b000001_0011_000001_010010_000000_0_0_00#32 = some (.alu2 .add 3#4 1#6 0x12#6 noPred) ∧
  decodeRule 0b000100_1111_000000_110001_110100_1_1_10#32 = some (.alu3 .fma 15#4 0#6 0x31#6 0x34#6 ⟨true, true, 2#2⟩) ∧
  decodeRule 0b010000_0010_000001_110000_000000_0_0_00#32 = some (.cmp .clt 2#2 1#6 0x30#6 noPred) ∧
  decodeRule 0b101000_0000_000111_000001_000000_1_0_01#32 = some (.stw 7#4 true ⟨true, false, 1#2⟩) ∧
  decodeRule 0b110000_0000_010000_010001_101111_0_0_00#32 = some (.fstat 0x10#6 0x11#6 0x2F#6) ∧
  decodeRule 0b111111_0000_000000_000000_000000_0_0_00#32 = none ∧
  decodeRule 0b000001_0011_000001_010010_000001_0_0_00#32 = none ∧
  decodeTad 0b000001_101_010_000_00000000000000001#32 = some (.ldv 5#3 2#3 true) ∧
  decodeTad 0b001011_001_010_011_00000000000000000#32 = some (.vec .vfma 1#3 2#3 3#3) ∧
  decodeTad 0b011011_111_000_000_00000000011111111#32 = some (.loop 7#3 255#8) ∧
  decodeTad 0b111111_000_000_000_00000000000000000#32 = some .end_ ∧
  decodeTad 0b000000_000_000_000_00000000000000000#32 = none ∧
  decodeTad 0b111111_000_000_000_00000000000000001#32 = none

/-- NOP (R145), SIGNAL (R154: the release, then the record; a free result, log entry 15) and WAIT (R155). The next state is
given whole, so nothing else changes. -/
def Obligations.SyncCommandsComplete : Prop :=
  (∀ (s : State) (st : StreamId) (num : W32) (cmd : BitVec 512), Starts s.cx st 0x00 num cmd →
    let c := s.cx.start st num cmd
    ∃ r, exec (.nop st) s = .next { s with cx := ({ c with free := c.free + 1 } : Cx).ended st num stOk r }) ∧
  (∀ (s : State) (st : StreamId) (num : W32) (cmd : BitVec 512), Starts s.cx st 0x10 num cmd →
    let c := s.cx.start st num cmd
    let f := newFlight s.cx st num cmd
    c.noMaster st = false → c.earlier st f = false →
    exec (.signal st) s = .next { s with cx := (((c.releaseComplex.modFlight st num fun g => { g with phase := 1, owed := g.owed + 1 }).submit
        ((c.releaseComplex.modFlight st num fun g => { g with phase := 1, owed := g.owed + 1 }).dieOf st)
        (.sync (f.arg 16 12 0) (BitVec.ofNat 64 (f.arg 24 63 0))) (some (st, num))).waiting st num .other) }) ∧
  (∀ (s : State) (st : StreamId) (num : W32) (cmd : BitVec 512), Starts s.cx st 0x11 num cmd →
    let c := s.cx.start st num cmd
    let f := newFlight s.cx st num cmd
    c.noMaster st = false → newerEq (c.sync (f.arg 16 12 0)) (BitVec.ofNat 64 (f.arg 24 63 0)) = true →
    ∃ r, exec (.wait st) s =
      .next { s with cx := ({ c.acquire st with free := (c.acquire st).free + 1 } : Cx).ended st num stOk r }) ∧
  (∀ (s : State) (st : StreamId) (num : W32) (cmd : BitVec 512), Starts s.cx st 0x11 num cmd →
    let c := s.cx.start st num cmd
    let f := newFlight s.cx st num cmd
    newerEq (c.sync (f.arg 16 12 0)) (BitVec.ofNat 64 (f.arg 24 63 0)) = false → c.noMaster st = false →
    exec (.wait st) s = .next { s with cx := c.waiting st num .other })

/-- COPY within the complex (R66, Table 6.7). The store is `hubWrite` of the converted bytes at the destination operand. -/
def Obligations.CopyCompletes : Prop :=
  (∀ (s : State) (st : StreamId) (num : W32) (cmd : BitVec 512), Starts s.cx st 0x01 num cmd →
    let c := s.cx.start st num cmd
    let f := newFlight s.cx st num cmd
    let src := f.arg 16 63 0
    let dst := f.arg 24 63 0
    let n := f.arg 32 63 0
    let conv := f.arg 40 2 0
    let z := copySize conv
    conv ≠ 7 → n % z.1 = 0 → f.bit 40 21 = false → f.bit 40 22 = false →
    c.refuseOperands st f [(.read, 1, src, n), (.write, 2, dst, n / z.1 * z.2)] = none →
    c.hubPoison src n = none →
    let r := c.hubRead src n
    let b := copyBytes conv (f.bit 40 3) r.2
    let d := (((r.1.copyNans st f b.2.2).modFlight st num fun g => { g with flags := g.flags ||| b.2.1 }).orFlags
      (hubFlagsReg (((r.1.copyNans st f b.2.2).modFlight st num fun g => { g with flags := g.flags ||| b.2.1 }).dieOf st))
      b.2.1)
    exec (.copy st) s = .next { s with cx := ((d.hubWrite dst b.1).noteWrite st dst).ended st num stOk b.1.length }) ∧
  (∀ rto src, copyBytes 0 rto src = (src, 0#8, [])) ∧
  (∀ (s : State) (st : StreamId) (num : W32) (cmd : BitVec 512) (off : Nat), Starts s.cx st 0x01 num cmd →
    let c := s.cx.start st num cmd
    let f := newFlight s.cx st num cmd
    let n := f.arg 32 63 0
    let z := copySize (f.arg 40 2 0)
    f.arg 40 2 0 ≠ 7 → n % z.1 = 0 → f.bit 40 21 = false → f.bit 40 22 = false →
    c.refuseOperands st f [(.read, 1, f.arg 16 63 0, n), (.write, 2, f.arg 24 63 0, n / z.1 * z.2)] = none →
    c.hubPoison (f.arg 16 63 0) n = some off →
    exec (.copy st) s = .next { s with cx := c.ended st num stPoison off })

/-- FENCE (R176), FLUSH_RANGE (R177) and SIGNAL_REMOTE (R355). `writeBack` stores dirty bytes only. -/
def Obligations.ReleaseCommandsComplete : Prop :=
  (∀ (s : State) (st : StreamId) (num : W32) (cmd : BitVec 512), Starts s.cx st 0x13 num cmd →
    let c := s.cx.start st num cmd
    let f := newFlight s.cx st num cmd
    let scope := f.arg 16 2 0
    let sel := c.scopeSel scope (f.arg 24 9 0) (f.arg 24 14 10)
    scope ≤ 3 → bit (f.arg 16 5 4) 0 = true →
    (scope = 0 → f.arg 24 9 0 < 640 ∧ c.active (f.arg 24 9 0 / 32) = true) →
    (scope = 1 → f.arg 24 14 10 < 20 ∧ c.active (f.arg 24 14 10) = true) →
    c.earlier st f = false →
    let d := c.writeBack sel
    let d := if scope = 3 then d.releaseHost st else d
    let d := if bit (f.arg 16 5 4) 1 then d.acquire st else d
    exec (.fence st) s = .next { s with cx := d.ended st num stOk (c.dirtyLines sel).length }) ∧
  (∀ (s : State) (st : StreamId) (num : W32) (cmd : BitVec 512), Starts s.cx st 0x14 num cmd →
    let c := s.cx.start st num cmd
    let f := newFlight s.cx st num cmd
    let a := f.arg 16 63 0
    let n := f.arg 24 63 0
    let sel := fun k => (c.rangesOf true a n).any fun r => lineIn r.lo r.len k
    n ≠ 0 → bits a 63 60 ≤ 1 → c.badOperand? st f .write 1 a n = none →
    exec (.flushRange st) s = .next { s with cx := (c.writeBack sel).ended st num stOk (c.dirtyLines sel).length }) ∧
  (∀ (s : State) (st : StreamId) (num : W32) (cmd : BitVec 512), Starts s.cx st 0x12 num cmd →
    let c := s.cx.start st num cmd
    let f := newFlight s.cx st num cmd
    let node := f.arg 16 48 32
    c.fab.unreachable.contains node = false → c.earlier st f = false →
    (c.releaseComplex.strm st.toNat).wroteNodes = [] →
    let d := c.releaseComplex.modStrm st.toNat fun x => { x with wroteNodes := [] }
    let e := d.sendMsg 0 (d.mkMsg 0x07 0 (BitVec.ofNat 17 node) 0#16 (BitVec.ofNat 64 (f.arg 16 12 0))
      (BitVec.ofNat 64 (f.arg 24 63 0)) 1 [] [])
    ∃ r, exec (.signalRemote st) s = .next { s with cx := ({ e with free := e.free + 1 } : Cx).ended st num stOk r })

/-- The queue commands on a reachable queue that has what they need (R156, R157); a push result is open (log entry 15). -/
def Obligations.QueueCommandsComplete : Prop :=
  (∀ (s : State) (st : StreamId) (num : W32) (cmd : BitVec 512), Starts s.cx st 0x40 num cmd →
    let c := s.cx.start st num cmd
    let f := newFlight s.cx st num cmd
    let src := f.arg 16 63 0
    let q := f.arg 24 8 0
    let n := f.arg 32 63 0
    f.bit 24 26 = false → n ≤ c.streamsRec.entryBytes → c.queueOk q = true → c.badOperand? st f .read 1 src n = none →
    c.queueAway (c.dieOf st) q = none → c.queueFull q = false → c.myTurn (f.turn st false q) = true →
    c.hubPoison src n = none →
    let r := c.hubRead src n
    let d := (r.1.setQueue q (c.queue q ++ [⟨BitVec.ofNat 32 (f.arg 40 31 0), r.2⟩])).leaveTurn (f.turn st false q)
    ∃ v, exec (.queuePush st) s = .next { s with cx := ({ d with free := d.free + 1 } : Cx).ended st num stOk v }) ∧
  (∀ (s : State) (st : StreamId) (num : W32) (cmd : BitVec 512) (e : QEntry) (rest : List QEntry),
    Starts s.cx st 0x41 num cmd →
    let c := s.cx.start st num cmd
    let f := newFlight s.cx st num cmd
    let dst := f.arg 16 63 0
    let q := f.arg 24 8 0
    c.queueOk q = true → c.queueAway (c.dieOf st) q = none → c.queue q = e :: rest →
    c.badOperand? st f .write 1 dst e.data.length = none → c.myTurn (f.turn st true q) = true →
    let d := (((c.setQueue q rest).hubWrite dst e.data).noteWrite st dst).leaveTurn (f.turn st true q)
    exec (.queuePop st) s = .next { s with cx := d.ended st num stOk (e.tag.toNat + e.data.length * 2 ^ 32) }) ∧
  (∀ (s : State) (st : StreamId) (num : W32) (cmd : BitVec 512) (e : QEntry) (rest : List QEntry),
    Starts s.cx st 0x42 num cmd →
    let c := s.cx.start st num cmd
    let f := newFlight s.cx st num cmd
    let dst := f.arg 16 63 0
    let q := f.arg 24 8 0
    c.queueOk q = true → bits dst 63 60 = 2 ∨ bits dst 63 60 = 4 → c.queueAway (c.dieOf st) q = none →
    c.queue q = e :: rest → c.badOperand? st f .write 1 dst (64 + e.data.length) = none →
    c.myTurn (f.turn st true q) = true →
    let d := (((c.setQueue q rest).writeAt dst (offloadHeader e q ++ e.data)).noteWrite st dst).leaveTurn (f.turn st true q)
    ∃ v, exec (.offload st) s = .next { s with cx := ({ d with free := d.free + 1 } : Cx).ended st num stOk v }) ∧
  (∀ (s : State) (st : StreamId) (num : W32) (cmd : BitVec 512), Starts s.cx st 0x43 num cmd →
    let c := s.cx.start st num cmd
    let f := newFlight s.cx st num cmd
    let src := f.arg 16 63 0
    let q := f.arg 24 8 0
    let h := c.readAt src 64
    let n := leNat ((h.drop 4).take 4)
    let e : QEntry := ⟨BitVec.ofNat 32 (leNat (h.take 4)), c.readAt (src + 64) n⟩
    c.queueOk q = true → bits src 63 60 = 2 ∨ bits src 63 60 = 4 → c.queueAway (c.dieOf st) q = none →
    c.badOperand? st f .read 1 src 64 = none → c.poisonIn src 64 = none →
    badOffload h c.streamsRec.entryBytes = none → c.badOperand? st f .read 1 src (64 + n) = none →
    c.queueFull q = false → c.myTurn (f.turn st false q) = true → c.poisonIn src (64 + n) = none →
    let d := (c.setQueue q (if f.bit 24 9 then e :: c.queue q else c.queue q ++ [e])).leaveTurn (f.turn st false q)
    ∃ v, exec (.prefetch st) s = .next { s with cx := ({ d with free := d.free + 1 } : Cx).ended st num stOk v })

/-- Requests of Table 13.5 at their destination (R355). Status and result ride as the answer's fields. -/
def Obligations.RemoteAccessMessages : Prop :=
  (∀ (s : State) (p : Fin 13) (m : Msg), m.op.toNat = 0x01 → s.cx.arrived p m = true →
    let c := s.cx.consume p m
    c.remoteCheck (c.msgDie p) .write m.addr.toNat m.data.length = none →
    exec (.write p m) s =
      .next { s with cx := (c.hubWrite m.addr.toNat m.data).respond m 0x03 0#64 0#64 [] [stOk, 0] }) ∧
  (∀ (s : State) (p : Fin 13) (m : Msg), m.op.toNat = 0x02 → s.cx.arrived p m = true →
    let c := s.cx.consume p m
    c.remoteCheck (c.msgDie p) .read m.addr.toNat m.size = none → c.hubPoison m.addr.toNat m.size = none →
    exec (.read p m) s = .next { s with cx := ((c.hubRead m.addr.toNat m.size).1.respond m 0x04 0#64 0#64
      (c.hubRead m.addr.toNat m.size).2 [stOk, 0]) }) ∧
  (∀ (s : State) (p : Fin 13) (m : Msg), m.op.toNat = 0x05 → s.cx.arrived p m = true →
    exec (.fenceReq p m) s =
      .next { s with cx := (s.cx.consume p m).releaseComplex.respond m 0x06 0#64 0#64 [] [stOk, 0] }) ∧
  (∀ (s : State) (p : Fin 13) (m : Msg), m.op.toNat = 0x07 → s.cx.arrived p m = true →
    exec (.fabSignal p m) s = .next { s with cx := ((s.cx.consume p m).submit (s.cx.consume p m).master (.sync (m.addr.toNat % 8192) m.arg)) }) ∧
  (∀ (s : State) (p : Fin 13) (m : Msg), m.op.toNat = 0x08 → s.cx.arrived p m = true →
    let c := s.cx.consume p m
    let q := bits m.arg.toNat 8 0
    let t : QueueTurn := { q := q, pop := false, who := 4096 + p.val, num := msgTurn m }
    s.cx.queueOk q = true → s.cx.queueAway (s.cx.msgDie p) q = none → s.cx.queueFull q = false → s.cx.myTurn t = true →
    c.queueOk q = true → c.queueAway (c.msgDie p) q = none → m.data.length ≤ c.streamsRec.entryBytes →
    exec (.fabQueuePush p m) s = .next { s with cx :=
      (((c.setQueue q (c.queue q ++ [⟨m.arg.extractLsb' 32 32, m.data⟩])).leaveTurn t).respond m 0x09 0#64 0#64 []
        [stOk, 0]) })

/-- Responses (R336, R354): `answered` drops the request and keeps the worst status; the last one lets the command go on. -/
def Obligations.RemoteAccessResponses : Prop :=
  (∀ (s : State) (p : Fin 13) (m : Msg) (r : Req) (g : Flight), s.cx.arrived p m = true →
    let c := s.cx.consume p m
    c.req? m.tag = some r →
    let d := c.answered r (m.fields.getD 0 0) (remoteResult r m)
    d.flight? r.stream r.command = some g → g.awaits ≠ [] →
    (m.op.toNat = 0x03 → r.op = 0x01 → exec (.writeAck p m) s = .next { s with cx := d }) ∧
    (m.op.toNat = 0x06 → r.op = 0x05 → exec (.fenceAck p m) s = .next { s with cx := d }) ∧
    (m.op.toNat = 0x09 → r.op = 0x08 → exec (.pushAck p m) s = .next { s with cx := d })) ∧
  (∀ (s : State) (p : Fin 13) (m : Msg) (r : Req) (g : Flight), s.cx.arrived p m = true →
    let c := s.cx.consume p m
    c.req? m.tag = some r →
    let d := c.answered r (m.fields.getD 0 0) (remoteResult r m)
    d.flight? r.stream r.command = some g → g.awaits = [] → g.status = none → g.worst ≤ 2 →
    (m.op.toNat = 0x03 → r.op = 0x01 → g.phase = 2 → exec (.writeAck p m) s = .next { s with cx := (d.finish r.stream r.command stOk (g.arg 32 63 0 / (copySize (g.arg 40 2 0)).1 * (copySize (g.arg 40 2 0)).2) 0#8) }) ∧
    (m.op.toNat = 0x06 → r.op = 0x05 → g.op = 0x13 → g.phase = 1 → bit (g.arg 16 5 4) 1 = false →
      exec (.fenceAck p m) s = .next { s with cx := d.finish r.stream r.command stOk g.data.length 0#8 }) ∧
    (m.op.toNat = 0x09 → r.op = 0x08 → g.phase = 1 → ∃ v, exec (.pushAck p m) s =
      .next { s with cx := ({ d with free := d.free + 1 } : Cx).finish r.stream r.command stOk v 0#8 })) ∧
  (∀ (s : State) (p : Fin 13) (m : Msg) (r : Req) (g : Flight), s.cx.arrived p m = true →
    let c := s.cx.consume p m
    c.req? m.tag = some r → m.op.toNat = 0x04 → r.op = 0x02 →
    let d := (c.modFlight r.stream r.command fun f => { f with data := putSlice f.data r.off (m.data.take r.len) }).answered
      r (m.fields.getD 0 0) (remoteResult r m)
    d.flight? r.stream r.command = some g →
    (g.awaits ≠ [] → exec (.readData p m) s = .next { s with cx := d }) ∧
    (g.awaits = [] → g.status = none → g.worst ≤ 2 → g.phase = 1 → exec (.readData p m) s =
      .next { s with cx := Cx.settle (d.copyOut r.stream g g.data) r.stream r.command }))

/-- The front end of a stream (R140 to R146). Streams other than the named one are untouched: each next state is given
whole. -/
def Obligations.DoorbellsAndFetches : Prop :=
  (∀ (s : State) (p : Side) (st : StreamId) (v : W64) (g : Img) (d : Desc),
    let c := s.cx
    let x := c.strm st.toNat
    c.serves p = true → c.enabled = true → c.img.cfg = some g → st.toNat < g.streams.count → x.serving = some p →
    x.routing = none → x.desc = some d → x.st ≠ .halted → x.st ≠ .reinit → x.fetching = false → d.poll = false →
    d.generation = bellGen v → x.gen = bellGen v → newer (bellLast v) x.inForce = true →
    (bellLast v - x.done).toNat ≤ 2 ^ d.ringLog2 →
    exec (.doorbell p (BitVec.ofNat 15 (8 * st.toNat)) 8 true v) s = .next { s with cx := ((c.modStrm st.toNat fun x =>
      { x with gen := bellGen v, cache := [] }).modStrm st.toNat fun x =>
        { x with last := some (bellLast v), st := if x.pauseBit then .paused else .active }) }) ∧
  (∀ (s : State) (p : Side) (st : StreamId) (v : W64) (g : Img),
    let c := s.cx
    let x := c.strm st.toNat
    c.serves p = true → c.enabled = true → c.img.cfg = some g → st.toNat < g.streams.count → x.serving = none →
    x.routing = none → x.st ≠ .halted →
    exec (.doorbell p (BitVec.ofNat 15 (8 * st.toNat)) 8 true v) s = .next { s with cx :=
      ((c.modPort p fun q => { q with doorbells := q.doorbells ++ [(st, v)] }).modStrm st.toNat fun x =>
        { x with routing := some p }) }) ∧
  (∀ (s : State) (st : StreamId) (g : Img) (d : Desc) (e : Side),
    let c := s.cx
    let x := c.strm st.toNat
    let r := c.accessNum d.flagAddr.toNat 8
    c.enabled = true → c.img.enableBit = true → c.img.cfg = some g → st.toNat < g.streams.count → x.serving = some e →
    x.desc = some d → d.poll = true → c.serves e = true → x.st ≠ .halted → x.st ≠ .reinit →
    c.fetchable e d.flagAddr.toNat 8 = true → x.flag = some (BitVec.ofNat 64 r.2) →
    exec (.pollFlagRead st) s = .next { s with cx := (r.1.modStrm st.toNat fun x =>
      { x with flag := some (BitVec.ofNat 64 r.2), cache := [] }) }) ∧
  (∀ (s : State) (st : StreamId) (d : Desc) (e : Side),
    let c := s.cx
    let x := c.strm st.toNat
    let r := c.accessNum (c.descAddr st.toNat) 64
    c.img.enableBit = true → x.routing = none → x.fetching = true → x.serving = some e →
    c.fetchable e (c.descAddr st.toNat) 64 = true → readDesc r.2 = some d → r.1.descServer e r.2 = e →
    d.generation = (x.waiting.head?.map fun w => bellGen w.2).getD x.gen →
    exec (.descriptorFetch st true) s = .next { s with cx :=
      ((r.1.strm st.toNat).waiting.foldl (fun c v => c.takeBell st v.1 v.2)
        ((r.1.modStrm st.toNat fun x => { x with serving := some e, fetching := false }).modStrm st.toNat fun x =>
          { x with desc := some d, waiting := [] })) }) ∧
  (∀ (s : State) (st : StreamId) (d : Desc) (n : W32) (die : Side),
    let c := s.cx
    let x := c.strm st.toNat
    let a := d.ringBase.toNat + 64 * (n.toNat % 2 ^ d.ringLog2)
    let r := c.accessNum a 64
    x.desc = some d → x.toFetch = some n → x.serving = some die → x.st = .active → c.enabled = true →
    c.img.enableBit = true → c.serves die = true → c.inFlight die < 4096 → c.fetchable die a 64 = true →
    exec (.commandFetch st true) s = .next { s with cx := ((r.1.modStrm st.toNat fun x =>
      { x with cache := x.cache ++ [(n, BitVec.ofNat 512 r.2)] }).haltIfBad st) })

/-- Completion (R149, Table 6.4), COMMAND_TIMEOUT (R151, R155), pause and re-initialisation (R162). The remaining wait that
a timeout reports is open. -/
def Obligations.RecordsAndStreamControl : Prop :=
  (∀ (s : State) (st : StreamId) (ticks : Nat) (f : Flight) (rest : List Flight) (d : Side) (desc : Desc),
    let c := s.cx
    let x := c.strm st.toNat
    let a := desc.completionBase.toNat + 32 * (f.number.toNat % 2 ^ desc.complLog2)
    x.flights = f :: rest → x.serving = some d → f.status ≠ none → f.owed = 0 → c.serves d = true → f.desc = some desc →
    (bits a 63 60 = 4 → (c.port (Side.ofNum (bits a 57 57))).up = true ∧
      (c.port (Side.ofNum (bits a 57 57))).busMaster = true) →
    c.checkRange .write a 32 = none → c.unreachable? d a = none →
    let e := ((c.releaseOwn st f).accessWrite a (f.record ticks desc.complLog2 c.ticks)).retireCommand st f ticks d true
    let e := if f.cmd.getLsbD 9 ∧ desc.msix ≠ 0 then e.msix (desc.irqPort d) desc.msix else e
    let e := if f.cmd.getLsbD 10 ∧ success (f.finalStatus ticks) = false ∧ x.st ≠ .reinit
      then e.haltStream st 7 f.number x.gen else e
    exec (.completionWrite st ticks true) s = .next { s with cx := (e.endReinit st).endDisable }) ∧
  (∀ (s : State) (st : StreamId) (num : W32) (f : Flight), s.cx.flight? st num = some f → f.status = none →
    f.timeout ≠ 0 → ¬ (f.op = 0x33 ∧ 2 ≤ f.phase) →
    ∃ r, exec (.commandTimeout st num) s =
      .next { s with cx := ({ s.cx with free := s.cx.free + 1 } : Cx).finish st num stRetry r 0#8 }) ∧
  (∀ (s : State) (d : Side), s.cx.serves d = true → s.cx.foreign d = false →
    exec (.streamPause d) s = .next { s with cx := (s.cx.modStrm (s.cx.selected d).toNat fun x =>
      { x with pauseBit := true, st := if x.st = .active then .paused else x.st }) }) ∧
  (∀ (s : State) (d : Side), s.cx.serves d = true → s.cx.foreign d = false →
    (s.cx.strm (s.cx.selected d).toNat).flights = [] → (s.cx.strm (s.cx.selected d).toNat).st ≠ .reinit →
    ∃ t, exec (.streamReinit d) s = .next t ∧ t.pending = s.pending ∧
      let x := s.cx.strm (s.cx.selected d).toNat
      let y := t.cx.strm (s.cx.selected d).toNat
      y.st = .idle ∧ y.next = x.reinitNum ∧ y.done = x.reinitNum - 1#32 ∧ y.last = none ∧ y.cache = [] ∧ y.desc = none ∧
      y.pauseBit = false ∧ y.halt = 0 ∧ y.flights = [] ∧
      (∀ n, n ≠ (s.cx.selected d).toNat → t.cx.strm n = s.cx.strm n) ∧ SameBytes s.cx t.cx) ∧
  (∀ (s : State) (d : Side), s.cx.serves d = true → s.cx.foreign d = false →
    (s.cx.strm (s.cx.selected d).toNat).flights ≠ [] → (s.cx.strm (s.cx.selected d).toNat).st ≠ .reinit →
    let drop := fun q : Port => { q with doorbells := q.doorbells.filter fun b => b.1 != s.cx.selected d }
    exec (.streamReinit d) s = .next { s with cx := (((s.cx.modPort .A drop).modPort .B drop).modStrm
      (s.cx.selected d).toNat fun x => { x with st := .reinit, halt := 0, desc := none, cache := [], waiting := []
                                                fetching := false, routing := none }) }) ∧
  (∀ (s : State) (d : Side), s.cx.serves d = true → s.cx.foreign d = false →
    (s.cx.strm (s.cx.selected d).toNat).st = .reinit → exec (.streamReinit d) s = .next s)

/-- BAR0 accesses (R7 to R9, R89) and BAR4 accesses (R94, R97). -/
def Obligations.RegisterAccesses : Prop :=
  (∀ (s : State) (p : Side) (off : BitVec 25) (v : W64) (b : Blk) (o : Nat), s.cx.serves p = true → off.toNat % 4 = 0 →
    blockOf off.toNat = some (b, o) → s.cx.readReg p b o ≠ none → s.cx.reachable p b o = true →
    exec (.registerWrite p off 4 v) s = .next { s with cx := s.cx.writeReg p b o (v.setWidth 32) }) ∧
  (∀ (s : State) (p : Side) (off : BitVec 25) (b : Blk) (o v : Nat), s.cx.serves p = true → off.toNat % 4 = 0 →
    blockOf off.toNat = some (b, o) → s.cx.readReg p b o = some v → s.cx.reachable p b o = true →
    exec (.readClear p off 4) s = .next { s with cx := ((s.cx.afterRead p b o off.toNat).emit (.read p (leBytes 4 (BitVec.ofNat 32 v).toNat))) }) ∧
  (∀ (c : Cx) (p : Side) (n : Fin 640) (o off : Nat), isRc (.nwt n) o = true →
    c.afterRead p (.nwt n) o off = c.ctrClear off ∧ (c.afterRead p (.nwt n) o off).ctr off = {} ∧
    ∀ q, q ≠ off → (c.afterRead p (.nwt n) o off).ctr q = c.ctr q) ∧
  (∀ (s : State) (p : Side) (off : BitVec 25) (size : Nat) (v : W64), s.cx.serves p = true →
    ¬ (size = 4 ∧ off.toNat % 4 = 0) → ¬ (size = 8 ∧ off.toNat % 8 = 0) →
    exec (.registerWrite p off size v) s = .next { s with cx := s.cx.hostDrop p 0 off.toNat size true } ∧
    exec (.readClear p off size) s = .next { s with cx := ((s.cx.hostDrop p 0 off.toNat size false).emit (.read p (List.replicate size 0#8))) }) ∧
  (∀ (s : State) (p : Side) (v : W32), s.cx.serves p = true →
    exec (.apertureBaseWrite p true v) s =
      .next { s with cx := s.cx.modPort p fun q => { q with aperture := v ++ 0#32 } }) ∧
  (∀ (s : State) (p : Side) (off : W32) (size : Nat) (bs : List Byte),
    let a := s.cx.apertureAddr p off
    s.cx.serves p = true → bits a 63 60 ≠ 4 → s.cx.checkRange .write a bs.length = none → s.cx.unreachable? p a = none →
    exec (.apertureAccess p off size (some bs)) s = .next { s with cx := s.cx.accessWrite a bs }) ∧
  (∀ (s : State) (p : Side) (off : W32) (size : Nat),
    let a := s.cx.apertureAddr p off
    s.cx.serves p = true → bits a 63 60 ≠ 4 → s.cx.checkRange .debug a size = none → s.cx.unreachable? p a = none →
    exec (.apertureAccess p off size none) s =
      .next { s with cx := (s.cx.accessRead a size).1.emit (.read p (s.cx.accessRead a size).2) }) ∧
  (∀ (s : State) (p : Side) (off : W32) (size : Nat) (w : Option (List Byte)),
    let a := s.cx.apertureAddr p off
    let n := (w.map List.length).getD size
    s.cx.serves p = true →
    bits a 63 60 = 4 ∨ s.cx.checkRange (if w.isSome then .write else .debug) a n ≠ none →
    exec (.apertureAccess p off size w) s = .next { s with cx :=
      (if w.isSome then s.cx.addrInvalid p 1 0#12 0#32 0 a
       else (s.cx.addrInvalid p 1 0#12 0#32 0 a).answerZeros p n) }) ∧
  (∀ (c : Cx) (a : Nat) (bs : List Byte), c.touchesWindow a bs.length = false →
    c.accessWrite a bs = c.writeAt a bs ∧ ∀ n, c.touchesWindow a n = false → c.accessRead a n = (c, c.readAt a n))

/-- FUNCTION_LEVEL_RESET (R93), with its frame. -/
def Obligations.FunctionLevelReset : Prop :=
  ∀ (s : State) (p : Side), s.cx.coreUp p = true →
    ∃ t, exec (.functionLevelReset p) s = .next t ∧ t.pending = s.pending ∧
      (let q := s.cx.port p
       let r := t.cx.port p
       r.up = q.up ∧ r.lanes = q.lanes ∧ r.rate = q.rate ∧ r.busMaster = false ∧ r.driverReady = false ∧ r.aperture = 0#64 ∧
       r.remoteUnreachable = false ∧ r.dropped = false ∧ r.fnMask = true ∧ r.masked = List.range 64 ∧ r.pending = [] ∧
       r.table = [] ∧ r.ring = {}) ∧
      t.cx.port p.twin = s.cx.port p.twin ∧ SameBytes s.cx t.cx ∧ (∀ d, t.cx.die d = s.cx.die d) ∧
      t.cx.wins = s.cx.wins ∧ t.cx.stks = s.cx.stks ∧ t.cx.newts = s.cx.newts ∧ t.cx.img = s.cx.img ∧
      t.cx.regs = s.cx.regs ∧ t.cx.ctrs = s.cx.ctrs ∧ t.cx.ports = s.cx.ports ∧ t.cx.journal = s.cx.journal

/-- The event arbiter and the rings (R90, R98 to R100, R379) and the first-NaN trap (R56). -/
def Obligations.EventRings : Prop :=
  (∀ (s : State) (n : Nat) (e : Ev), s.cx.arb.queue[s.cx.arb.pick n]? = some e → s.cx.coreUp s.cx.master = true →
    exec (.eventArrival n) s = .next { s with cx := (({ s.cx with arb := { s.cx.arb with queue := s.cx.arb.queue.eraseIdx (s.cx.arb.pick n) } } : Cx).arrive e) }) ∧
  (∀ (s : State) (n : Nat) (r : NanRec), s.cx.arb.nans[n]? = some r →
    exec (.nanArrival n) s = .next { s with cx := (({ s.cx with arb := { s.cx.arb with nans := s.cx.arb.nans.eraseIdx n } } : Cx).nanArrives r) }) ∧
  (∀ (s : State) (p : Side), (s.cx.port p).ring.holdoff ≠ 0 → (s.cx.port p).ring.unsignalled ≠ 0 →
    exec (.irqHoldoffExpiry p) s = .next { s with cx := ((s.cx.modPort p fun q => { q with ring := { q.ring with unsignalled := 0 } }).msix p 0) }) ∧
  (∀ (s : State) (p : Side), exec (.msixUnmask p none) s =
    .next { s with cx := (s.cx.modPort p fun q => { q with fnMask := false }).sendPending p }) ∧
  (∀ (s : State) (p : Side) (v : Fin 64), exec (.msixUnmask p (some v)) s =
    .next { s with cx := (s.cx.modPort p fun q => { q with masked := ndel q.masked v.val }).sendPending p }) ∧
  (∀ (s : State) (p : Side) (v : W32),
    let g := (s.cx.port p).ring
    let h := bits v.toNat 15 0
    let m := 2 ^ g.size
    h < m → (h + m - g.head) % m ≤ (g.tail + m - g.head) % m →
    exec (.evtRingHeadWrite p v) s = .next { s with cx := ((s.cx.modPort p fun q => { q with ring := { q.ring with head := h } }).drainRing p) }) ∧
  (∀ (s : State) (p : Side) (v : W32), (s.cx.port p).ring.enable = false →
    (bits v.toNat 11 0 = 0 → exec (.evtRingBaseWrite p false v) s = .next { s with cx := (s.cx.modPort p fun q =>
      { q with ring := { q.ring with base := BitVec.ofNat 64 (setBits (s.cx.port p).ring.base.toNat 31 0 v.toNat) } }) }) ∧
    exec (.evtRingBaseWrite p true v) s = .next { s with cx := (s.cx.modPort p fun q =>
      { q with ring := { q.ring with base := BitVec.ofNat 64 (setBits (s.cx.port p).ring.base.toNat 63 32 v.toNat) } }) }) ∧
  (∀ (s : State) (p : Side) (v : W32),
    (s.cx.port p).ring.enable = false ∨ ringSize (bits v.toNat 12 8) = (s.cx.port p).ring.size →
    exec (.evtRingCtrlWrite p v) s = .next { s with cx := (s.cx.modPort p fun q =>
      { q with ring := q.ring.control (bit v.toNat 0) (ringSize (bits v.toNat 12 8)) }) })

/-- EVENT_ARRIVAL numbers events one by one (R379). -/
def Obligations.EventNumbersRise : Prop :=
  ∀ (s : State) (n : Nat) (e : Ev), s.cx.arb.queue[s.cx.arb.pick n]? = some e → s.cx.coreUp s.cx.master = true →
    ∃ t, exec (.eventArrival n) s = .next t ∧ t.cx.arb.seq = s.cx.arb.seq + 1#64 ∧ t.cx.wins = s.cx.wins ∧
      t.cx.streams = s.cx.streams ∧ t.cx.img = s.cx.img ∧ t.cx.newts = s.cx.newts ∧ t.cx.stks = s.cx.stks ∧
      ((s.cx.portA.ring.enable = false ∧ s.cx.portB.ring.enable = false) →
        SameBytes s.cx t.cx ∧ t.cx.portA.ring = s.cx.portA.ring ∧ t.cx.portB.ring = s.cx.portB.ring)

/-- The image machinery (R124 to R131). Bytes reach the staging area by `poke` alone. -/
def Obligations.ImageLifeCycle : Prop :=
  (∀ (s : State) (d : Side), s.cx.serves d = true →
    s.cx.img.st = .empty ∨ s.cx.img.st = .loaded ∨ s.cx.img.st = .refused →
    exec (.imageLoad d) s = .next { s with cx := (s.cx.setImg fun m => { m with
      st := .loading, push := none, loadLen := (s.cx.reg (hubBase .A + 8)).toNat
      loadAddr := BitVec.ofNat 64 ((s.cx.reg (hubBase .A)).toNat + (s.cx.reg (hubBase .A + 4)).toNat * 2 ^ 32) }) }) ∧
  (∀ (s : State), s.cx.img.st = .loading → s.cx.img.push = none → s.cx.img.loadLen ≠ 0 → s.cx.img.loadLen ≤ 0x4000000 →
    s.cx.loadable = true →
    exec (.imageLoadDone true) s = .next { s with cx := ((s.cx.poke (sramKey s.cx.master stagingOff) (s.cx.readAt s.cx.img.loadAddr.toNat s.cx.img.loadLen)).setImg fun m =>
        { m with st := .loaded, stagedLen := s.cx.img.loadLen }) }) ∧
  (∀ (s : State) (d : Side), s.cx.serves d = true → s.cx.img.st = .loaded ∨ s.cx.img.st = .refused →
    s.cx.awake .A = true → s.cx.awake .B = true →
    (checkFull s.cx (s.cx.staged false) s.cx.hostClaim = none →
      exec (.imageEnable d) s = .next { s with cx := ((s.cx.sectionsSkipped (s.cx.staged false)).setImg fun m =>
        { m with st := .checking, enableBit := true, checked := some (s.cx.staged false).img }) }) ∧
    (∀ x, checkFull s.cx (s.cx.staged false) s.cx.hostClaim = some x →
      exec (.imageEnable d) s = .next { s with cx := s.cx.refuseImage false x })) ∧
  (∀ (s : State) (d : Side), s.cx.serves d = true → s.cx.img.st = .loaded ∨ s.cx.img.st = .refused →
    s.cx.awake .A = false ∨ s.cx.awake .B = false →
    exec (.imageEnable d) s = .next { s with cx := (((s.cx.setImg fun m => { m with
      st := .checking, enableBit := true, checked := none }).leaveFrost 1).wake d 1).wake d.twin 4 }) ∧
  (∀ (s : State) (g : Img), s.cx.img.checked = some g → s.cx.img.st = .checking → s.cx.coreUp .A = true →
    s.cx.coreUp .B = true →
    let c := g.geo.active.foldl (fun c k => c.initStack g k) (s.cx.initUnits g)
    let c := (g.wmap.foldl (fun c m => c.initWindow g m) c).initParity g
    let n := c.hostMinor g
    let c := c.setImg fun m => { m with st := .enabled, cfg := some g, checked := none, part := .none
                                        agreed := true, agreedMinor := n }
    let c := g.wmap.foldl (fun c m => c.saveEntry m.window) c
    exec .imageInitDone s =
      .next { s with cx := (c.enableFabric g).ev 0x2001 11 0 c.master c.master.num [g.id.toNat] }) ∧
  (∀ (s : State) (d : Side) (g : Img), s.cx.img.cfg = some g → s.cx.serves d = true → s.cx.enabled = true →
    s.cx.img.part = .loaded → checkPartial g (s.cx.staged true) s.cx.hostClaim = none →
    exec (.partialApply d) s =
      .next { s with cx := (s.cx.sectionsSkipped (s.cx.staged true)).applyPartial g (s.cx.staged true) }) ∧
  (∀ (s : State) (d : Side), s.cx.serves d = true → s.cx.enabled = true → s.cx.img.enableBit = true →
    let c := s.cx.setImg fun m => { m with enableBit := false }
    let c := c.submit c.master (.image 0)
    let c := ({ c with streams := c.streams.map fun p : Nat × Stream =>
      (p.1, { p.2 with cache := [], waiting := [], fetching := false, routing := none }) } : Cx).endWaits
    let c := c.openSpecs.foldl (fun (c : Cx) w => (c.discardSpec w).modWin w fun v =>
      { v with st := .quiet, hold := false, verdict := none }) c
    let c := (List.range 12).foldl (fun (c : Cx) p => c.modFp p fun q =>
      if q.st == .up then { q with departing := true } else { q with st := .down, resetting := 0, bootstrap := true }) c
    exec (.imageDisable d) s = .next { s with cx := c.endDisable })

/-- Telemetry (R105, R106) and test access (R109, R110). -/
def Obligations.TelemetryAndTestAccess : Prop :=
  (∀ (s : State) (d : Side), s.cx.serves d = true →
    exec (.telemetrySnap d false) s = .next { s with cx := s.cx.snapshot d } ∧
    exec (.telemetrySnap d true) s = .next { s with cx := (s.cx.snapshot d).telemClear d } ∧
    exec (.telemetryClear d) s = .next { s with cx := s.cx.telemClear d }) ∧
  (∀ (s : State) (d : Side) (progress : Bool), (s.cx.die d).aon = true → s.cx.coreUp d = true →
    (s.cx.die d).power = .run ∨ (s.cx.die d).power = .thaw → s.cx.governed d = false →
    let c := if d = .A ∨ s.cx.dieA.aon = false then ({ s.cx with ticks := s.cx.ticks + 1 } : Cx) else s.cx
    exec (.telemetryTick d progress) s =
      .next { s with cx := c.bump (hubBase d + (if progress then 0x240 else c.idleCounter d)) 64 d }) ∧
  (∀ (s : State) (d : Side), (s.cx.die d).aon = true →
    exec (.bypass d) s = .next { s with cx := s.cx.modDie d fun k => { k with jtag := 0 } } ∧
    exec (.idcode d) s =
      .next { s with cx := (s.cx.modDie d fun k => { k with jtag := 1 }).emit (.tdo d 0x1A0209A7#32) } ∧
    exec (.samplePreload d) s = .next { s with cx := s.cx.modDie d fun k => { k with jtag := 2 } }) ∧
  (∀ (s : State) (d : Side), (s.cx.die d).aon = true →
    let locked := s.cx.enabled || (s.cx.die d).core
    exec (.extest d) s = .next { s with cx := s.cx.modDie d fun k => { k with jtag := if locked then 0 else 3 } } ∧
    exec (.clamp d) s = .next { s with cx := s.cx.modDie d fun k => { k with jtag := if locked then 0 else 4 } } ∧
    exec (.highz d) s = .next { s with cx := s.cx.modDie d fun k => { k with jtag := if locked then 0 else 5 } } ∧
    exec (.wrapperSelect d) s = .next { s with cx := s.cx.modDie d fun k => { k with jtag := if locked then 0 else 6 } })

/-- SMBus (R107, R108, Table 4.12). -/
def Obligations.SmbusCommands : Prop :=
  (∀ (s : State) (d : Side), (s.cx.die d).aon = true →
    let le := fun b o => leBytes 4 ((s.cx.readReg d b o).getD 0)
    exec (.getId d true) s = .next { s with cx := s.cx.emit (.smbus d (0#8 :: (le .hst 0x000 ++ le .hst 0x004))) } ∧
    exec (.getState d true) s = .next { s with cx := (s.cx.emit (.smbus d (0#8 :: (le .hst 0x008 ++ le (.pwr d) 0x000 ++ le (.hub d) 0x010)))) } ∧
    exec (.getTemp d true) s = .next { s with cx := (s.cx.emit (.smbus d (0#8 ::
      (((List.range 10).map fun i => BitVec.ofInt 8 (s.cx.stk (10 * d.num + i)).maxTemp) ++
        [BitVec.ofInt 8 (s.cx.die d).temp] ++ [BitVec.ofNat 8 (b2n (s.cx.die d).stale)])))) } ∧
    exec (.getPower d true) s =
      .next { s with cx := s.cx.emit (.smbus d (0#8 :: leBytes 2 (average s.cx.gov.samples))) } ∧
    exec (.getEventSummary d true) s = .next { s with cx := (s.cx.emit (.smbus d (0#8 ::
      (leBytes 8 (if s.cx.arb.seq = 0#64 then 0 else (s.cx.arb.seq - 1#64).toNat) ++
        leBytes 2 (kget 0 s.cx.arb.sev3 0))))) }) ∧
  (∀ (s : State) (d : Side) (target : Byte), (s.cx.die d).aon = true → target.toNat = 0 ∨ target.toNat = 1 ∨ target.toNat = 3 →
    let r := s.cx.requestPower d target.toNat 5
    exec (.requestPowerState d true target) s =
      .next { s with cx := r.1.emit (.smbus d [if r.2.isSome then 2#8 else 0#8]) }) ∧
  (∀ (s : State) (d : Side) (off v : W32) (b : Blk) (o : Nat), (s.cx.die d).aon = true →
    blockOf off.toNat = some (b, o) → off.toNat % 4 = 0 → s.cx.readReg d b o ≠ none →
    b.isPwr = true ∨ (s.cx.die d).power = .run →
    (b.smbReads = true → exec (.regRead d true off) s = .next { s with cx := ((s.cx.read32 d off.toNat).1.emit (.smbus d (0#8 :: leBytes 4 (s.cx.read32 d off.toNat).2.toNat))) }) ∧
    (b.smbWrites o = true → exec (.regWrite d true off v) s =
      .next { s with cx := (s.cx.write32 d off.toNat v).emit (.smbus d [0#8]) })) ∧
  (∀ (s : State) (d : Side) (target : Byte) (off v : W32), (s.cx.die d).aon = true →
    ∀ i ∈ [Instr.getId d false, .getState d false, .getTemp d false, .getPower d false, .getEventSummary d false,
      .requestPowerState d false target, .regRead d false off, .regWrite d false off v],
      exec i s = .next { s with cx := s.cx.emit (.nack d) })

/-- Every rule row but FSTAT (Table 9.4). -/
def Obligations.RuleRowsRun : Prop :=
  ∀ (s : State) (at_ : LaneAt) (v : Win) (p : Pass) (t : Tensor) (l : LaneCtx) (d : BitVec 4) (a b k : BitVec 6)
    (x y z : BitVec 2) (m : Bool) (q : RPred) (r : RInstr × Instr),
    r ∈ ([
      (.alu2 .add d a b q, .rAdd at_ d a b q), (.alu2 .sub d a b q, .rSub at_ d a b q),
      (.alu2 .mul d a b q, .rMul at_ d a b q), (.alu3 .fma d a b k q, .rFma at_ d a b k q),
      (.alu3 .fnma d a b k q, .rFnma at_ d a b k q), (.alu2 .div d a b q, .rDiv at_ d a b q),
      (.alu1 .sqrt d a q, .rSqrt at_ d a q), (.alu1 .rsqrt d a q, .rRsqrt at_ d a q),
      (.alu2 .max d a b q, .rMax at_ d a b q), (.alu2 .min d a b q, .rMin at_ d a b q),
      (.alu1 .abs d a q, .rAbs at_ d a q), (.alu1 .neg d a q, .rNeg at_ d a q),
      (.alu1 .sign d a q, .rSign at_ d a q), (.alu1 .mov d a q, .rMov at_ d a q),
      (.cmp .clt x a b q, .rClt at_ x a b q), (.cmp .cle x a b q, .rCle at_ x a b q),
      (.cmp .ceq x a b q, .rCeq at_ x a b q), (.pand x y z q, .rPand at_ x y z q),
      (.por x y z q, .rPor at_ x y z q), (.pnot x y q, .rPnot at_ x y q), (.ldw d m q, .rLdw at_ d m q),
      (.ldg d q, .rLdg at_ d q), (.ldm d q, .rLdm at_ d q), (.ldb d q, .rLdb at_ d q), (.fac d q, .rFac at_ d q),
      (.stw d m q, .rStw at_ d m q), (.stm d m, .rStm at_ d m), (.stb d, .rStb at_ d), (.ste d y, .rSte at_ d y)] :
        List (RInstr × Instr)) →
    LaneRuns s.cx at_ r.1 v p t l →
    let e := laneEnv s.cx at_ v p t l
    let f := ruleSem r.1 s.cx e l
    let n := { f.l with pc := l.pc + 1, clamped := f.l.clamped || f.clamped != 0, zeroed := f.l.zeroed || f.zeroed != 0 }
    let c := (s.cx.applyFx e r.1.cycles f).keepLane at_.window.toNat at_.group.val n f.fl f.zeroed
    exec r.2 s = .next { s with cx := (if p.prog.length ≤ l.pc + 1
      then (c.closeBlock e n).nextBlock at_.window.toNat v p t at_.group.val (l.block + 32) else c) }

/-- Lane values of the arithmetic instructions and loads (R220, R222, Table 9.4). A lane group has sixteen vector
registers of 64 lanes. -/
def Obligations.RuleLaneValues : Prop :=
  ∀ (c : Cx) (e : RuleEnv) (l : LaneCtx) (i : RInstr), l.v.length = 16 → laneValue c e l 0 i ≠ none →
    (∀ j, j < 64 → ∀ x, laneValue c e l j i = some x →
      ((ruleSem i c e l).l.vreg i.dest).getD j 0#32 =
        if predRuns i.pred l j then x else (l.vreg i.dest).getD j 0#32) ∧
    (∀ r, r ≠ i.dest → (ruleSem i c e l).l.vreg r = l.vreg r) ∧
    (ruleSem i c e l).l.p = l.p ∧ (ruleSem i c e l).puts = [] ∧ (ruleSem i c e l).drizzle = []

/-- Predicate bits of the compares and predicate operations (R220, Table 9.4). A lane group has four predicate
registers. -/
def Obligations.RulePredicateBits : Prop :=
  ∀ (c : Cx) (e : RuleEnv) (l : LaneCtx) (i : RInstr), l.p.length = 4 → laneBit e l 0 i ≠ none →
    (∀ j, j < 64 → ∀ x, laneBit e l j i = some x →
      ((ruleSem i c e l).l.preg i.dest).getLsbD j = if predRuns i.pred l j then x else (l.preg i.dest).getLsbD j) ∧
    (∀ r, r ≠ i.dest → (ruleSem i c e l).l.preg r = l.preg r) ∧
    (ruleSem i c e l).l.v = l.v ∧ (ruleSem i c e l).puts = []

/-- Frame of the rule rows inside a block (R168, R223 to R228). The stored bytes are computed by the meaning itself. -/
def Obligations.RuleStoresFrame : Prop :=
  ∀ (s : State) (at_ : LaneAt) (i : RInstr) (v : Win) (p : Pass) (t : Tensor) (l : LaneCtx),
    LaneRuns s.cx at_ i v p t l → i.isFstat = false → l.pc + 1 < p.prog.length →
    let e := laneEnv s.cx at_ v p t l
    ∃ u, exec (i.row at_) s = .next u ∧ u.pending = s.pending ∧
      (∀ k, kget? s.cx.dirty k = none →
        (∀ q ∈ (ruleSem i s.cx e l).puts,
          k < stackKey (winStack at_.window.toNat) q.1 ∨
            stackKey (winStack at_.window.toNat) q.1 + q.2.length ≤ k) →
        u.cx.byte k = s.cx.byte k) ∧
      (∀ w, w ≠ at_.window.toNat → kget? u.cx.wins w = kget? s.cx.wins w) ∧
      (s.cx.r17 = false → u.cx.portA = s.cx.portA ∧ u.cx.portB = s.cx.portB) ∧ u.cx.dieA = s.cx.dieA ∧ u.cx.dieB = s.cx.dieB ∧
      u.cx.img = s.cx.img ∧ u.cx.queues = s.cx.queues ∧ u.cx.newts = s.cx.newts

/-- FSTAT (R231, R233). -/
def Obligations.FstatRuns : Prop :=
  ∀ (s : State) (w : BitVec 19) (a b k : BitVec 6) (v : Win) (p : Pass) (t : Tensor),
    kget? s.cx.wins w.toNat = some v → v.pass = some p → s.cx.tensor? v.tensor = some t → p.fstatDone = false →
    p.prog.head?.bind decodeRule = some (.fstat a b k) →
    let st := winStack w.toNat
    let e := s.cx.ruleEnv w.toNat v p t 0 0
    let r := s.cx.statRun e a b k
    (t.factored = false → exec (.rFstat w a b k) s = .next { s with cx := s.cx.statDone w.toNat none 0#8 }) ∧
    (t.factored = true → r.ran = true →
      exec (.rFstat w a b k) s = .next { s with cx := s.cx.statDone w.toNat (some r.buf) 0#8 }) ∧
    (t.factored = true → r.ran = false →
      s.cx.fstatReady st t p.step (match v.st with | .writeRun _ d => d | _ => false) = true →
      exec (.rFstat w a b k) s = .next { s with cx := s.cx.runFstat w.toNat e t r })

/-- Vector instructions of Table 11.7: lane values and frame. -/
def Obligations.TadpoleVectorRows : Prop :=
  ∀ (s : State) (ch : Fin 640) (j : Job) (t : Tad) (f1 f2 f3 : BitVec 3),
    let runs := fun (i : TInstr) (v : List W32) => TadRuns s.cx ch i j t →
      ∃ u, exec (i.row ch) s = .next u ∧ u.pending = s.pending ∧ TadWrote s.cx u.cx ch t f1 v
    let lanes := fun (f : Nat → W32) => (List.range 64).map f
    let two := fun (f : W32 → W32 → W32 × Flags) => lanes fun k => (newtOp2 f (t.lane f2 k) (t.lane f3 k)).1
    runs (.vec .vadd f1 f2 f3) (two f32Add) ∧ runs (.vec .vsub f1 f2 f3) (two f32Sub) ∧
    runs (.vec .vmul f1 f2 f3) (two f32Mul) ∧ runs (.vec .vdiv f1 f2 f3) (two f32Div) ∧
    runs (.vec .vmax f1 f2 f3) (two f32Max) ∧ runs (.vec .vmin f1 f2 f3) (two f32Min) ∧
    runs (.vec .vfma f1 f2 f3) (lanes fun k => (newtOp3 f32Fma (t.lane f2 k) (t.lane f3 k) (t.lane f1 k)).1) ∧
    runs (.vexp f1 f2) (lanes fun k => (f32Exp (t.lane f2 k)).1) ∧
    (∀ fmt, runs (.vrnd f1 f2 fmt) (lanes fun k =>
      (widen fmt.toNat (leNat (outBytes fmt.toNat false (t.lane f2 k)).1)).1)) ∧
    runs (.vkeep f1 f2 f3) (lanes fun k =>
      if (f32Num (flush (t.lane f2 k)).1).lt (f32Num (flush (t.lane f3 k)).1) then t.lane f1 k else 0#32) ∧
    runs (.rmax f1 f2) (List.replicate 64
      (((t.xreg f2).drop 1).foldl (fun a x => (newtOp2 f32Max a x).1) ((t.xreg f2).headD 0#32))) ∧
    runs (.rsum f1 f2) (List.replicate 64 (newtTree 7 {} (t.xreg f2) 0).1) ∧
    (∀ lane : BitVec 6, runs (.bcast f1 f2 lane) (List.replicate 64 (t.lane f2 lane.toNat)))

/-- Control instructions of Table 11.7, each with its whole next state. -/
def Obligations.TadpoleControlRows : Prop :=
  ∀ (s : State) (ch : Fin 640) (j : Job) (t : Tad) (f1 f2 : BitVec 3),
    let putTad := fun (t : Tad) => ({ s with cx := s.cx.modNewt ch fun n => { n with tad := some t } } : State)
    (∀ imm, TadRuns s.cx ch (.sets f1 imm) j t →
      exec (.tSets ch f1 imm) s = .next (putTad { t with pc := t.pc + 1, s := t.s.set f1.toNat (imm.setWidth 32) })) ∧
    (∀ imm : BitVec 17, TadRuns s.cx ch (.adda f1 imm) j t →
      exec (.tAdda ch f1 imm) s = .next (putTad { t with pc := t.pc + 1, a := (t.a.set f1.toNat
        ((t.ptr f1).map fun p => { p with off := p.off + imm.toInt * fmtSize p.fmt })) })) ∧
    (TadRuns s.cx ch (.seta f1 f2) j t →
      exec (.tSeta ch f1 f2) s = .next (putTad { t with pc := t.pc + 1, a := t.a.set f1.toNat (t.ptr f2) })) ∧
    (∀ target : BitVec 8, TadRuns s.cx ch (.loop f1 target) j t →
      exec (.tLoop ch f1 target) s = .next (putTad { t with
        pc := if t.sreg f1 = 1#32 then t.pc + 1 else target.toNat, s := t.s.set f1.toNat (t.sreg f1 - 1#32) })) ∧
    (∀ q : BitVec 4, TadRuns s.cx ch (.rand f1 q) j t →
      exec (.tRand ch f1 q) s = .next (putTad { t with pc := t.pc + 1, x := t.x.set f1.toNat ((List.range 64).map fun i =>
        natToF32 (mistSlice j.seed (newtCounter j.layer j.microBatch (0x12 + q.toNat)
          ((j.elemBase + 64 * (t.sreg 7#3).toNat + i) % 2 ^ 48)) ((j.elemBase + 64 * (t.sreg 7#3).toNat + i) % 2 ^ 48))) })) ∧
    (∀ n : BitVec 7, TadRuns s.cx ch (.csend f1 n) j t →
      let d := s.cx.neighbour true ch
      exec (.tCsend ch f1 n) s = .next { s with cx := (if (s.cx.newt d).takesRecord then
        (s.cx.modNewt d fun m => { m with
            arriving := some ⟨(t.xreg f1).take n.toNat, (s.cx.newt ch).fx.bad⟩ }).tadNext ch t else s.cx) }) ∧
    (TadRuns s.cx ch (.crecv f1) j t → (s.cx.newt ch).buffer = none →
      exec (.tCrecv ch f1) s = .next { s with cx := s.cx.modNewt ch fun n => { n with chainWait := true } }) ∧
    (∀ r : ChainRec, TadRuns s.cx ch (.crecv f1) j t → (s.cx.newt ch).buffer = some r → r.poison = false →
      exec (.tCrecv ch f1) s = .next { s with cx := (((s.cx.modNewt ch fun n =>
        { n with buffer := none, chainWait := false }).tadNext ch
          (t.setX f1 ((r.vals.take 64) ++ List.replicate (64 - r.vals.length) 0#32))).resumeSender ch) }) ∧
    (TadRuns s.cx ch .end_ j t → exec (.tEnd ch) s = .next { s with cx := s.cx.closeJob ch })

/-- LDV, STV and DOT of Table 11.7 (R296, R297). -/
def Obligations.TadpoleMemoryRows : Prop :=
  ∀ (s : State) (ch : Fin 640) (j : Job) (t : Tad) (f1 f2 f3 : BitVec 3) (adv : Bool),
    (∀ p r, TadRuns s.cx ch (.ldv f1 f2 adv) j t → s.cx.access ch t f2 = .go p r →
      let v := s.cx.load ch r 0 64 (s.cx.newt ch).fx
      exec (.tLdv ch f1 f2 adv) s =
        .next { s with cx := (s.cx.keepFx ch t.pc v.2).tadNext ch ((t.setX f1 v.1).advance f2 adv) }) ∧
    (∀ rto p r, TadRuns s.cx ch (.stv f1 f2 adv rto) j t → s.cx.access ch t f2 = .go p r →
      let out := (t.xreg f1).map fun v => outBytes (if r.fmt > 5 then 5 else r.fmt) rto v
      let x := (s.cx.newt ch).fx.flag ((out.map (·.2)).foldl (· ||| ·) 0#8)
      exec (.tStv ch f1 f2 adv rto) s = .next { s with cx := (((s.cx.newtWrite ch r.scratch r.off (out.flatMap (·.1)) x.bad).keepFx ch t.pc x).tadNext ch
          (t.advance f2 adv)) }) ∧
    (∀ (lane : BitVec 6) p r q u, TadRuns s.cx ch (.dot f1 f2 f3 lane adv) j t → s.cx.access ch t f2 = .go p r →
      s.cx.access ch t f3 = .go q u →
      let a := s.cx.load ch r 0 64 (s.cx.newt ch).fx
      let b := s.cx.load ch u 0 64 a.2
      let d := b.2.dot ((t.xreg f1).getD lane.toNat 0#32) a.1 b.1 r.off
      exec (.tDot ch f1 f2 f3 lane adv) s = .next { s with cx := ((s.cx.keepFx ch t.pc d.2).tadNext ch
        (((t.setX f1 ((t.xreg f1).set lane.toNat d.1)).advance f2 adv).advance f3 adv)) }) ∧
    (∀ off, TadRuns s.cx ch (.ldv f1 f2 adv) j t → s.cx.access ch t f2 = .fault off →
      exec (.tLdv ch f1 f2 adv) s = .next { s with cx := s.cx.tadFault ch t f2.toNat off }) ∧
    (TadRuns s.cx ch (.ldv f1 f2 adv) j t → s.cx.access ch t f2 = .wait →
      exec (.tLdv ch f1 f2 adv) s = .next { s with cx := s.cx.settleGrant ch })

/-- Newt window (R280 to R283), NWT_GO (R294), NWT_CTRL (R303, R304). -/
def Obligations.NewtJobsTaken : Prop :=
  (∀ (s : State) (ch : Fin 640) (off : Nat) (bs : List Byte), (s.cx.newt ch).window ≠ none →
    windowEntry off bs.length = some 0 → off < 0x80 →
    exec (.newtWindowJobWrite ch off bs) s = .next { s with cx := ((bs.foldl (fun (p : Cx × Nat) b =>
      (p.1.modNewt ch fun n => { n with staging := kset 0#8 n.staging p.2 b }, p.2 + 1)) (s.cx, off)).1) }) ∧
  (∀ (s : State) (ch : Fin 640) (v : W64), let n := s.cx.newt ch
    let j : Job := { desc := n.staged, tag := v.setWidth 32, path := 0 }
    n.window ≠ none → n.mode = true → n.exiting = false → n.retired = false → n.job = none →
    s.cx.checkDesc ch j = none →
    exec (.newtWindowGo ch 8 v) s = .next { s with cx := ((s.cx.settleGrant ch).modNewt ch fun n =>
      { n with job := some j, tokens := (s.cx.settleGrant ch).tokens j }).settleGrant ch }) ∧
  (∀ (s : State) (ch : Fin 640) (tag : W32), let n := s.cx.newt ch
    let j : Job := { desc := s.cx.descRegs ch, tag := tag, path := 1 }
    n.mode = true → n.exiting = false → n.retired = false → n.job = none → s.cx.checkDesc ch j = none →
    exec (.nwtGo ch tag) s = .next { s with cx := ((s.cx.settleGrant ch).modNewt ch fun n =>
      { n with job := some j, tokens := (s.cx.settleGrant ch).tokens j }).settleGrant ch }) ∧
  (∀ (s : State) (ch : Fin 640) (tag : W32) (k : Job), let n := s.cx.newt ch
    let j : Job := { desc := s.cx.descRegs ch, tag := tag, path := 1 }
    n.mode = true → n.exiting = false → n.retired = false → n.job = some k → n.wait = none →
    s.cx.checkDesc ch j = none →
    exec (.nwtGo ch tag) s = .next { s with cx := s.cx.modNewt ch fun n => { n with wait := some j } }) ∧
  (∀ (s : State) (ch : Fin 640) (off size : Nat) (bs : List Byte), (s.cx.newt ch).window ≠ none →
    (s.cx.newt ch).ready = true → 0x8000 ≤ off →
    (windowEntry off bs.length = some 3 → exec (.newtWindowScratchpad ch off size (some bs)) s =
      .next { s with cx := s.cx.newtWrite ch true (off - 0x8000) bs false }) ∧
    (windowEntry off size = some 3 → exec (.newtWindowScratchpad ch off size none) s =
      .next { s with cx := s.cx.emit (.read (homeDie (ch / 32)) (s.cx.newtBytes ch true (off - 0x8000) size)) })) ∧
  (∀ (s : State) (ch : Fin 640), exec (.nwtReinit ch) s = .next { s with cx := (((((s.cx.dropJob ch).dropJob ch).modNewt ch fun n =>
      { n with buffer := none, suspended := false, forced := false }).resumeSender ch).newtEv 0x5006 1 ch
        [b2n (s.cx.newt ch).job.isSome + b2n (s.cx.newt ch).wait.isSome]) }) ∧
  (∀ (s : State) (ch : Fin 640), exec (.nwtClearCounters ch) s =
    .next { s with cx := (s.cx.ctrClear (nwtBase ch + 0x20)).ctrClear (nwtBase ch + 0x28) })

/-- Jobs (R287, R289, R296), the chain (R295), and the bank-compute admission (R298 to R300). -/
def Obligations.NewtJobsRun : Prop :=
  (∀ (s : State) (ch : Fin 640) (j : Job), s.cx.runningJob ch 0 = some j →
    let p := s.cx.runDot ch j (s.cx.newt ch).fx
    exec (.dotJob ch) s = .next { s with cx := (p.1.keepFx ch 0 p.2).closeJob ch }) ∧
  (∀ (s : State) (ch : Fin 640) (j : Job), s.cx.runningJob ch 1 = some j → (s.cx.newt ch).partialTriple = none →
    let p := s.cx.attend ch j (s.cx.newt ch).fx
    let c := (s.cx.keepFx ch 0 p.2).modNewt ch fun n => { n with
      partialTriple := some ⟨p.1.vals, p.2.bad⟩, merged := false }
    exec (.attendJob ch) s = .next { s with cx := (c.finishAttend ch j).resumeSender ch }) ∧
  (∀ (s : State) (ch : Fin 640) (j : Job), (s.cx.newt ch).job = some j → j.kind = 2 → (s.cx.newt ch).tad = none →
    exec (.tadpoleJob ch) s = .next { s with cx := (s.cx.modNewt ch fun n => { n with tad := some {
      pc := bits j.count 7 0, a := ptrFields.map (s.cx.loadPtr ch j) ++ [none, none, none] } }) }) ∧
  (∀ (s : State) (ch : Fin 640) (r : ChainRec), (s.cx.newt ch).arriving = some r → (s.cx.newt ch).buffer = none →
    (s.cx.newt ch).partialTriple = none →
    exec (.chainRecord ch) s = .next { s with cx := ((s.cx.modNewt ch fun n => { n with buffer := some r, arriving := none }).resumeSender ch) }) ∧
  (∀ (s : State) (stk : Fin 20) (k : Nat), (s.cx.grantsHeld stk).length < s.cx.grantLimit stk →
    s.cx.nextGrant stk = some k →
    exec (.grant stk) s = .next { s with cx := ((s.cx.modStk stk fun x => { x with
      grants := nput x.grants k, grantQueue := x.grantQueue.filter (· != k)
      admission := (x.admission.slot ((s.cx.img.cfg.map fun g => g.streams.share).getD [])
        ((s.cx.img.cfg.map fun g => g.streams.weight).getD []) [0]).2 }).modNewt (stk.val * 32 + k)
        fun n => { n with suspended := n.suspended && !n.asked, asked := false }) }) ∧
  (∀ (s : State) (ch : Fin 640), s.cx.hasGrant ch = true →
    exec (.grantWindowEnd ch) s = .next { s with cx := (s.cx.dropGrant ch).settleGrant ch }) ∧
  (∀ (s : State) (ch : Fin 640), s.cx.streaming ch = true →
    let c := (s.cx.dropGrant ch).modStk (ch / 32) fun k => { k with refreshing := nput k.refreshing (ch % 32) }
    exec (.refreshDue ch false) s = .next { s with cx := (c.modNewt ch fun n =>
      { n with suspended := true, asked := false, forced := false }).settleGrant ch } ∧
    exec (.refreshDue ch true) s = .next { s with cx := ((((c.modNewt ch fun n =>
      { n with suspended := true, asked := false, forced := true }).settleGrant ch).bump (nwtBase ch + 0x34) 31
        (homeDie (ch / 32))).newtEv 0x5004 0 ch [4]) }) ∧
  (∀ (s : State) (ch : Fin 640) (forced : Bool), s.cx.streaming ch = false →
    exec (.refreshDue ch forced) s = .next { s with cx := ((s.cx.dropGrant ch).modStk (ch / 32) fun k =>
      { k with refreshing := nput k.refreshing (ch % 32) }).settleGrant ch }) ∧
  (∀ (s : State) (ch : Fin 640), (s.cx.newt ch).suspended = true → (s.cx.newt ch).asked = false →
    (s.cx.newt ch).forced = false →
    exec (.refreshDone ch) s = .next { s with cx := ((((s.cx.modStk (ch / 32) fun k =>
      { k with refreshing := ndel k.refreshing (ch % 32) }).bump (nwtBase ch + 0x30) 31 (homeDie (ch / 32))).modNewt ch
        fun n => { n with forced := false, asked := true }).settleGrant ch) })

/-- NEWT_MODE (R278) and NEWT_JOB (R293). The tag of a job that a command submits is open (log entry 15). -/
def Obligations.NewtCommandsComplete : Prop :=
  (∀ (s : State) (st : StreamId) (num : W32) (cmd : BitVec 512), Starts s.cx st 0x50 num cmd →
    let c := s.cx.start st num cmd
    let f := newFlight s.cx st num cmd
    let k := f.arg 16 4 0
    let gs := maskChannels k (f.arg 24 31 0)
    k < 20 → c.active k = true → f.arg 24 31 0 ≠ 0 → f.bit 16 32 = false → f.bit 16 33 = false → f.arg 32 31 0 % 65536 = 0 →
    c.stackBusy k = false → c.needsTwin (c.dieOf st) k = false → (∀ g ∈ gs, (c.newt g).retired = false) →
    (c.changeAll gs fun c g => c.tryEnter g none).2 = [] →
    let d := (c.changeAll gs fun c g => c.tryEnter g none).1
    ∃ r, exec (.newtMode st) s = .next { s with cx := ({ d with free := d.free + 1 } : Cx).ended st num stOk r }) ∧
  (∀ (c : Cx) (g : Nat) (w : Option Nat), (c.newt g).exiting = false → (c.newt g).mode = false →
    c.tryEnter g w = some ((c.flushChannel g).modNewt g fun n => { n with mode := true, window := w })) ∧
  (∀ (s : State) (st : StreamId) (num : W32) (cmd : BitVec 512), Starts s.cx st 0x51 num cmd →
    let c := s.cx.start st num cmd
    let f := newFlight s.cx st num cmd
    let a := f.arg 16 63 0
    let n := f.arg 24 12 0
    let rd := c.hubRead a (128 * n)
    let js := (List.range n).map fun i => ({ desc := (rd.2.drop (128 * i)).take 128 } : Job)
    0 < n → n ≤ 4096 → a % 128 = 0 → bits a 63 60 = 0 ∨ bits a 63 60 = 3 ∨ bits a 63 60 = 4 →
    c.badOperand? st f .read 1 a (128 * n) = none → c.hubPoison a (128 * n) = none →
    (∀ j ∈ js, rd.1.badJob j = none ∧ (rd.1.newt j.channel).retired = false ∧
      rd.1.stackBusy (j.channel / 32) = false ∧ rd.1.needsTwin (rd.1.dieOf st) (j.channel / 32) = false) →
    f.bit 24 32 = false →
    let g := { f with phase := 1, data := rd.2, awaits := List.range n }
    let d := (rd.1.modFlight st num fun x => { x with phase := 1, data := rd.2, awaits := List.range n }).submitJobs st g
    exec (.newtJob st) s = .next { s with cx := d.waiting st num .other })

/-- GATHER (R260), EXPORT (R264) and GATHER_REQ (R262), each with the bytes it writes or answers. -/
def Obligations.VersionReadsComplete : Prop :=
  (∀ (s : State) (st : StreamId) (num : W32) (cmd : BitVec 512) (t : Tensor), Starts s.cx st 0x20 num cmd →
    let c := s.cx.start st num cmd
    let f := newFlight s.cx st num cmd
    let e := f.arg 16 63 24
    let n := f.arg 24 31 0
    let ver : Version := BitVec.ofNat 32 (f.arg 24 63 32)
    let latest := f.bit 40 0
    let parts := c.runParts t e n 0
    let ws := parts.map (·.1)
    c.tensor? f.tensor = some t → 0 < n → e + n ≤ t.count → f.arg 40 4 2 = 0 → f.bit 40 1 = false → f.bit 40 5 = false →
    c.badOperand? st f .write 3 (f.arg 32 63 0) (2 * n) = none → c.boundAway st f.tensor = false →
    (∀ w ∈ ws, c.needsTwin (c.dieOf st) (winStack w) = false) → c.demandAll ws = (c, true) →
    (∀ w ∈ ws, c.readStatus w latest ver false 0 = none) →
    (∀ p ∈ parts, c.hubPoisonIn (c.versionKey p.1 latest ver false 0 p.2.1) p.2.2 = none) →
    let data := parts.flatMap fun p => c.hubBytes (c.versionKey p.1 latest ver false 0 p.2.1) p.2.2
    let vs := ws.map fun w => ((c.win? w).map fun v => v.served latest ver).getD 0#32
    exec (.gather st) s = .next { s with cx := (((c.holdSlots st num ws latest ver false).hubWrite (f.arg 32 63 0) data).ended
      st num stOk ((vs.headD 0#32).toNat + 2 ^ 32 * b2n (vs.any fun v => v != vs.headD 0#32))) }) ∧
  (∀ (s : State) (st : StreamId) (num : W32) (cmd : BitVec 512) (t : Tensor) (ws : List Nat), Starts s.cx st 0x24 num cmd →
    let c := s.cx.start st num cmd
    let f := newFlight s.cx st num cmd
    let ver : Version := BitVec.ofNat 32 (f.arg 24 63 32)
    let dest := f.arg 32 63 0
    let latest := f.bit 40 0
    let key := f.arg 40 3 1
    c.runOf f = some (t, ws) → bits dest 63 60 = 2 ∨ bits dest 63 60 = 4 → c.badKey key = false →
    c.badOperand? st f .write 3 dest (t.imageBytes f.first f.count) = none → c.boundAway st f.tensor = false →
    (∀ w ∈ ws, c.needsTwin (c.dieOf st) (winStack w) = false) → c.demandAll ws = (c, true) →
    (∀ w ∈ ws, c.readStatus w latest ver false 0 = none) →
    (∀ i, i < f.count →
      c.hubPoisonIn (c.versionKey (ws.getD i 0) latest ver false 0 0) (2 * t.valid (f.first + i)) = none) →
    let data := ws.flatMap fun w => match c.win? w with
      | none => []
      | some v => c.crypt false key v.tensor v.k (exportImage v (v.served latest ver) (v.stepOf (v.served latest ver))
          (c.hubBytes (c.versionKey w latest ver false 0 0) (2 * v.valid)))
    exec (.exportW st) s = .next { s with cx := (((c.holdSlots st num ws latest ver false).hubWrite dest data).ended st num stOk data.length) }) ∧
  (∀ (s : State) (m : Fin 64) (hdr : BitVec 256) (t : Tensor) (v : Win),
    let c := s.cx
    let f := fun hi lo => bits hdr.toNat hi lo
    let w := c.windowId t (f 79 40 / 1048576)
    let latest := bit hdr.toNat 8
    let ver : Version := BitVec.ofNat 32 (f 159 128)
    let key := c.versionKey w latest ver false 0 (2 * (f 79 40 % 1048576))
    kget? c.modules m.val ≠ none → c.enabled = true → c.shellServes (moduleDie m.val) = true →
    c.badRun (f 39 16) (f 79 40) (f 92 80) 4096 (f 7 0 != 3 || f 15 9 != 0 || f 95 93 != 0 || f 127 112 != 0 ||
      f 255 160 != 0) = none →
    c.tensor? (f 39 16) = some t → c.win? w = some v → c.stackBusy (winStack w) = false →
    c.needsTwin (moduleDie m.val) (winStack w) = false → c.readStatus w latest ver false 0 = none →
    (v.resident = true → c.hubPoisonIn key (2 * f 92 80) = none → exec (.gatherReq m hdr) s =
      .next { s with cx := c.emit (.gatherResp m.val stOk 0 (f 111 96) (BitVec.ofNat 32 (v.served latest ver).toNat)
        (c.hubBytes key (2 * f 92 80))) }) ∧
    (v.resident = false → exec (.gatherReq m hdr) s = .next { s with cx := { c.demandState w with
      gatherHeld := (c.demandState w).gatherHeld ++ [{ m := m.val, hdr := hdr, since := c.ticks, die := c.gatherDie m.val hdr }] } }) ∧
    (∀ dt : Nat, v.resident = true → c.hubPoisonIn key (2 * f 92 80) = none → c.gatherAnswer m.val hdr (some dt) =
      (c.emit (.gatherResp m.val stSlow (delayBucket dt) (f 111 96) (BitVec.ofNat 32 (v.served latest ver).toNat)
        (c.hubBytes key (2 * f 92 80))), true)))

/-- GRAD_ADD (R184), DRAIN (R197), the window's drain (R199), PASS1 (R200) and STATS_COMBINE (R201). -/
def Obligations.GradientsComplete : Prop :=
  (∀ (s : State) (m : Fin 64) (hdr : BitVec 128) (vals : List W16) (t : Tensor) (v : Win),
    let g := gradHdr hdr
    let w := s.cx.windowId t (g.start / 1048576)
    let k := winStack w
    let i := g.start % 1048576
    let c := s.cx.modWin w fun v => { v with mode := some g.ordered
                                             promoting := v.promoting || (v.mode.isNone && !v.resident)
                                             writingBack := v.writingBack && v.mode.isSome }
    let d := Cx.makeRoom (c.accWindows k).length w v.openEpoch g.slot i g.count c
    let added := fun (x : Cx) => (({ x with seqs := kput x.seqs (seqKey m.val k) g.seq } : Cx).addRun w t (g.start / 1048576)
      v.openEpoch g.slot i (vals.take g.count)).emit (.gradResp m.val stOk 0 g.seq.toNat)
    kget? s.cx.modules m.val ≠ none → s.cx.shellServes (moduleDie m.val) = true →
    s.cx.badRun g.tensor g.start g.count 512 g.reserved = none → s.cx.tensor? g.tensor = some t →
    kget? s.cx.wins w = some v → v.mode = none ∨ v.mode = some g.ordered → s.cx.gradStatus w (moduleDie m.val) = none →
    (c.gradBehind m.val k = false → c.gradDup m.val k g = true → exec (.gradAdd m hdr vals) s = .next { s with
      cx := (c.bump (updBase k + 0x80C) 31 (homeDie k)).emit (.gradResp m.val stOk 0 g.seq.toNat) }) ∧
    (c.gradBehind m.val k = false → c.gradDup m.val k g = false → c.accRoom w v.openEpoch g.slot i g.count = true →
      exec (.gradAdd m hdr vals) s = .next { s with cx := added c }) ∧
    (c.gradBehind m.val k = false → c.gradDup m.val k g = false → d.accRoom w v.openEpoch g.slot i g.count = true →
      d.gradDup m.val k g = false → exec (.gradAdd m hdr vals) s = .next { s with cx := added d }) ∧
    (c.gradBehind m.val k = true ∨ (c.gradDup m.val k g = false ∧ d.accRoom w v.openEpoch g.slot i g.count = false) →
      exec (.gradAdd m hdr vals) s = .next { s with cx := (({ c with gradHeld := c.gradHeld ++ [{
        m := m.val, epoch := v.openEpoch, hdr := hdr, vals := vals, since := c.ticks, slow := !v.resident
        die := c.owner k }] } : Cx).bump (updBase k + 0x808) 31 (homeDie k)) })) ∧
  (∀ (s : State) (st : StreamId) (num : W32) (cmd : BitVec 512) (t : Tensor) (ws : List Nat),
    Starts s.cx st 0x21 num cmd →
    let c := s.cx.start st num cmd
    let f := newFlight s.cx st num cmd
    c.runOf f = some (t, ws) → (f.fused.map finitePositive).getD true = true → c.boundAway st f.tensor = false →
    windowsRefused st c ws = none →
    let d := ws.foldl (fun c w => c.takeCut st f f.fused w)
      (c.modFlight st num fun g => { g with phase := 1, wins := ws.map fun w => (w, WinOut.todo) })
    d.demandAll ws = (d, true) → ((d.flight? st num).map Flight.settled).getD false = false →
    exec (.drain st) s = .next { s with cx := d.waiting st num .gradients }) ∧
  (∀ (s : State) (st : StreamId) (f : Flight) (t : Tensor) (ws : List Nat), Resumes s.cx st 0x21 f →
    s.cx.runOf f = some (t, ws) → (f.fused.map finitePositive).getD true = true → s.cx.boundAway st f.tensor = false →
    f.phase = 1 → f.settled = true →
    exec (.drain st) s = .next { s with cx := s.cx.resumed st f.number 0x21 }) ∧
  (∀ (s : State) (w : BitVec 19) (v : Win) (own : StreamId × W32), s.cx.win? w.toNat = some v → v.cut = some own →
    v.hold = false → v.specValid = false → v.st = .quiet → v.resident = true → v.fenced = false →
    s.cx.lateValues w.toNat (v.eD + 1#3).toNat = false → s.cx.engineHalted (winStack w.toNat) = false →
    let ec := (v.eD + 1#3).toNat
    let c := (List.range 16384).foldl (fun c b => c.drainBlock w.toNat v ec own b) s.cx
    let c := (c.dropAcc w.toNat fun e => e = ec).modWin w.toNat fun v => { v with
      eD := BitVec.ofNat 3 ec, cuts := v.cuts.tail, lastCut := some own }
    exec (.windowDrain w) s = .next { s with cx := (c.windowDone own w.toNat).serveGrads }) ∧
  (∀ (s : State) (st : StreamId) (num : W32) (cmd : BitVec 512) (t : Tensor) (ws : List Nat) (g : Flight),
    Starts s.cx st 0x22 num cmd →
    let c := s.cx.start st num cmd
    let f := newFlight s.cx st num cmd
    c.runOf f = some (t, ws) → c.boundAway st f.tensor = false → windowsRefused st c ws = none →
    let d := (c.arm f.step).modFlight st num fun g => { g with
      phase := 1, wins := ws.map fun w => (w, WinOut.todo), result := 0#64 }
    d.demandAll ws = (d, true) →
    let e := ws.foldl (fun c w => c.pass1Try st f t f.step w) d
    e.flight? st num = some g → g.settled = true →
    exec (.pass1 st) s = .next { s with cx := e.ended st num stOk g.result.toNat }) ∧
  (∀ (s : State) (st : StreamId) (num : W32) (cmd : BitVec 512) (t : Tensor) (w : Nat) (v : Win),
    Starts s.cx st 0x22 num cmd →
    let c := s.cx.start st num cmd
    let f := newFlight s.cx st num cmd
    c.runOf f = some (t, [w]) → c.boundAway st f.tensor = false → windowsRefused st c [w] = none →
    let d := (c.arm f.step).modFlight st num fun g => { g with phase := 1, wins := [(w, WinOut.todo)], result := 0#64 }
    d.demandAll [w] = (d, true) → d.win? w = some v → v.resident = true → v.st = .quiet → v.cut = none →
    d.verdictFor v f.step ≠ some .abandon →
    let u := { v with st := .held f.step, hold := true, verdict := none }
    let e := (d.modWin w fun _ => u).pass1Win st f w u t f.step
    ∃ g : Flight, e.flight? st num = some g ∧
      exec (.pass1 st) s = .next { s with cx := e.ended st num stOk g.result.toNat }) ∧
  (∀ (c : Cx) (st : StreamId) (f : Flight) (t : Tensor) (n : Step) (w : Nat) (v : Win), c.win? w = some v →
    v.resident = true → v.st = .quiet → c.verdictFor v n ≠ some .abandon → v.cut = none →
    let u := { v with st := .held n, hold := true, verdict := none }
    c.pass1Try st f t n w = (c.modWin w fun _ => u).pass1Win st f w u t n) ∧
  (∀ (s : State) (tensor : BitVec 24) (t : Tensor) (g : Img) (n : Step), s.cx.tensor? tensor.toNat = some t →
    s.cx.img.cfg = some g → s.cx.reported t = some n → t.factored = true → s.cx.coreUp (s.cx.owner t.start) = true →
    ∃ u, exec (.statsCombine tensor) s = .next u ∧ u.pending = s.pending ∧ u.cx.sumsFinal t.handle n.toNat = true)

/-- The step protocol (chapters 9 and 10). The remap, the pass's beginning and its end are named operations. -/
def Obligations.UpdateProtocol : Prop :=
  (∀ (s : State) (st : StreamId) (num : W32) (cmd : BitVec 512) (t : Tensor) (ws : List Nat) (tb : StepTable),
    Starts s.cx st 0x23 num cmd →
    let c := s.cx.start st num cmd
    let f := newFlight s.cx st num cmd
    let a := c.arm f.step
    c.runOf f = some (t, ws) → f.mode = 0 → a.boundAway st f.tensor = false → a.takeTable st f t ws = .inl tb →
    a.allFenced ws = false →
    let outs := ws.map fun w => (w, WinOut.todo)
    let d := a.modFlight st num fun g => { g with table := some tb, phase := 1, wins := outs }
    let os := outs.map (d.idleOutcome f.step false)
    let todo := (os.filter fun p => p.2 == .todo).map (·.1)
    let e := d.modFlight st num fun g => { g with wins := os, phase := 1 }
    todo ≠ [] → e.anyBusy ws = false → e.cutOff st ws = false →
    e.demandAll todo = (e, true) → (∀ w ∈ todo, (e.win? w).any (fun v => !v.resident) = false) →
    exec (.update st) s = .next { s with cx := e.waiting st num .peerCommit }) ∧
  (∀ (s : State) (st : StreamId) (f : Flight) (t : Tensor) (ws : List Nat), Resumes s.cx st 0x23 f →
    s.cx.runOf f = some (t, ws) → f.mode = 0 ∨ f.mode = 1 → f.phase = 1 →
    let os := f.wins.map (s.cx.idleOutcome f.step (f.mode = 1))
    let c := s.cx.modFlight st f.number fun g => { g with wins := os, phase := 1 }
    (∀ p ∈ os, p.2 ≠ .todo) → c.allFenced ws = false ∨ (∀ p ∈ os, p.2 ≠ .untouched) →
    exec (.update st) s = .next { s with cx := c.finish st f.number stOk (updateResult os) 0#8 }) ∧
  (∀ (s : State) (st : StreamId) (num : W32) (cmd : BitVec 512) (t : Tensor) (ws : List Nat), Starts s.cx st 0x23 num cmd →
    let c := s.cx.start st num cmd
    let f := newFlight s.cx st num cmd
    let a := c.arm f.step
    let act := ws.filter (a.abandonable f.step)
    c.runOf f = some (t, ws) → f.mode = 2 → f.arg 40 63 0 = 0 → c.boundAway st f.tensor = false → c.cutOff st ws = false → act ≠ [] →
    ws.filter (a.finishing f.step) = [] →
    let d := ((act.foldl (fun c w => c.abandonWin w f.step) a).sayAbandoned t.handle f.step (a.dieOf st) 1 act.length).serveGrads
    exec (.update st) s = .next { s with cx := ((d.modFlight st num fun g => { g with phase := 1, worst := act.length, wins := [] }).ended st num stOk act.length) }) ∧
  (∀ (s : State) (w : BitVec 19) (v : Win) (t : Tensor) (n : Step) (q : StreamId × Flight) (slot : Nat) (tb : StepTable),
    s.cx.win? w.toNat = some v → s.cx.tensor? v.tensor = some t → v.pass = none → v.fenced = false → v.resident = true →
    s.cx.engineHalted (winStack w.toNat) = false → s.cx.pyroBlocked w.toNat v = false → v.st = .held n → v.stale n = false →
    s.cx.demand? w.toNat (some n) false = some q → s.cx.running (winStack w.toNat) < 8 → s.cx.verdictFor v n = none →
    s.cx.freeSlot (winStack w.toNat) = some slot → q.2.table = some tb →
    (hasFstat (s.cx.programOf w.toNat t) && !s.cx.statsRan (winStack w.toNat) t.handle n f32One) = false ∨
      s.cx.fstatReady (winStack w.toNat) t n false = true →
    exec (.pass2Start w) s = .next { s with cx := ((s.cx.modWin w.toNat fun u => { u with
      st := .specRun n, hold := true }).beginPass w.toNat slot v t n f32One q.1 q.2 tb) }) ∧
  (∀ (s : State) (w : BitVec 19) (v u : Win) (p q : Pass) (t : Tensor), s.cx.win? w.toNat = some v → v.pass = some p →
    s.cx.tensor? v.tensor = some t → s.cx.engineHalted (winStack w.toNat) = false →
    s.cx.grantLimit (winStack w.toNat) ≠ 0 → p.fstatDone = true →
    (s.cx.runAll w.toNat).win? w.toNat = some u → u.pass = some q →
    exec (.pass2End w) s = .next { s with cx := (s.cx.runAll w.toNat).endPass w.toNat u q }) ∧
  (∀ (s : State) (w : BitVec 19) (v : Win) (n : Step), s.cx.win? w.toNat = some v → v.st = .committing n →
    v.commitHeld = true → s.cx.commitsWait (winStack w.toNat) = false →
    (∀ m, v.importStep = some m → exec (.commitRemap w) s =
      .next { s with cx := ((s.cx.remap w.toNat v m).bumpLedger w.toNat 0x600).markImport w.toNat }) ∧
    (∀ t, v.importStep = none → s.cx.tensor? v.tensor = some t → (s.cx.remap w.toNat v (some n)).tensor? v.tensor = some t →
      let c := ((s.cx.remap w.toNat v (some n)).commitStats t (winStack w.toNat) n).bumpLedger w.toNat 0x600
      ((∀ k, s.cx.verdictFor v n ≠ some (.replay k)) →
        exec (.commitRemap w) s = .next { s with cx := c.markOut w.toNat n .committed }) ∧
      (∀ k, s.cx.verdictFor v n = some (.replay k) →
        exec (.commitRemap w) s = .next { s with cx := (c.markOut w.toNat n .replayed).bumpLedger w.toNat 0x604 }))) ∧
  (∀ (s : State) (w : BitVec 19) (v : Win) (n slot : Nat) (rest : List (Nat × Nat)), s.cx.win? w.toNat = some v →
    v.copies = (n, slot) :: rest →
    let k := winStack w.toNat
    exec (.stashCopyDone w) s = .next { s with cx := ((s.cx.baseWrite (stackKey k (s.cx.stashOff v.region n)) (s.cx.dram k (s.cx.slotOff slot + offW) 0x200000)).modWin
        w.toNat fun v => { v with copies := rest }) }) ∧
  (∀ (s : State) (stk : Fin 20) (slot : BitVec 20), (s.cx.stk stk).releasing.contains slot.toNat = true →
    (s.cx.heldSlots stk).contains slot.toNat = false →
    exec (.slotRelease stk slot) s =
      .next { s with cx := s.cx.modStk stk fun k => { k with releasing := ndel k.releasing slot.toNat } }) ∧
  (∀ (s : State) (stk : Fin 20),
    let run := s.cx.wins.filter fun p => decide (winStack p.1 = stk.val) && (match p.2.st with
      | .specRun _ | .writeRun _ _ => true
      | _ => false)
    let cmds := s.cx.engineCommands stk
    let c := run.foldl (fun c p => c.stopPass p.1 p.2) (cmds.foldl (fun c x => c.stopCommand x.1 x.2) s.cx)
    let step := (run.findSome? fun p => p.2.pass.map (·.step)) <|> run.findSome? fun p => p.2.st.step?
    exec (.updReinit stk) s = .next { s with cx := (((c.modStk stk fun k => { k with engine := { k.engine with
      drizzle := [] } }).ev 0x4201 0 1 (homeDie stk) stk [stk, cmds.length, (step.map BitVec.toNat).getD 0] step).serveGrads) }) ∧
  (∀ (s : State) (stk : Fin 20), exec (.updClearCounters stk) s =
    .next { s with cx := (List.range 4).foldl (fun c i => c.ctrClear (updBase stk + 0x40 + 8 * i)) s.cx })

/-- The remap of one window (R254), read through the window map. -/
def Obligations.CommitRemapsWindow : Prop :=
  ∀ (s : State) (w : BitVec 19) (v : Win) (n : Step), s.cx.win? w.toNat = some v → v.st = .committing n →
    v.commitHeld = true → s.cx.commitsWait (winStack w.toNat) = false → s.cx.gradHeld = [] →
    ∃ t u, exec (.commitRemap w) s = .next t ∧ t.cx.win? w.toNat = some u ∧
      u.stateSlot = v.specSlot ∧ u.committed = v.committed + 1#32 ∧ u.digest = v.newDigest ∧ u.st = .quiet ∧
      u.hold = false ∧ u.specValid = false ∧ u.verdict = none ∧ u.pass = none ∧ u.tensor = v.tensor ∧
      u.gSlot = v.gSlot ∧ u.eD = v.eD ∧
      (t.cx.stk (winStack w.toNat)).releasing.contains v.stateSlot = true ∧
      ∀ x, x ≠ w.toNat → ((t.cx.win? x).map fun y => (y.committed, y.stateSlot, y.digest, y.st)) =
        (s.cx.win? x).map fun y => (y.committed, y.stateSlot, y.digest, y.st)

/-- IMPORT (R265, R266), the key registers (R326) and the commands of a tenant (R328, R329). -/
def Obligations.ImportAndTenantsComplete : Prop :=
  (∀ (s : State) (st : StreamId) (num : W32) (cmd : BitVec 512) (t : Tensor) (ws : List Nat) (imgs : List (List Byte)),
    Starts s.cx st 0x25 num cmd →
    let c := s.cx.start st num cmd
    let f := newFlight s.cx st num cmd
    let src := f.arg 32 63 0
    let step : Step := BitVec.ofNat 48 (f.arg 40 47 0)
    let key := f.arg 40 51 49
    let ps := (List.range f.count).map fun i =>
      (ws.getD i 0, t.imageOff f.first i, t.imageOff f.first (i + 1) - t.imageOff f.first i)
    let ids := ps.map (·.1)
    let a := c.arm step
    c.runOf f = some (t, ws) → bits src 63 60 = 2 ∨ bits src 63 60 = 4 → c.badKey key = false → c.overPool ws = false →
    c.badOperand? st f .read 3 src (t.imageBytes f.first f.count) = none → c.boundAway st f.tensor = false →
    (∀ w ∈ ws, (c.win? w).any (·.fenced) = false) → c.cutOff st ws = false →
    c.anyBusy ws = false → f.bit 40 48 = false → a.demandAll ids = (a, true) → ids.all a.winIdle = true →
    a.slotsFor ids = true → a.readImages src key ps = .ok imgs →
    let e := (ids.foldl (fun c w => c.sendCommit w step)
      ((List.range ids.length).foldl (fun x i => x.stageWin (ids.getD i 0) (imgs.getD i []) step
        (kget 0 c.binding f.tensor)) a)).modFlight st num fun g => { g with
          phase := 2, wins := ids.map fun w => (w, WinOut.todo) }
    exec (.importW st) s = .next { s with cx := e.waiting st num .peerCommit }) ∧
  (∀ (s : State) (st : StreamId) (f : Flight), Resumes s.cx st 0x25 f → f.phase = 2 → f.settled = true →
    exec (.importW st) s = .next { s with cx := s.cx.resumed st f.number 0x25 }) ∧
  (∀ (s : State) (st : StreamId) (num : W32) (cmd : BitVec 512) (l : List Byte) (imgs : List (List Byte)),
    Starts s.cx st 0x60 num cmd →
    let c := s.cx.start st num cmd
    let f := newFlight s.cx st num cmd
    let g := { f with data := l }
    let tenant := f.arg 16 13 0
    let src := f.arg 40 63 0
    let step : Step := BitVec.ofNat 48 (f.arg 48 47 0)
    let key := f.arg 32 26 24
    let hs := g.stageTensors
    let ps := c.stageParts hs
    let ids := ps.map (·.1)
    let a := (c.arm step).modFlight st num fun x => { x with data := l }
    bits src 63 60 = 2 ∨ bits src 63 60 = 4 → c.badKey key = false →
    c.listOperand st f 2 (f.arg 24 63 0) (4 * f.arg 32 23 0) = .inr l →
    (∀ h ∈ hs, c.tensor? h ≠ none ∧ c.stageForeign st tenant h = false) → repeated hs = false → c.overPool ids = false →
    c.badOperand? st f .read 4 src (partsLen ps) = none →
    c.overStackQuota tenant (hs.map (c.stageCharge tenant)).sum = false →
    (∀ w ∈ ids, (c.win? w).any (·.fenced) = false) → c.cutOff st ids = false →
    c.anyBusy ids = false → a.demandAll ids = (a, true) → ids.all a.winIdle = true → a.slotsFor ids = true →
    a.readImages src key ps = .ok imgs →
    let e := (ids.foldl (fun c w => c.sendCommit w step)
      ((List.range ids.length).foldl (fun x i => x.stageWin (ids.getD i 0) (imgs.getD i []) step tenant) a)).modFlight st num
        fun g => { g with phase := 2, wins := ids.map fun w => (w, WinOut.todo) }
    exec (.stageTenant st) s = .next { s with cx := e.waiting st num .peerCommit }) ∧
  (∀ (s : State) (st : StreamId) (f : Flight), Resumes s.cx st 0x60 f → f.phase = 2 → f.settled = true →
    s.cx.noMaster st = false →
    let hs := f.stageTensors
    let tenant := f.arg 16 13 0
    let c := hs.foldl (fun c h => c.submit c.master (.bind h tenant true (c.stageCharge tenant h)) (some (st, f.number))) s.cx
    exec (.stageTenant st) s = .next { s with cx := ((c.modFlight st f.number fun g => { g with
      owed := g.owed + hs.length }).resumed st f.number 0x60) }) ∧
  (∀ (s : State) (st : StreamId) (num : W32) (cmd : BitVec 512), Starts s.cx st 0x61 num cmd →
    let c := s.cx.start st num cmd
    let f := newFlight s.cx st num cmd
    let tenant := f.arg 16 13 0
    let ts := c.boundTensors tenant
    let ws := c.boundWindows tenant
    c.anyBusy ws = false → c.cutOff st ws = false →
    (∀ w ∈ ws, ((c.win? w).map fun v => v.st) = some .quiet ∧ (c.win? w).any (·.fenced) = false) →
    let a := ws.foldl Cx.scrubWin (ws.foldl Cx.fenceWin c)
    let pool := ((List.range 20).flatMap fun s => (a.taggedPool s tenant).map fun n => (s, n)).filter fun p => a.active p.1
    let b := ts.foldl Cx.scrubStats (pool.foldl (fun c p => c.scrubRange (stackKey p.1 (c.slotOff p.2)) slotBytes) a)
    let e := ws.foldl (fun c w => (c.modWin w fun v => { v with commitSent := true, commitHeld := false }).submit
      (c.owner (winStack w)) (.commit w)) b
    exec (.scrubTenant st) s = .next { s with cx := ((e.modFlight st num fun g => { g with
      phase := 2, wins := ws.map fun w => (w, WinOut.todo), worst := pool.length }).waiting st num .peerCommit) }) ∧
  (∀ (s : State) (st : StreamId) (f : Flight), Resumes s.cx st 0x61 f → f.phase = 2 → s.cx.noMaster st = false →
    let tenant := f.arg 16 13 0
    let ts := s.cx.boundTensors tenant
    let ws := f.wins.map (·.1)
    (∀ w ∈ ws, ∀ v, s.cx.win? w = some v → v.commitHeld = true) →
    let c := ws.foldl Cx.scrubCommit s.cx
    let slots := ((List.range 4).map (· + 1)).filter fun n => c.slotTenant n = tenant && (kget? c.keys n).isSome
    let d := slots.foldl (fun c n => c.sendKey n 0 true [] (some (st, f.number))) c
    let e := ts.foldl (fun c t => c.submit c.master (.bind t.handle tenant false t.windows) (some (st, f.number))) d
    let g := e.modFlight st f.number fun g => { g with owed := g.owed + slots.length + ts.length }
    exec (.scrubTenant st) s = .next { s with cx := ((g.ev 0x600E 6 0 (g.dieOf st) (g.dieOf st).num
      [tenant, ws.length, f.worst] none (some tenant)).resumed st f.number 0x61) }) ∧
  (∀ (s : State) (slot : Fin 4) (word : Fin 16) (v : W32), s.cx.serves s.cx.master = true →
    slot.val + 1 ≤ s.cx.stagedSlots → s.cx.keyInUse (slot.val + 1) = false →
    let n := slot.val + 1
    let c := ({ s.cx with keyWords := kput s.cx.keyWords (16 * n + word.val) v } : Cx)
    (c.keyPending n = none → exec (.tenantKeyWrite slot word v) s = .next { s with cx := c }) ∧
    (∀ ks, c.keyPending n = some ks → ks.take 8 ≠ ks.drop 8 → exec (.tenantKeyWrite slot word v) s =
      .next { s with cx := ((c.dropKeyWords n).sendKey n 0 false (ks.take 8)).sendKey n 1 false (ks.drop 8) }) ∧
    (∀ ks, c.keyPending n = some ks → ks.take 8 = ks.drop 8 → exec (.tenantKeyWrite slot word v) s =
      .next { s with cx := (c.dropKeyWords n).ev 0x600F 11 1 s.cx.master s.cx.master.num [n, 0] })) ∧
  (∀ (s : State) (slot : Fin 4), s.cx.serves s.cx.master = true → s.cx.keyInUse (slot.val + 1) = false →
    exec (.tenantSlotClear slot) s =
      .next { s with cx := (s.cx.dropKeyWords (slot.val + 1)).sendKey (slot.val + 1) 0 true [] })

/-- The collective commands and their messages (R205, R356 to R358). -/
def Obligations.CollectivesComplete : Prop :=
  (∀ (s : State) (st : StreamId) (num : W32) (cmd : BitVec 512) (a b : List Byte) (own : W64 × Flags),
    Starts s.cx st 0x32 num cmd →
    let c := s.cx.start st num cmd
    let f := newFlight s.cx st num cmd
    let g := { f with data := a ++ b, phase := 1 }
    let x := Fmt.f64.unpack (f.arg 32 63 0)
    0 < f.normCount → x.isNan = false → x.lt (.fin false 0 0) = false → f.shards = 1 → f.shardRank = 0 →
    listTagOk (f.arg 16 63 0) = true → listTagOk (f.arg 48 63 0) = true →
    c.listOperand st f 1 (f.arg 16 63 0) (4 * f.normCount) = .inr a →
    c.listOperand st f 5 (f.arg 48 63 0) (4 * f.shards) = .inr b →
    (∀ h ∈ g.normTensors, c.tensor? h ≠ none ∧ c.boundAway st h = false) → repeated g.normTensors = false →
    c.noMasterFor st g.normTensors = false →
    let d := (c.arm f.normStep).modFlight st num fun x => { x with data := g.data, phase := 1 }
    g.normNodes.find? (fun x => d.fab.unreachable.contains x) = none → g.normNodes.length = 1 →
    d.shardSum g.normTensors g.normStep = some own →
    let e := (d.sendSums g own.1).modFlight st num fun g => { g with phase := 2 }
    let r := e.endNorm st g [own.1] own.2
    exec (.norm st) s = .next { s with cx := (Cx.settle r st num).haltIfBad st }) ∧
  (∀ (s : State) (p : Fin 13) (m : Msg), m.op.toNat = 0x12 → s.cx.arrived p m = true →
    let c := s.cx.consume p m
    let n : Step := BitVec.ofNat 48 (m.fields.getD 0 0)
    c.waitingNorm n = none →
    exec (.normSum p m) s = .next { s with cx := ({ c with fab := { c.fab with sums := (keepSum c.fab.sums
      (n, m.src.toNat, m.fields.getD 1 0, BitVec.ofNat 64 (m.fields.getD 2 0))) } }) }) ∧
  (∀ (s : State) (st : StreamId) (num : W32) (cmd : BitVec 512) (t : Tensor) (ws : List Nat) (l : List Byte),
    Starts s.cx st 0x30 num cmd →
    let c := s.cx.start st num cmd
    let f := newFlight s.cx st num cmd
    let g := { f with data := l, phase := 1, wins := ws.map fun w => (w, WinOut.todo) }
    c.runOf f = some (t, ws) → 0 < f.ranks → f.ranks ≤ 4096 → f.ownRank < f.ranks →
    (f.rsOrdered = true → f.ranks ≤ 16) → (f.fused.map finitePositive).getD true = true →
    let a := c.arm (BitVec.ofNat 48 f.rsStep)
    listTagOk (f.arg 40 63 0) = true → a.listOperand st f 4 (f.arg 40 63 0) (4 * f.ranks) = .inr l →
    g.rsNodes.getD f.ownRank 0 = a.node.toNat → a.boundAway st f.tensor = false →
    exec (.reduceScatter st) s =
      .next { s with cx := (Cx.settle (rsGo st g (a.modFlight st num fun _ => g)) st num).haltIfBad st }) ∧
  (∀ (c : Cx) (st : StreamId) (f g : Flight) (t : Tensor) (ws : List Nat), c.runOf f = some (t, ws) →
    f.rsNodes.find? (fun x => c.fab.unreachable.contains x) = none → windowsRefused st c ws = none →
    c.demandAll ws = (c, true) → (c.tryReceipts.rsWindows st f.number ws).flight? st f.number = some g →
    rsGo st f c = (c.tryReceipts.rsWindows st f.number ws, if g.wins.all fun x => x.2 == .untouched
      then .done stOk (ws.filter f.owns).length else .wait .gradients)) ∧
  (∀ (s : State) (p : Fin 13) (m : Msg) (st : StreamId) (f : Flight) (v : Win) (t : Tensor) (d : Cx),
    let w := m.fields.getD 0 0
    let bs := (blocksIn (m.fields.getD 3 0) (m.fields.getD 5 0) m.data).filter fun b => b.1 < 16384
    m.op.toNat = 0x10 → s.cx.arrived p m = true → s.cx.rsApplied w (m.fields.getD 1 0) (m.fields.getD 2 0) = false →
    s.cx.rsTaker w (m.fields.getD 1 0) = some (st, f) → s.cx.win? w = some v → s.cx.tensor? v.tensor = some t →
    v.mode = none ∨ v.mode = some f.rsOrdered → bs ≠ [] → m.fields.getD 4 0 ≠ 1 →
    s.cx.addBlocks w t v (if f.rsOrdered then m.fields.getD 2 0 else 0) (m.fields.getD 1 0) bs = some d →
    exec (.rsBlocks p m) s =
      .next { s with cx := (d.modWin w fun v => { v with mode := some f.rsOrdered }).consume p m }) ∧
  (∀ (s : State) (p : Fin 13) (m : Msg), m.op.toNat = 0x11 → s.cx.arrived p m = true →
    let c := s.cx.consume p m
    let w := m.fields.getD 0 0
    let step := m.fields.getD 1 0
    let old := (c.fab.receipts.find? fun r => r.w = w && r.step = step).getD { w := w, step := step }
    let new := { old with blocks := old.blocks ++ blocksIn (m.fields.getD 3 0) (m.fields.getD 5 0) m.data
                          ended := m.fields.getD 4 0 = 1 }
    let d := ({ c with fab := { c.fab with receipts :=
      (c.fab.receipts.filter (fun r : Receipt => !(r.w = w && r.step = step)) ++ [new]) } } : Cx)
    exec (.rsReceipt p m) s = .next { s with cx := (d.tryReceipts.streams.foldl (fun c q => q.2.flights.foldl (fun c f =>
      if f.op = 0x30 && f.status.isNone && f.phase = 1 && f.rsStep = step then
        c.runFlight bodyReduceScatter (BitVec.ofNat 12 q.1) f.number else c) c) d.tryReceipts) }) ∧
  (∀ (s : State) (st : StreamId) (num : W32) (cmd : BitVec 512) (l : List Byte), Starts s.cx st 0x31 num cmd →
    let c := s.cx.start st num cmd
    let f := newFlight s.cx st num cmd
    let n := f.arg 24 12 0
    let dest := f.arg 32 63 0
    let es := agEntries l n
    0 < n → n ≤ 4096 → bits dest 63 60 = 0 ∨ bits dest 63 60 = 2 ∨ bits dest 63 60 = 3 ∨ bits dest 63 60 = 4 →
    c.listOperand st f 1 (f.arg 16 63 0) (32 * n) = .inr l →
    (∀ e ∈ es, e.reserved = false ∧ e.off % 64 = 0 ∧ c.fab.unreachable.contains e.node = false) → agOverlap es = false →
    c.badOperand? st f .write 3 dest ((es.map fun e => e.off + e.len).foldl max 0) = none →
    let d := c.modFlight st num fun g => { g with phase := 1, data := l
                                                  wins := ((List.range n).map fun i =>
                                                    ((c.fab.nextTag + BitVec.ofNat 16 i).toNat, WinOut.todo)) }
    let e := (List.range n).foldl (fun c i => match es[i]? with
      | some e => c.request st num 0x15 2 (BitVec.ofNat 17 e.node) 0#64 0#64 1 [] i 0
          [e.tensor, e.k, e.count, e.version, b2n e.latest]
      | none => c) d
    exec (.allGather st) s = .next { s with cx := e.waiting st num .fabricCredit }) ∧
  (∀ (s : State) (p : Fin 13) (m : Msg) (t : Tensor) (l : List AgWin),
    let k := m.fields.getD 1 0
    let n := m.fields.getD 2 0
    let ver : Version := BitVec.ofNat 32 (m.fields.getD 3 0)
    m.op.toNat = 0x15 → s.cx.arrived p m = true → s.cx.tensor? (m.fields.getD 0 0) = some t → 0 < n → k + n ≤ t.windows →
    s.cx.demandAll (s.cx.windowIds t k n) = (s.cx, true) →
    let c := s.cx.consume p m
    c.agSelect t k n (m.fields.getD 4 0 = 1) ver = .inr l →
    let d := ({ c with
      fab := { c.fab with agHolds := c.fab.agHolds ++ [{ tag := m.tag.toNat, src := m.src.toNat, wins := l }] }
      holds := (c.holds ++ (l.filter fun x => !x.stash).map fun x =>
        (winStack x.w, x.slot, agHolder m.src.toNat, m.tag.toNat)) } : Cx)
    exec (.agQuery p m) s =
      .next { s with cx := d.sendMsg 0 (d.mkMsg 0x16 2 m.src m.tag 0#64 0#64 1 [] [stOk, 0]) }) ∧
  (∀ (s : State) (p : Fin 13) (m : Msg) (r : Req), m.op.toNat = 0x16 → s.cx.arrived p m = true →
    let c := s.cx.consume p m
    c.req? m.tag = some r → r.op = 0x15 → m.fields.getD 0 0 = 0 →
    exec (.agReply p m) s = .next { s with cx := (((c.dropReq r.tag).modFlight r.stream r.command fun f =>
      { f with awaits := f.awaits.filter (· != r.tag.toNat) }).runFlight bodyAllGather r.stream r.command) }) ∧
  (∀ (s : State) (p : Fin 13) (m : Msg) (r : Req) (f : Flight), m.op.toNat = 0x17 → s.cx.arrived p m = true →
    let c := s.cx.consume p m
    m.fields.getD 0 0 = 1 → m.fields.getD 1 0 = 0 → c.req? m.tag = some r → c.flight? r.stream r.command = some f →
    r.op = 0x17 → f.status = none →
    let dest := f.arg 32 63 0
    let off := ((agEntries f.data (r.off + 1)).map (·.off)).getD r.off 0
    exec (.agData p m) s =
      .next { s with cx := (c.hubWrite (dest + off + m.addr.toNat) m.data).noteWrite r.stream dest }) ∧
  (∀ (s : State) (p : Fin 13) (m : Msg), m.op.toNat = 0x18 → s.cx.arrived p m = true →
    exec (.agRelease p m) s = .next { s with cx := ((s.cx.consume p m).agDrop fun h => h.src = m.src.toNat && h.tag = m.fields.getD 0 0) }) ∧
  (∀ (s : State) (tag : W16), exec (.agQueryTimeout tag) s =
    .next { s with cx := s.cx.agDrop fun h => h.tag = tag.toNat })

/-- Chapter 12's stack events (R302, R310 to R313, R319, R320). -/
def Obligations.StackMaintenance : Prop :=
  (∀ (s : State) (ch : Fin 640) (t : Byte), let k0 := s.cx.stk (ch.val / 32)
    let k := { k0 with temps := kput k0.temps (ch.val % 32) t.toInt }
    k.hottest < 100 → k0.thermalTrip = false → tempRow k0.row k.hottest ≤ k0.row → k0.linkReset = false →
    exec (.temperatureSample ch t) s = .next { s with cx := (s.cx.modStk (ch.val / 32) fun _ =>
      { k with row := tempRow k0.row k.hottest, stackLimit := rowLimit (tempRow k0.row k.hottest) }) }) ∧
  (∀ (s : State) (ch : Fin 640) (bank row : Nat) (off : W32), let st := ch.val / 32
    let key := (ch.val % 32 + 32 * bank) * 2 ^ 20 + row % 2 ^ 20
    let c := ((s.cx.eccAt ch off.toNat).bump (stkReg st 0x40) 31 (homeDie st)).modStk st fun x =>
      { x with ceChan := kput x.ceChan (ch.val % 32) (min 65535 (kget 0 x.ceChan (ch.val % 32) + 1)) }
    (s.cx.stk st).trained = true →
    (kget 0 (c.stk st).eccRows key < 3 → exec (.rowSpare ch bank row off false) s = .next { s with cx := (c.modStk st fun x => { x with eccRows := kput x.eccRows key (kget 0 (c.stk st).eccRows key + 1) }) }) ∧
    (3 ≤ kget 0 (c.stk st).eccRows key → 0 < (c.stk st).sparesLeft (ch.val % 32) bank →
      let left := (c.stk st).sparesLeft (ch.val % 32) bank
      exec (.rowSpare ch bank row off false) s = .next { s with cx := ((((c.modStk st fun x =>
        { x with eccRows := kdel x.eccRows key }).modStk st fun x =>
          { x with spares := kput x.spares (ch.val % 32 + 32 * bank) (left - 1) }).bump (stkReg st 0x48) 31
            (homeDie st)).chanEv 0x6005 0 ch [ch, bank, row, left - 1]) }) ∧
    (3 ≤ kget 0 (c.stk st).eccRows key → (c.stk st).sparesLeft (ch.val % 32) bank = 0 →
      exec (.rowSpare ch bank row off false) s = .next { s with cx := ((c.modStk st fun x =>
        { x with eccRows := kdel x.eccRows key }).retireChannel st (ch.val % 32) 0) })) ∧
  (∀ (s : State) (ch : Fin 640) (bank row : Nat) (off : W32), let st := ch.val / 32
    let key := (ch.val % 32 + 32 * bank) * 2 ^ 20 + row % 2 ^ 20
    let c := (((s.cx.eccAt ch off.toNat).bump (stkReg st 0x44) 31 (homeDie st)).poisonRange
      (chanKey ch (off.toNat / 64 * 64)) 64).modStk st fun x => { x with eccRows := kdel x.eccRows key }
    let left := (c.stk st).sparesLeft (ch.val % 32) bank
    (s.cx.stk st).trained = true → 0 < left →
    exec (.rowSpare ch bank row off true) s = .next { s with cx := (((c.modStk st fun x =>
      { x with spares := kput x.spares (ch.val % 32 + 32 * bank) (left - 1) }).bump (stkReg st 0x48) 31
        (homeDie st)).chanEv 0x6005 0 ch [ch, bank, row, left - 1]) }) ∧
  (∀ (s : State) (stk : Fin 20), s.cx.stackUp stk = true → s.cx.serves (s.cx.owner stk) = true →
    exec (.channelRetire stk) s =
      .next { s with cx := s.cx.retireChannel stk (bits (s.cx.reg (stkReg stk 0x18)).toNat 4 0) 2 }) ∧
  (∀ (s : State) (stk : Fin 20) (x : Nat), (s.cx.stk stk).retired = some x → (s.cx.stk stk).rebuilding = true →
    (s.cx.stk stk).lost = false → s.cx.peersOwe stk = false →
    exec (.channelRebuildDone stk) s = .next { s with cx := (((s.cx.endStopped stk).modStk stk fun y => { y with rebuilding := false }).chanEv 0x6006 2 (stk.val * 32 + x)
        ([stk.val * 32 + x, (s.cx.stk stk).retireCause] ++ (s.cx.stk stk).sources)) }) ∧
  (∀ (s : State) (stk : Fin 20) (d : Delta) (rest : List Delta), (s.cx.stk stk).deltas = d :: rest →
    (s.cx.stk stk).linkReset = false →
    exec (.parityDelta stk) s =
      .next { s with cx := (s.cx.modStk stk fun k => { k with deltas := rest }).applyDelta stk d }) ∧
  (∀ (s : State) (stk : Fin 20), (s.cx.stk stk).linkReset = false → (s.cx.stk stk).rebuilding = false →
    (s.cx.stk stk).lost = false →
    let mine := fun d : Delta => decide (d.granule / 2 ^ 32 = stk.val)
    let ds := (List.range 20).flatMap fun w => (s.cx.stk w).log.filter mine
    let c := (List.range 20).foldl (fun (c : Cx) w => c.modStk w fun k =>
      { k with log := k.log.filter fun d => !mine d, logFull := k.logFull && !(k.log.any mine) }) s.cx
    exec (.parityLogReplay stk) s = .next { s with cx := (ds.foldl (fun c d => c.applyDelta stk { d with granule := d.granule % 2 ^ 32 }) c) }) ∧
  (∀ (s : State) (stk : Fin 20), (s.cx.stk stk).trained = true → (s.cx.stk stk).linkReset = true →
    exec (.linkResetExpiry stk) s = .next { s with cx := s.cx.loseStack stk 2 }) ∧
  (∀ (s : State) (stk : Fin 20), s.cx.rebuildable stk = true → (s.cx.stk stk).rebuilding = false →
    exec (.stackRebuild stk) s =
      .next { s with cx := s.cx.modStk stk fun k => { k with rebuilding := true, progress := 0 } }) ∧
  (∀ (s : State) (stk : Fin 20), s.cx.rebuildable stk = true → (s.cx.stk stk).rebuilding = true →
    ∃ t, exec (.stackRebuildDone stk) s = .next t ∧ t.pending = s.pending ∧ (t.cx.stk stk).rebuilding = false ∧
      (t.cx.stk stk).lost = false ∧ (t.cx.stk stk).lossFenced = [] ∧ t.cx.streams = s.cx.streams) ∧
  (∀ (s : State) (ch : Fin 640) (off : W32) (data : List Byte), (s.cx.die (homeDie (ch.val / 32))).jtag = 6 →
    s.cx.enabled = false → (s.cx.die (homeDie (ch.val / 32))).core = false → data ≠ [] →
    off.toNat + data.length ≤ channelBytes →
    let c := (List.range data.length).foldl (fun (c : Cx) i =>
      c.putByte (chanKey ch (off.toNat + i)) (data.getD i 0#8)) s.cx
    let words := (List.range ((off.toNat + data.length - 1) / 2048 + 1 - off.toNat / 2048)).flatMap fun i =>
      (List.range 32).map fun j => chanKey ch ((off.toNat / 2048 + i) * 2048 + 64 * j) / 64
    exec (.testRawWrite ch off data) s = .next { s with cx := ({ c with
      eccUnknown := words.foldl nput c.eccUnknown, poison := words.foldl nput c.poison }) })

/-- Stack links (R307 to R309) and the slow tier (R322, R323). -/
def Obligations.StackLinksAndTiers : Prop :=
  (∀ (s : State) (stk : Fin 20), s.cx.ownerServes stk = true → (s.cx.stk stk).retrainP = false →
    exec (.retrainPrimary stk) s = .next { s with cx := (s.cx.modStk stk fun k => { k with
      retrainP := true, onStandby := true, primary := 1, cause := 2 }) }) ∧
  (∀ (s : State) (stk : Fin 20), s.cx.ownerServes stk = true → (s.cx.stk stk).retrainS = false →
    (s.cx.stk stk).retrainP = false →
    exec (.retrainStandby stk) s = .next { s with cx := (s.cx.modStk stk fun k => { k with
      retrainS := true, standby := 1, standbyWaits := false, cause := 2 }) }) ∧
  (∀ (s : State) (stk : Fin 20), 2 ≤ (s.cx.stk stk).primary → (s.cx.stk stk).retrainP = false →
    exec (.stackReplayBurst stk) s = .next { s with cx := (s.cx.modStk stk fun k => { k with
      retrainP := true, onStandby := true, primary := 1, cause := 0 }) } ∧
    exec (.laneCheckFailure stk false) s = .next { s with cx := (s.cx.modStk stk fun k => { k with
      retrainP := true, onStandby := true, primary := 1, cause := 1 }) }) ∧
  (∀ (s : State) (stk : Fin 20), 2 ≤ (s.cx.stk stk).standby → (s.cx.stk stk).retrainS = false →
    exec (.laneCheckFailure stk true) s = .next { s with cx := (s.cx.modStk stk fun k => { k with
      retrainS := true, standby := 1, standbyWaits := false, cause := 1 }) }) ∧
  (∀ (s : State) (stk : Fin 20) (failed dur : Nat), (s.cx.stk stk).retrainP = true → (s.cx.stk stk).marginHolds = false →
    (s.cx.stk stk).standbyWaits = false →
    let r := trainedState false failed
    let c := s.cx.modStk stk fun k => { k with retrainP := false, primary := r.1, sparePrimary := r.2, onStandby := r.1 = 0 }
    let c := ((c.bump (stkReg stk 0x4C) 31 (homeDie stk)).stkEv 0x6001 1 stk
      [stk, 0, (s.cx.stk stk).cause, r.2, dur]).sayDegraded stk false r.1
    exec (.retrainDone stk false failed dur) s = .next { s with cx := Cx.linkEdge s.cx stk c }) ∧
  (∀ (s : State) (stk : Fin 20) (failed dur : Nat), (s.cx.stk stk).retrainS = true →
    let r := trainedState true failed
    let c := s.cx.modStk stk fun k => { k with retrainS := false, standby := r.1, spareStandby := r.2 }
    let c := ((c.bump (stkReg stk 0x4C) 31 (homeDie stk)).stkEv 0x6001 1 stk
      [stk, 1, (s.cx.stk stk).cause, r.2, dur]).sayDegraded stk true r.1
    exec (.retrainDone stk true failed dur) s = .next { s with cx := Cx.linkEdge s.cx stk c }) ∧
  (∀ (s : State) (stk : Fin 20), s.cx.ownerServes stk = true → (s.cx.stk stk).marginBusy = false →
    let under := s.cx.enabled && !bit (s.cx.reg (stkReg stk 0x08)).toNat 10
    let c := s.cx.modStk stk fun k => { k with marginBusy := true, marginDone := false, marginErrors := 0, marginHolds := under }
    exec (.margin stk) s = .next { s with cx := if under then c.retrainPrimary stk 3 else c }) ∧
  (∀ (s : State) (d : Side), s.cx.serves d = true → (s.cx.die d).marginBusy = false → s.cx.enabled = false →
    exec (.slowMargin d) s = .next { s with cx := (s.cx.modDie d fun k => { k with
      marginBusy := true, marginDone := false, marginErrors := 0 }) }) ∧
  (∀ (s : State) (stk : Fin 20) (errors : Nat), (s.cx.stk stk).marginBusy = true →
    exec (.marginDwellEnd (.stack stk) errors) s = .next { s with cx := (s.cx.modStk stk fun x => { x with
      marginBusy := false, marginDone := true, marginErrors := min errors (2 ^ 24 - 1), marginHolds := false }) }) ∧
  (∀ (s : State) (d : Side) (errors : Nat), (s.cx.die d).marginBusy = true →
    exec (.marginDwellEnd (.slow d) errors) s = .next { s with cx := (s.cx.modDie d fun x => { x with
      marginBusy := false, marginDone := true, marginErrors := min errors (2 ^ 24 - 1) }) }) ∧
  (∀ (s : State) (w : BitVec 19) (v : Win) (slot : Nat), let st := winStack w.toNat
    s.cx.win? w.toNat = some v → v.resident = false → v.promoting = true → s.cx.stackBusy st = false →
    s.cx.coreUp (homeDie st) = true → s.cx.freePromo st = some slot → (s.cx.die (homeDie st)).slowUp = true →
    s.cx.hubPoisonIn (slowImageKey w.toNat v) slotBytes = none →
    let c := s.cx.copyImage (stackKey st (s.cx.slotOff slot)) (s.cx.bytes (slowImageKey w.toNat v) slotBytes)
    let c := (c.tagSlot st slot v.tenantTag).modWin w.toNat fun v => { v with
      stateSlot := slot, resident := true, promoting := false }
    exec (.promotionDone w true) s = .next { s with cx := ((((c.submit (c.owner st) (.flags w.toNat)).saveEntry w.toNat).serveGathers).serveGrads) }) ∧
  (∀ (s : State) (w : BitVec 19) (v : Win), s.cx.win? w.toNat = some v → s.cx.canWriteBack w.toNat v = true →
    v.writingBack = false →
    exec (.writeBackStart w) s = .next { s with cx := s.cx.modWin w.toNat fun v => { v with writingBack := true } }) ∧
  (∀ (s : State) (w : BitVec 19) (v : Win), let st := winStack w.toNat
    s.cx.win? w.toNat = some v → s.cx.canWriteBack w.toNat v = true → v.writingBack = true →
    let src := stackKey st (s.cx.slotOff v.stateSlot)
    let c := (s.cx.poke (slowImageKey w.toNat v) (s.cx.hubBytes src slotBytes)).carryPoison src (slowImageKey w.toNat v)
      slotBytes
    let c := (c.retire st v.stateSlot).modWin w.toNat fun v => { v with resident := false, writingBack := false }
    exec (.writeBackDone w) s =
      .next { s with cx := (c.submit (c.owner st) (.flags w.toNat)).saveEntry w.toNat })

/-- DIGEST_EXCHANGE (R268 to R270, R272), DIGEST and LEAVES (R357), FETCH, FETCH_DATA and REQUEST_TIMEOUT (R271, R354). -/
def Obligations.AuditMessages : Prop :=
  (∀ (s : State) (st : StreamId) (num : W32) (cmd : BitVec 512) (v : Win), Starts s.cx st 0x33 num cmd →
    let c := s.cx.start st num cmd
    let f := newFlight s.cx st num cmd
    let w := f.dgWindow
    let a := c.arm (BitVec.ofNat 48 f.dgStep)
    c.dgHalts f = false → f.dgMode = 2 → a.win? w = some v → a.boundAway st v.tensor = false →
    a.stackBusy (winStack w) = false → a.cutOff st [w] = false →
    exec (.digestExchange st) s = .next { s with cx :=
      ((if v.fenced then a.unfenceWin w else a).modWin w fun v => { v with eccSeen := false }).ended st num stOk 1 }) ∧
  (∀ (s : State) (st : StreamId) (num : W32) (cmd : BitVec 512) (b : List Byte), Starts s.cx st 0x33 num cmd →
    let c := s.cx.start st num cmd
    let f := newFlight s.cx st num cmd
    let g := { f with data := b, phase := 1 }
    c.dgHalts f = false → f.dgMode = 0 → f.dgCount = 0 → f.ranks = 1 →
    let a := c.arm (BitVec.ofNat 48 f.dgStep)
    a.listOperand st f 4 (f.arg 40 63 0) 4 = .inr b → a.fab.unreachable = [] → a.cutOff st (a.dgWindows g) = false →
    exec (.digestExchange st) s = .next { s with cx := (({ a with fab := { a.fab with
      auditPeers := g.dgNodes, auditRank := f.ownRank
      digests := a.fab.digests.filter fun d => d.step != f.dgStep } } : Cx).ended st num stOk 0) }) ∧
  (∀ (s : State) (p : Fin 13) (m : Msg), m.op.toNat = 0x13 → s.cx.arrived p m = true →
    let c := s.cx.consume p m
    let ds := (List.range (m.data.length / 32)).map fun i => readDigest m.src.toNat (m.data.drop (32 * i))
    exec (.digest p m) s = .next { s with cx := ({ c with fab := { c.fab with
      digests := c.fab.digests ++ ds ++ (if m.fields.getD 1 0 = 1 then [⟨m.src.toNat, m.fields.getD 0 0, 2 ^ 24, 0, []⟩] else []) } } : Cx).auditsGo }) ∧
  (∀ (s : State) (p : Fin 13) (m : Msg), m.op.toNat = 0x14 → s.cx.arrived p m = true →
    let c := s.cx.consume p m
    let mine := fun l : LeafRec => decide (l.src = m.src.toNat ∧ l.w = m.fields.getD 0 0 ∧
      (l.part = m.fields.getD 1 0 ∨ l.part = 16))
    exec (.leaves p m) s = .next { s with cx := ({ c with fab := { c.fab with
      leafLists := (c.fab.leafLists.filter fun l => !mine l) ++ [⟨m.src.toNat, m.fields.getD 0 0, m.fields.getD 1 0, m.data⟩,
        ⟨m.src.toNat, m.fields.getD 0 0, 16, [BitVec.ofNat 8 (m.fields.getD 2 0)]⟩] } } : Cx).auditsGo }) ∧
  (∀ (s : State) (p : Fin 13) (m : Msg) (v : Win), let w := m.fields.getD 1 0
    let off := m.fields.getD 2 0
    let n := m.fields.getD 3 0
    m.op.toNat = 0x19 → s.cx.arrived p m = true → s.cx.win? w = some v → m.fields.getD 0 0 = 0 → off + n ≤ slotBytes →
    s.cx.stackBusy (winStack w) = false → v.resident = true → s.cx.hubPoisonIn (s.cx.stateKey w v off) n = none →
    exec (.fetch p m) s = .next { s with cx := ((s.cx.consume p m).respond m 0x1A 0#64 0#64
      (s.cx.hubBytes (s.cx.stateKey w v off) n) [stOk, 0, leNat v.digest]) }) ∧
  (∀ (s : State) (p : Fin 13) (m : Msg) (r : Req), m.op.toNat = 0x1A → s.cx.arrived p m = true →
    (s.cx.consume p m).req? m.tag = some r →
    (r.op = opRebuildFetch → exec (.fetchData p m) s = .next { s with cx := (((s.cx.consume p m).dropReq r.tag).rebuildData r (m.fields.getD 0 0 = stOk) m.data) }) ∧
    (r.op = 0x19 → r.op ≠ opRebuildFetch → exec (.fetchData p m) s = .next { s with cx := (((((s.cx.consume p m).dropReq r.tag).modFlight r.stream r.command fun f =>
        { f with awaits := f.awaits.filter (· != r.tag.toNat) }).repairData r (m.fields.getD 0 0 = stOk) m.data
          (leBytes 16 (m.fields.getD 2 0))).runFlight bodyDigest r.stream r.command) })) ∧
  (∀ (s : State) (tag : W16) (r : Req) (f : Flight), s.cx.req? tag = some r → r.op ≠ opRebuildFetch → r.op ≠ 0x19 →
    let d := ((({ s.cx with fab := { s.cx.fab with unreachable := nput s.cx.fab.unreachable r.dest } } : Cx).dropReq
      tag).modFlight r.stream r.command fun f =>
        { f with awaits := f.awaits.filter (· != tag.toNat), worst := stFenced, result := BitVec.ofNat 64 r.dest })
    d.flight? r.stream r.command = some f →
    exec (.requestTimeout tag) s = .next { s with cx := (if f.awaits.isEmpty then d.runFlight (fabricBody f.op) r.stream r.command else d) })

/-- NULL_FRAME and SEQUENCED_FRAME (R334, R338 to R341). -/
def Obligations.FramesTaken : Prop :=
  (∀ (s : State) (p : Fin 12) (f : Frame), (s.cx.fp p).st = .up → f.good = false →
    exec (.nullFrame p f) s = .next { s with cx := s.cx.bump (fabOff p 0x40) 31 (portDie p) } ∧
    exec (.sequencedFrame p f) s = .next { s with cx := s.cx.bump (fabOff p 0x40) 31 (portDie p) }) ∧
  (∀ (s : State) (p : Fin 12) (f : Frame), (s.cx.fp p).st = .up → f.good = true → f.type = 0 →
    exec (.nullFrame p f) s = .next { s with cx := s.cx.takeControl p f }) ∧
  (∀ (s : State) (p : Fin 12) (f : Frame), (s.cx.fp p).st = .up → f.good = true → f.type = 1 ∨ f.type = 2 →
    let d := s.cx.takeControl p f
    (d.fp p).st = .up →
    (f.seq = (d.fp p).rxNext → exec (.sequencedFrame p f) s = .next { s with cx := ((d.modFp p fun q => { q with
      rxNext := q.rxNext + 1#12, accepted := true, ackPending := true, nakSent := false }).assemble p f) }) ∧
    (seqCmp f.seq (d.fp p).rxNext = .older → exec (.sequencedFrame p f) s = .next { s with cx := ((d.bump (fabOff p 0x54) 31 (portDie p)).modFp p fun q => { q with ackPending := true }) }) ∧
    (seqCmp f.seq (d.fp p).rxNext = .newer → (d.fp p).nakSent = false →
      ∃ t, exec (.sequencedFrame p f) s = .next t ∧ (t.cx.fp p).nakPending = true ∧ (t.cx.fp p).nakSent = true ∧
        (t.cx.fp p).rxNext = (d.fp p).rxNext ∧ t.pending = s.pending) ∧
    (seqCmp f.seq (d.fp p).rxNext = .newer → (d.fp p).nakSent = true →
      exec (.sequencedFrame p f) s = .next { s with cx := (d.bump (fabOff p 0x58) 31 (portDie p)).modFp p fun q => q }))

/-- Acks (R340) and credits (R337, R338). -/
def Obligations.AcksAndCredits : Prop :=
  (∀ (c : Cx) (p : Nat) (f : Frame), f.ackValid = true → newerEq f.ack (c.fp p).nextSeq = false →
    (∀ a, (c.fp p).newestAck = some a → seqCmp f.ack a ≠ .older) →
    ((c.takeAck p f).fp p).replay = (c.fp p).replay.filter (fun t => newer t.seq f.ack) ∧
    ((c.takeAck p f).fp p).newestAck = some f.ack ∧ ((c.takeAck p f).fp p).nextSeq = (c.fp p).nextSeq ∧
    (c.takeAck p f).streams = c.streams ∧ (c.takeAck p f).mem = c.mem) ∧
  (∀ (c : Cx) (p : Nat) (f : Frame), p < 12 → f.ackValid = true → newerEq f.ack (c.fp p).nextSeq = true →
    (c.fp p).st = .up → ((c.takeAck p f).fp p).st = .reset ∧ ((c.takeAck p f).fp p).resetting = 4) ∧
  (∀ (c : Cx) (p : Nat) (f : Frame), f.ackValid = false → c.takeAck p f = c) ∧
  (∀ (c : Cx) (p : Nat) (f : Frame), (c.fp p).avail.length = 4 → (c.fp p).lastTotal.length = 4 →
    (((c.takeCredit p f).fp p).avail.getD f.creditVc 0 =
      (c.fp p).avail.getD f.creditVc 0 + (f.creditTotal + 256 - (c.fp p).lastTotal.getD f.creditVc 0) % 256) ∧
    (((c.takeCredit p f).fp p).lastTotal.getD f.creditVc 0 = f.creditTotal) ∧
    (∀ v, v ≠ f.creditVc → ((c.takeCredit p f).fp p).avail.getD v 0 = (c.fp p).avail.getD v 0)) ∧
  (∀ (c : Cx) (p q : Nat) (f : Frame), q ≠ p → (c.takeCredit p f).fp q = c.fp q ∧ (c.takeAck p f).fp q = c.fp q)

/-- Link events (R338, R341 to R346). -/
def Obligations.LinkTimersAndResets : Prop :=
  (∀ (s : State) (p : Fin 12), let q := s.cx.fp p
    q.st = .up → q.ackPending = true ∨ q.nakPending = true ∨ q.totals ≠ q.reported →
    exec (.nullSendTimer p) s = .next { s with cx := ((s.cx.modFp p FabPort.reportedBy).emit (.frame p (q.header 0 0 0#12 0) none 0)) }) ∧
  (∀ (s : State) (p : Fin 12), let q := s.cx.fp p
    let c := (((s.cx.bump (fabOff p 0x48) 31 (portDie p)).bump (fabOff p 0x44) 31 (portDie p)).modFp p fun q =>
      { q with timeouts := q.timeouts + 1 }).replayAll p
    q.st = .up → q.replay ≠ [] →
    exec (.ackTimeout p) s = .next { s with cx := if 8 ≤ q.timeouts + 1 then c.resetLink p 0 else c }) ∧
  (∀ (s : State) (p : Fin 12) (f : Frame), (s.cx.fp p).st = .up →
    let c := fun (d : Cx) (k : Nat) => ((d.bump (fabOff p 0x4C) 31 (portDie p)).emit (.ctl p 9 [k])).modFp p fun q =>
      { q with st := .reset, wasUp := true, sawHello := false, timeouts := 0, resetting := k + 1 }
    (f.good = true → f.type = 9 → exec (.resetFrame p f) s = .next { s with cx := c s.cx 4 }) ∧
    exec (.fabPortReset p) s = .next { s with cx := c s.cx 5 } ∧
    exec (.laneAlignmentLoss p) s = .next { s with cx := c s.cx 2 } ∧
    (∀ n, 1000 < n → exec (.uncorrectedBlockBurst p n) s =
      .next { s with cx := c (s.cx.bump (fabOff p 0x50) 31 (portDie p) n) 1 })) ∧
  (∀ (s : State) (p : Fin 12) (n : Nat), n ≤ 1000 →
    exec (.uncorrectedBlockBurst p n) s = .next { s with cx := s.cx.bump (fabOff p 0x50) 31 (portDie p) n }) ∧
  (∀ (s : State) (p : Fin 12), (s.cx.fp p).departing = true →
    exec (.departWaitExpiry p) s = .next { s with cx := ((((s.cx.portSend p (s.cx.localMsg 0x2A 1 0#64 0#64 [] [])).modFp p fun q => { q.cold [0, 0, 0, 0] with
        st := .down, departing := false, queue := [], wasUp := false, bootstrap := true }).ev
        0x7002 7 1 (portDie p) p [p.val, 1]).endDisable) }) ∧
  (∀ (s : State) (p : Fin 13) (m : Msg), m.op.toNat = 0x2A → s.cx.arrived p m = true →
    exec (.depart p m) s = .next { s with cx := (((s.cx.consume p m).modFp p fun q => { q.cold [0, 0, 0, 0] with
      st := .down, queue := [], wasUp := false }).portDown p 0) })

/-- LANE_TRAINING_DONE, HELLO, HELLO_TIMER and LINK_UP_TIMEOUT (R332, R343, R344, R353). -/
def Obligations.LinkTraining : Prop :=
  (∀ (s : State) (p : Fin 12) (l : LaneForm), (s.cx.fp p).st = .training ∨ (s.cx.fp p).st = .reset →
    (s.cx.fp p).bootstrap = true → ((s.cx.fp p).force4 = true → l.width4 = true) →
    ((s.cx.fp p).force56 = true → l.speed56 = true) →
    exec (.laneTrainingDone p (some l)) s = .next { s with cx := ((s.cx.modFp p fun q => { q with
      st := .hello, width4 := l.width4, speed56 := l.speed56, sawHello := false }).sendHello p) }) ∧
  (∀ (s : State) (p : Fin 12) (l : LaneForm), (s.cx.fp p).st = .training ∨ (s.cx.fp p).st = .reset →
    let down := (s.cx.modFp p fun q => { q with st := .down, resetting := 0 }).portDown p 3
    exec (.laneTrainingDone p none) s = .next { s with cx := down } ∧
    ((s.cx.fp p).force4 = true → l.width4 = false →
      exec (.laneTrainingDone p (some l)) s = .next { s with cx := down })) ∧
  (∀ (s : State) (p : Fin 12), (s.cx.fp p).st = .hello →
    exec (.helloTimer p) s = .next { s with cx := s.cx.emit (.ctl p 8 (s.cx.helloFields p)) }) ∧
  (∀ (s : State) (p : Fin 12) (f : Frame), f.good = true → (s.cx.fp p).st = .hello → f.type = 8 →
    let q := s.cx.fp p
    let v := leNat f.payload
    let g := fun o n => v / 256 ^ o % 256 ^ n
    let uid := BitVec.ofNat 64 (g 0 8)
    let same : Bool := uid = q.partnerUid && bits (g 12 1) 3 0 = q.partnerPort
    let node := if bit (g 8 4) 17 then some (BitVec.ofNat 17 (g 8 4)) else none
    let minor := min (g 14 1) 1
    let c := s.cx.modFp p fun q => { q with sawHello := true, partnerUid := uid, partnerPort := bits (g 12 1) 3 0
                                            partnerNode := node, minor := minor, wasUp := q.wasUp && same }
    let c := if q.sawHello then c else c.sendHello p
    q.bootstrap = true → g 13 1 = 3 →
    (bit (g 15 1) 2 = true → exec (.hello p f) s = .next { s with cx := ((c.ev 0x2006 7 0 (portDie p) p [1, p.val, 3, 1, g 13 1, g 14 1, minor]).linkUp p
        (q.wasUp && same && bit (g 15 1) 1) [g 18 1, g 19 1, g 20 1, g 21 1]) }) ∧
    (bit (g 15 1) 2 = false → exec (.hello p f) s = .next { s with cx := c })) ∧
  (∀ (s : State) (p : Fin 12), (s.cx.fp p).resetting ≠ 0 → (s.cx.fp p).st = .reset → s.cx.img.push = none →
    let q := s.cx.fp p
    let c := (s.cx.modFp p fun q => { q with
      st := .failed, resetting := 0, wasUp := false, replay := [], queue := [] }).linkChange p
    (q.heldMsgs = [] → exec (.linkUpTimeout p) s =
      .next { s with cx := (c.resend p q.unsent).portFailed p 0 0 }) ∧
    (∀ n, q.heldMsgs ≠ [] → q.partnerNode = some n → exec (.linkUpTimeout p) s =
      .next { s with cx := ((c.sendMsg p (c.mkMsg 0x27 1 n 0#16 0#64 0#64 0 [] [0, (c.fp p).partnerPort])).modFp p
        fun q' => { q' with salvaging := true, salvage := q.heldMsgs, heldBack := q.unsent }) }))

/-- SALVAGE and SALVAGE_TIMEOUT (R353, R376). That held messages go out on their own routes is the model's choice (log
entry 82). -/
def Obligations.SalvageAnswers : Prop :=
  (∀ (s : State) (p : Fin 13) (m : Msg), m.op.toNat = 0x27 → s.cx.arrived p m = true → m.fields.getD 0 0 = 0 →
    let c := s.cx.consume p m
    let port := m.fields.getD 1 0 % 12
    let q := c.fp port
    (c.coreUp (portDie port) = true → exec (.salvage p m) s = .next { s with cx :=
      ((c.modFp port fun q => { q with parts := [] }).respond m 0x27 0#64 0#64 [] [1, q.partnerPort, q.salvageSeq.toNat]) }) ∧
    (c.coreUp (portDie port) = false → exec (.salvage p m) s =
      .next { s with cx := c.respond m 0x27 0#64 0#64 [] [2, q.partnerPort, 0] })) ∧
  (∀ (q : FabPort), q.parts = [] → q.salvageSeq = q.rxNext) ∧
  (∀ (q : FabPort) (v : Nat) (x : RxPart), q.parts = [(v, x)] → newer q.rxNext x.seq = true → q.salvageSeq = x.seq) ∧
  (∀ (s : State) (p : Fin 13) (m : Msg), m.op.toNat = 0x27 → s.cx.arrived p m = true → m.fields.getD 0 0 = 1 →
    let c := s.cx.consume p m
    let port := m.fields.getD 1 0 % 12
    let q := c.fp port
    let again := (q.salvage.filter fun x => newerEq x.1 (BitVec.ofNat 12 (m.fields.getD 2 0))).map (·.2)
    q.salvaging = true → (again.all fun x => !x.linkLocal) = true →
    exec (.salvage p m) s = .next { s with cx := ((c.takeHeld port).resend port again).endSalvage port again.length 0 }) ∧
  (∀ (s : State) (p : Fin 12), (s.cx.fp p).salvaging = true →
    let q := s.cx.fp p
    let c := s.cx.modFp p fun q => { q with salvaging := false, salvage := [], heldBack := [] }
    exec (.salvageTimeout p) s = .next { s with cx := ((c.resend p q.heldBack).portFailed p 0 q.salvage.length) })

/-- Election, heartbeats and reports (R347 to R349). -/
def Obligations.ElectionRuns : Prop :=
  (∀ (s : State) (p : Fin 13) (m : Msg), m.op.toNat = 0x20 → s.cx.arrived p m = true →
    let c := s.cx.consume p m
    let k := (m.fields.getD 0 0, m.fields.getD 1 0)
    let dist := m.fields.getD 2 0
    c.fab.st ≠ 0 → c.betterElect p k dist = true →
    exec (.elect p m) s = .next { s with cx := (({ c with fab := { c.fab with
      best := some k, dist := dist + 1, parent := p, st := 1, root := false, changed := true } } : Cx).sendElectAll) }) ∧
  (∀ (s : State) (k : Nat × Nat), s.cx.fab.best = some k → s.cx.fab.st = 1 → s.cx.offer = some k →
    ∃ t, exec .electionSettle s = .next t ∧ t.pending = s.pending ∧ t.cx.fab.st = 2 ∧ t.cx.fab.root = true ∧
      t.cx.fab.dist = 0 ∧ t.cx.fab.parent = 0 ∧ t.cx.fab.rootUid = BitVec.ofNat 64 k.2) ∧
  (∀ (s : State) (k : Nat × Nat), s.cx.fab.best = some k → s.cx.fab.st = 1 → s.cx.offer ≠ some k →
    ∃ t, exec .electionSettle s = .next t ∧ t.pending = s.pending ∧ t.cx.fab.st = 2 ∧ t.cx.fab.root = false ∧
      t.cx.fab.dist = s.cx.fab.dist ∧ t.cx.fab.parent = s.cx.fab.parent) ∧
  (∀ (s : State), s.cx.fab.root = true → exec .heartbeatTimer s = .next { s with cx := (s.cx.upPorts.foldl (fun c p => c.sendDisc p 0x25 [c.fab.rootUid.toNat]) s.cx) }) ∧
  (∀ (s : State) (p : Fin 13) (m : Msg), m.op.toNat = 0x25 → s.cx.arrived p m = true →
    let c := s.cx.consume p m
    c.fab.st ≠ 0 → c.fab.root = false → c.fab.parent = p →
    let d := (c.upPorts.filter (· != p.val)).foldl (fun c q => c.sendDisc q 0x25 m.fields) c
    exec (.heartbeat p m) s = .next { s with cx := d.sendDisc d.fab.parent 0x21 d.ownTopo.fields }) ∧
  (∀ (s : State) (p : Fin 13) (m : Msg), m.op.toNat = 0x21 → s.cx.arrived p m = true →
    let c := s.cx.consume p m
    let t := readTopo m.fields
    let f := { c.fab with via := kput c.fab.via t.uid p.val }
    (c.fab.st = 2 → c.fab.root = true →
      exec (.topo p m) s = .next { s with cx := { c with fab := { f with topos := putTopo f.topos t } } }) ∧
    (c.fab.st ≠ 0 → c.fab.root = false →
      exec (.topo p m) s = .next { s with cx := ({ c with fab := f } : Cx).sendDisc c.fab.parent 0x21 m.fields })) ∧
  (∀ (s : State) (p : Fin 13) (m : Msg), m.op.toNat = 0x26 → s.cx.arrived p m = true →
    let c := s.cx.consume p m
    c.fab.st ≠ 0 →
    (c.fab.root = true → exec (.linkChange p m) s = .next { s with cx := { c with fab := { c.fab with st := 2, topos := [] } } }) ∧
    (c.fab.root = false → exec (.linkChange p m) s = .next { s with cx := c.sendDisc c.fab.parent 0x26 m.fields })) ∧
  (∀ (s : State), s.cx.fab.st ≠ 0 → s.cx.fab.root = false → exec .heartbeatTimeout s = .next { s with cx := (({ s.cx with fab := { s.cx.fab with st := 1, best := s.cx.offer, dist := 0, parent := 0, rootUid := 0#64 } } : Cx).sendElectAll) })

/-- COLLECTION_CLOSE, ASSIGN, TABLE and TABLE_ACK (R348, R349, R352). -/
def Obligations.TablesInstalled : Prop :=
  (∀ (s : State), s.cx.fab.root = true → s.cx.fab.st = 2 →
    let c := ({ s.cx with fab := { s.cx.fab with topos := putTopo s.cx.fab.topos s.cx.ownTopo } } : Cx)
    ∃ t, exec .collectionClose s = .next t ∧ t.pending = s.pending ∧ t.cx.fab.assigned = assignIds c.fab.topos ∧
      t.cx.fab.acks = (c.fab.topos.filter fun x => x.uid != c.fab.uid.toNat).map (·.uid) ∧
      (t.cx.fab.acks ≠ [] → t.cx.fab.st = 3) ∧ (t.cx.fab.acks = [] → t.cx.fab.st = 4)) ∧
  (∀ (s : State) (p : Fin 13) (m : Msg), m.op.toNat = 0x22 → s.cx.arrived p m = true →
    let c := s.cx.consume p m
    c.fab.st ≠ 0 → m.fields.getD 0 0 = c.fab.uid.toNat →
    exec (.assign p m) s = .next { s with cx := (c.tryInstall { c.newTablesFor (BitVec.ofNat 32 (m.fields.getD 1 0)) with
      assigned := true, nodes := m.fields.getD 4 0
      id := if m.fields.getD 2 0 = 0 then none else some (BitVec.ofNat 17 (m.fields.getD 3 0)) }) }) ∧
  (∀ (s : State) (p : Fin 13) (m : Msg), m.op.toNat = 0x23 → s.cx.arrived p m = true →
    let c := s.cx.consume p m
    let t := c.newTablesFor (BitVec.ofNat 32 (m.fields.getD 1 0))
    c.fab.st ≠ 0 → m.fields.getD 0 0 = c.fab.uid.toNat →
    (m.fields.getD 2 0 = 0 → exec (.table p m) s = .next { s with cx := (c.tryInstall { t with parts := nput t.parts 0, group := routeEntries 512 m.data }) }) ∧
    (m.fields.getD 2 0 ≠ 0 → exec (.table p m) s = .next { s with cx := (c.tryInstall { t with parts := nput t.parts 1, member := routeEntries 256 m.data }) })) ∧
  (∀ (c : Cx) (t : NewTables), t.assigned = true → t.parts.contains 0 = true → t.parts.contains 1 = true →
    c.tryInstall t = (c.installTables t).sendDisc (c.installTables t).fab.parent 0x24
      [(c.installTables t).fab.uid.toNat, t.epoch.toNat] ∧
    (c.installTables t).fab.id = t.id ∧ (c.installTables t).fab.group = t.group ∧
    (c.installTables t).fab.member = t.member ∧ (c.installTables t).fab.epoch = t.epoch) ∧
  (∀ (s : State) (p : Fin 13) (m : Msg), m.op.toNat = 0x24 → s.cx.arrived p m = true →
    let c := s.cx.consume p m
    c.fab.root = true → c.fab.st = 3 → m.fields.getD 1 0 = c.fab.nextEpoch.toNat →
    let acks := c.fab.acks.filter (· != m.fields.getD 0 0)
    exec (.tableAck p m) s = .next { s with cx := ({ c with fab := { c.fab with acks := acks, st := if acks.isEmpty then 4 else 3 } }) })

/-- FAB_PUSH_GO, IMAGE_PUSH_ACK, IMAGE_PUSH (R126, R359), MODULE_BRINGUP (R133) and UCIE_MODULE_FAILURE. -/
def Obligations.ImagePushRuns : Prop :=
  (∀ (s : State) (p : Fin 12), (s.cx.fp p).st = .up → (s.cx.fp p).pushing = none →
    [0, 2, 3, 4].contains (bits (pushAddr s.cx p) 63 60) = true → 0 < pushLen s.cx p →
    s.cx.checkRange .read (pushAddr s.cx p) (pushLen s.cx p) = none → s.cx.away? (portDie p) (pushAddr s.cx p) = none →
    s.cx.poisonIn (pushAddr s.cx p) (pushLen s.cx p) = none →
    exec (.fabPushGo p) s = .next { s with cx := ((s.cx.modFp p fun q => { q with
      pushing := some (0, pushLen s.cx p), pushState := 1 }).portSend p (s.cx.localMsg 0x28 0 0#64
        (BitVec.ofNat 64 (pushLen s.cx p)) (s.cx.readAt (pushAddr s.cx p) (min 4096 (pushLen s.cx p))) [])) }) ∧
  (∀ (s : State) (p : Fin 13) (m : Msg) (off len : Nat), m.op.toNat = 0x29 → s.cx.arrived p m = true →
    let c := s.cx.consume p m
    (c.fp p).pushing = some (off, len) →
    (m.fields.getD 0 0 = stOk → off + 4096 < len →
      exec (.imagePushAck p m) s = .next { s with cx := Cx.pushNext c p (off + 4096) len }) ∧
    (m.fields.getD 0 0 = stOk → len ≤ off + 4096 →
      exec (.imagePushAck p m) s = .next { s with cx := c.endPush p len stOk }) ∧
    (m.fields.getD 0 0 ≠ stOk →
      exec (.imagePushAck p m) s = .next { s with cx := c.endPush p off (m.fields.getD 0 0) })) ∧
  (∀ (s : State) (p : Fin 13) (m : Msg), m.op.toNat = 0x28 → s.cx.arrived p m = true →
    let c := s.cx.consume p m
    (0x4000000 < m.arg.toNat → exec (.imagePush p m) s =
      .next { s with cx := c.portSend p (c.localMsg 0x29 1 0#64 0#64 [] [stPoison]) }) ∧
    (0 < m.arg.toNat → m.arg.toNat ≤ 0x4000000 → m.addr.toNat + m.data.length < m.arg.toNat → c.img.st = .empty →
      (c.die .A).imgAccept = true → c.img.push = none →
      let d := (c.setImg fun i => { i with st := .loading, push := some (p.val, m.arg.toNat), lastPort := p.val }).poke
        (sramKey c.master (stagingOff + m.addr.toNat)) m.data
      exec (.imagePush p m) s = .next { s with cx := d.portSend p (d.localMsg 0x29 1 0#64 0#64 [] [stOk]) })) ∧
  (∀ (s : State) (m : Fin 64) (minor : Byte), (s.cx.die (moduleDie m)).shell = true → kget? s.cx.modules m.val = none →
    s.cx.img.cfg = none →
    let v := min (min (silicon 0).2 0xFF) minor.toNat
    exec (.moduleBringup m (BitVec.ofNat 8 (silicon 0).1) minor) s =
      .next { s with cx := (({ s.cx.emit (.advert m.val (silicon 0).1 (min (silicon 0).2 0xFF)) with
        modules := kput s.cx.modules m.val v } : Cx).ev 0x2006 3 0 (moduleDie m) m
          [0, m.val, (silicon 0).1, min (silicon 0).2 0xFF, (silicon 0).1, minor.toNat, v]) }) ∧
  (∀ (s : State) (m : Fin 64),
    exec (.ucieModuleFailure m false) s = .next { s with cx := { s.cx with modules := kdel s.cx.modules m.val } } ∧
    exec (.ucieModuleFailure m true) s = .next s)

/-- Suspicion and fencing (R17, R369, R370, R384). -/
def Obligations.TwinSuspected : Prop :=
  (∀ (s : State) (d : Side), s.cx.bridge = true → s.cx.coreUp d = true → (s.cx.die d).power = .run →
    exec (.bridgeHeartbeat d) s = .next { s with cx := s.cx.modDie d.twin fun k => { k with lastBeat := true } }) ∧
  (∀ (s : State) (d : Side), s.cx.canSuspect d = true →
    let c := fun (c : Cx) (cause : Nat) => (c.modDie d fun k => { k with
      twinSt := .fencing, suspectCause := cause, fenceLine := true, fenceAnswered := false }).ev 0x8002 10 2 d d.num [d.num, cause]
    exec (.fenceTwin d) s = .next { s with cx := c s.cx 4 } ∧
    exec (.resetTwin d) s = .next { s with cx := c s.cx 4 } ∧
    ((s.cx.die d.twin).coreAlive = false →
      exec (.coreAliveFall d) s = .next { s with cx := c s.cx (s.cx.die d.twin).suspectCause })) ∧
  (∀ (s : State) (d : Side), let c := s.cx.modDie d fun k => { k with lastBeat := false }
    c.canSuspect d = true → (s.cx.die d).power = .run →
    ((s.cx.die d.twin).coreAlive = false → exec (.heartbeatMiss d) s = .next { s with cx := c.suspect d 3 }) ∧
    ((s.cx.die d.twin).coreAlive = true → s.cx.bridge = true → (s.cx.die d.twin).power = .run → s.cx.coreUp d.twin = true →
      exec (.heartbeatMiss d) s = .next { s with cx := c.loseBridge d })) ∧
  (∀ (s : State) (d : Side), s.cx.coreUp d = true → (s.cx.die d).power = .run →
    exec (.watchdogExpiry d) s = .next { s with cx := ((s.cx.modDie d fun k => { k with
      coreAlive := false, suspectCause := 0
      core := k.core && (s.cx.coreUp d.twin && (s.cx.die d).twinSt != .fencing) }).ev 0x800A 10 3 d d.num [d.num, 0, 0, 0]) }) ∧
  (∀ (s : State) (d : Side), s.cx.coreUp d = true →
    let u := s.cx.drawOpen 0x800A
    let o := u.2.drawOpen 0x800A
    exec (.sramUncorrectable d) s = .next { s with cx := o.2.dropAlive d 1 [u.1.toNat, o.1.toNat] }) ∧
  (∀ (s : State) (d : Side), (s.cx.die d.twin).fenceLine = true → (s.cx.die d).aon = true → (s.cx.die d).shell = true →
    (s.cx.die d).fenced = false →
    exec (.fenceReceived d) s = .next { s with cx := ((s.cx.fenced d.twin s.cx.bridge).modDie d.twin fun k =>
      { k with fenceAnswered := true }) }) ∧
  (∀ (s : State) (d : Side), (s.cx.die d).fenceLine = true → s.cx.coreUp d = true →
    exec (.fenceAnswerTimeout d) s = .next { s with cx := s.cx.fenced d false })

/-- Owner changes, failover, rejoin and reset (R371 to R377, R380, R382, R384). That a stack whose standby link is down stays
with its owner is the model's choice (log entry 89). -/
def Obligations.TwinTakesOver : Prop :=
  (∀ (s : State) (stk : Fin 20) (quiet : Bool), let f := homeDie stk
    let d := f.twin
    (s.cx.die d).twinSt = .failover → s.cx.owner stk = f → (s.cx.stk stk).refusedOwner = false →
    ((s.cx.die d).fenceAnswered = true ∨ quiet = true → 2 ≤ (s.cx.stk stk).standby →
      exec (.ownerChangeRequest stk quiet) s = .next { s with cx := ((s.cx.modStk stk fun k => { k with
        owner := d, carried := true, onStandby := true }).ev 0x8004 8 1 d stk [stk, 0]) }) ∧
    (((s.cx.die d).fenceAnswered = false ∧ quiet = false) ∨ (s.cx.stk stk).standby < 2 → exec (.ownerChangeRequest stk quiet) s = .next { s with cx := ((s.cx.modStk stk fun k => { k with refusedOwner := true, cause := 2 }).ev 0x8004 8 1 d stk [stk, 1]) })) ∧
  (∀ (s : State) (d : Side), (s.cx.die d).twinSt = .failover → s.cx.coreUp d = true →
    ∃ t, exec (.failover d) s = .next t ∧ t.pending = s.pending ∧ (t.cx.die d).twinSt = .solo) ∧
  (∀ (s : State) (d : Side), (s.cx.die d).twinSt = .solo → s.cx.coreUp d = true →
    exec (.resetTwin d) s = .next { s with cx := s.cx.modDie d.twin fun k => { k with core := false, coreAlive := false } }) ∧
  (∀ (s : State) (d : Side), (s.cx.die d).twinSt = .solo ∨ (s.cx.die d).twinSt = .rejoining → s.cx.coreUp d = true →
    let failed := fun cause : Nat => (s.cx.modDie d fun k => { k with twinSt := .solo }).ev 0x8008 10 3 d d.num [d.twin.num, cause]
    exec (.rejoin d false true) s = .next { s with cx := failed 0 } ∧
    exec (.rejoin d true false) s = .next { s with cx := failed 1 } ∧
    ∃ t, exec (.rejoin d true true) s = .next t ∧ t.pending = s.pending ∧ t.cx.bridge = true ∧
      (t.cx.die d).twinSt = .paired ∧ (t.cx.die d.twin).twinSt = .paired ∧ (t.cx.die d.twin).core = true ∧
      (t.cx.die d.twin).fenced = false) ∧
  (∀ (s : State), s.cx.bridge = false → s.cx.coreUp .A = true → s.cx.coreUp .B = true →
    ∃ t, exec .bridgeRestored s = .next t ∧ t.pending = s.pending ∧ t.cx.bridge = true ∧
      t.cx.dieA.twinSt = .paired ∧ t.cx.dieB.twinSt = .paired ∧ t.cx.arb.held = [] ∧ t.cx.mem = s.cx.mem) ∧
  (∀ (s : State) (d : Side), s.cx.coreUp d = true → ∃ t, exec (.resetComplex d 0xC5#8) s = .next t ∧
    t.pending = s.pending ∧ t.cx.mem = s.cx.mem.filter (fun p => keptKey p.1) ∧ t.cx.streams = [] ∧ t.cx.img.st = .empty) ∧
  (∀ (s : State) (d : Side) (key : Byte), key ≠ 0xC5#8 →
    exec (.resetComplex d key) s = .next { s with cx := s.cx.hostAccess d 0 (hubBase d + 0xA84) 4 true })

/-- JOURNAL_RECORD and MIRROR_ACK (R18, R366, R368). -/
def Obligations.JournalWritten : Prop :=
  (∀ (s : State) (i : Nat) (e : JEntry), s.cx.enabled = true → s.cx.coreUp s.cx.master = true →
    s.cx.journal.entries.length < journalSize → s.cx.journal.queue.findIdx? s.cx.canReach = some i →
    s.cx.journal.queue[i]? = some e →
    let j := s.cx.journal
    let c := ({ s.cx with journal := { j with queue := j.queue.eraseIdx i, seq := j.seq + 1#64
                                              entries := j.entries ++ [{ e with seq := j.seq + 1#64, written := true }] } } : Cx)
    (c.alone = false → exec .journalRecord s = .next { s with cx := c }) ∧
    (c.alone = true → exec .journalRecord s = .next { s with cx := c.completeAlone })) ∧
  (∀ (s : State) (e : JEntry), s.cx.alone = false → (s.cx.journal.entries.find? fun e => !e.acked) = some e →
    exec .mirrorAck s = .next { s with cx := (({ s.cx with journal := { s.cx.journal with
      entries := s.cx.journal.entries.map fun x => if x.seq = e.seq then { x with acked := true } else x } } : Cx).takeRecord
        { e with acked := true }) }) ∧
  (∀ (s : State), s.cx.alone = true → exec .mirrorAck s = .next { s with cx := s.cx.completeAlone })

/-- Chapter 15: PWR_CTRL_GO, DEW_IDLE_EXPIRY, WAKE, THAW_DONE, GOVERNOR_SAMPLE, GOVERNOR_STEP, HUB_TEMPERATURE. The governor's
projection is the model's free value (log entry 37). -/
def Obligations.PowerStatesChange : Prop :=
  (∀ (s : State) (d : Side), (s.cx.die d).dewPending = true → exec (.pwrCtrlGo d) s = .next s) ∧
  (∀ (s : State) (d : Side), (s.cx.die d).aon = true → (s.cx.die d).dewPending = false →
    let t := bits (s.cx.reg (pwrBase d + 4)).toNat 1 0
    (t = 1 → (s.cx.die d).power = .run → s.cx.idle d = true → exec (.pwrCtrlGo d) s = .next { s with cx := (((s.cx.modDie d fun k => { k with dewPending := false }).modDie d fun k => { k with power := .dew }).ev 0x9001 10 0 d d.num
        [d.num, 3, 1, 5]) }) ∧
    (t = 1 → (s.cx.die d).power = .run → s.cx.idle d = false →
      exec (.pwrCtrlGo d) s = .next { s with cx := s.cx.modDie d fun k => { k with dewPending := true } }) ∧
    (t = 2 → exec (.pwrCtrlGo d) s = .next { s with cx := s.cx.hostAccess d 0 (pwrBase d + 4) 4 true })) ∧
  (∀ (s : State) (d : Side), (s.cx.die d).power = .run → s.cx.coreUp d = true → s.cx.idle d = true →
    (s.cx.die d).dewPending = true ∨ (s.cx.enabled = true ∧ s.cx.powerRec.dewIdleUs ≠ 0) →
    ∃ t, exec (.dewIdleExpiry d) s = .next t ∧ (t.cx.die d).power = .dew ∧ t.pending = s.pending ∧ t.cx.mem = s.cx.mem) ∧
  (∀ (s : State) (d : Side) (cause : BitVec 4), (s.cx.die d).power = .dew →
    exec (.wake d cause) s = .next { s with cx := (((s.cx.modDie d fun k => { k with wakeCause := cause.toNat }).modDie d fun k =>
      { k with power := .thaw }).ev 0x9001 10 0 d d.num [d.num, 1, 2, cause.toNat]) }) ∧
  (∀ (s : State) (d : Side) (us : W16), (s.cx.die d).power = .thaw → (s.cx.die d).core = true →
    exec (.thawDone d us) s = .next { s with cx := ((((s.cx.modDie d fun k => { k with thawUs := us.toNat }).modDie d fun k =>
      { k with power := .run }).ev 0x9001 10 0 d d.num [d.num, 2, 3, (s.cx.die d).wakeCause]).trainPcie d).resumeCheck }) ∧
  (∀ (s : State) (tile a b : Nat) (l : List Nat), l.length = 20 →
    ∃ t, exec (.governorSample tile a b l) s = .next t ∧ t.pending = s.pending ∧
      t.cx.gov.samples = (s.cx.gov.samples ++ [tile]).drop (s.cx.gov.samples.length + 1 - 100) ∧
      t.cx.gov.samples.length ≤ 100 ∧ t.cx.mem = s.cx.mem ∧ t.cx.regs = s.cx.regs) ∧
  (∀ (s : State), let p := s.cx.powerRec
    let x := Config.projected s.cx.gov.samples
    4 * (p.tileCap - 60) ≤ x → x ≤ 4 * (p.tileCap - 40) →
    ∃ t, exec .governorStep s = .next t ∧ t.pending = s.pending ∧ t.cx.gov.projected = x ∧
      t.cx.gov.admission = s.cx.gov.admission ∧ t.cx.dieA.hubSteps = s.cx.dieA.hubSteps) ∧
  (∀ (s : State) (d : Side) (t : Byte), 105 ≤ t.toInt → t.toInt < 113 → (s.cx.die d).thermal = false →
    exec (.hubTemperature d t) s = .next { s with cx := ((s.cx.modDie d fun k => { k with
      temp := t.toInt, thermal := true, thermal115 := false }).ev 0x9005 10 1 d d.num [d.num, t.toNat]) })

/-- RAIL_WARNING, RAIL_ABOVE_WARNING, DIP_HOLD_END, DEFERRED_COMMIT_RELEASE, RAIL_RESET, PG_IN_FALL (R396 to R398). -/
def Obligations.SuppliesDip : Prop :=
  (∀ (s : State) (d : Side) (rail mv : Nat), (s.cx.die d).aon = true → (s.cx.die d).hold = none → rail ≤ 10 →
    exec (.railWarning d rail mv) s = .next { s with cx := ((s.cx.bump (pwrBase d + 0x60) 31 d).modDie d fun k => { k with
      rails := kput k.rails rail mv, warn := nput k.warn rail, below := nput k.below rail, minRail := rail, minMv := mv
      hold := some { rail := rail, minMv := mv, crossings := 1, usBelow := 0 } }) }) ∧
  (∀ (s : State) (d : Side) (rail us : Nat), (s.cx.die d).below.contains rail = true →
    ∃ t, exec (.railAboveWarning d rail us) s = .next t ∧ t.pending = s.pending ∧
      (t.cx.die d).below = ndel (s.cx.die d).below rail ∧
      (t.cx.die d).hold = (s.cx.die d).hold.map (fun h => { h with usBelow := h.usBelow + us }) ∧
      t.cx.die d.twin = s.cx.die d.twin) ∧
  (∀ (s : State) (d : Side) (h : Hold), (s.cx.die d).hold = some h →
    ((s.cx.die d).below = [] → exec (.dipHoldEnd d) s = .next { s with cx := ((s.cx.modDie d fun k => { k with hold := none }).ev 0x9002 10 1 d d.num
        [d.num, h.rail, h.minMv, h.crossings, h.usBelow, 0]) }) ∧
    ((s.cx.die d).below ≠ [] → exec (.dipHoldEnd d) s = .next { s with cx := ((s.cx.modDie d fun k => { k with hold := none, deferred := true }).ev 0x9002 10 1 d d.num
        [d.num, h.rail, h.minMv, h.crossings, h.usBelow, s.cx.heldCommits d]) })) ∧
  (∀ (s : State) (d : Side), (s.cx.die d).below = [] → ∃ t, exec (.deferredCommitRelease d) s = .next t ∧
    t.pending = s.pending ∧ (t.cx.die d).deferred = false ∧ (t.cx.die d).hold = (s.cx.die d).hold) ∧
  (∀ (s : State) (d : Side) (rail mv : Nat), (s.cx.die d).aon = true →
    exec (.railReset d rail mv) s = .next { s with cx := (((s.cx.modDie d fun k => { k with rails := kput k.rails rail mv }).ev
      0x9003 10 3 d d.num [d.num, rail, mv]).railEffect d rail) }) ∧
  (∀ (s : State) (d : Side), (s.cx.die d).pwrReq = true → (s.cx.die d).power ≠ .frost →
    exec (.pgInFall d) s = .next { s with cx := ([5, 6, 7, 8, 9, 10].foldl
      (fun (c : Cx) r => c.railDown d r (kget 0 (c.die d).rails r)) (s.cx.modDie d fun k => { k with pgIn := false })) })

/-- AON_RST_RELEASE, PG_IN_RISE, STARTUP_DONE, AON_RST_ASSERT, TILE_RST and PERST (R400 to R402). -/
def Obligations.StartsAndResets : Prop :=
  (∀ (s : State) (straps : Straps), s.cx.dieA.aon = false → ∃ t, exec (.aonRstRelease .A straps) s = .next t ∧
    t.pending = s.pending ∧ t.cx.dieA.aon = true ∧ t.cx.dieA.power = .frost ∧ t.cx.dieA.pwrReq = true ∧
    t.cx.dieA.smbAddr = straps.smbAddr ∧ t.cx.dieA.imgAccept = straps.imgAccept ∧ t.cx.fab.uid = straps.uid ∧
    t.cx.dieB = s.cx.dieB) ∧
  (∀ (s : State) (straps : Straps), s.cx.dieB.aon = false → exec (.aonRstRelease .B straps) s =
    .next { s with cx := (s.cx.modDie .B fun k => { k with
      aon := true, power := .frost, smbAddr := straps.smbAddr, imgAccept := straps.imgAccept, pwrReq := true }) }) ∧
  (∀ (s : State) (d : Side), (s.cx.die d).aon = true → (s.cx.die d).pwrReq = true → (s.cx.die d).power = .frost →
    ∃ t, exec (.pgInRise d) s = .next t ∧ t.pending = s.pending ∧ (t.cx.die d).power = .thaw ∧ (t.cx.die d).pgIn = true) ∧
  (∀ (s : State) (d : Side) (t : Trained), (s.cx.die d).power = .thaw → (s.cx.die d).core = false →
    (s.cx.die d).fenced = false → ∃ u, exec (.startupDone d t) s = .next u ∧ u.pending = s.pending ∧
      (u.cx.die d).power = .run ∧ (u.cx.die d).core = true ∧ (u.cx.die d).shell = true) ∧
  (∀ (s : State) (d : Side), exec (.aonRstAssert d) s = .next { s with cx := s.cx.powerOnReset d }) ∧
  (∀ (s : State), (s.cx.dieB.aon = true → ∃ t, exec (.aonRstAssert .A) s = .next t ∧ t.cx.dieA = { suspectCause := 2 } ∧
    t.cx.bridge = false ∧ t.cx.dieB = s.cx.dieB)) ∧
  (∀ (s : State), ∃ t, exec .tileRst s = .next t ∧ t.pending = s.pending ∧ t.cx.streams = [] ∧ t.cx.img.st = .empty ∧
    t.cx.mem = s.cx.mem.filter (fun p => keptKey p.1) ∧ t.cx.ticks = s.cx.ticks) ∧
  (∀ (s : State) (d : Side), exec (.perst d false) s =
    .next { s with cx := (s.cx.resetPort d).modPort d fun q => { q with perst := false } }) ∧
  (∀ (s : State) (d : Side), (s.cx.die d).power = .run → s.cx.coreUp d = true →
    let c := s.cx.modPort d fun q => { q with perst := true }
    let o := c.drawOpen 0x4001
    ((s.cx.port d).up = false → exec (.perst d true) s = .next { s with cx := (o.2.modPort d fun q => { q with
      up := true, busMaster := true, lanes := [16, 8, 4, 2, 1].getD (bits o.1.toNat 7 0) 16
      rate := [64, 32, 16, 8, 5, 2].getD (bits o.1.toNat 15 8) 64 }) }) ∧
    ((s.cx.port d).up = true → exec (.perst d true) s = .next { s with cx := c }))

/-- R11: one increment of a counter whose largest value is 2^width − 1, the event it raises, and a run of increments. -/
def Obligations.CountersSaturate : Prop :=
  (∀ (k : Ctr) (width : Nat), k.val < 2 ^ width - 1 → k.add width 1 = ({ k with val := k.val + 1 }, false)) ∧
  (∀ (k : Ctr) (width : Nat), k.val = 2 ^ width - 1 → k.add width 1 = ({ k with ovf := true }, !k.ovf)) ∧
  (∀ (c : Cx) (off width : Nat) (d : Side), (c.ctr off).val < 2 ^ width - 1 →
    (c.bump off width d).arb = c.arb ∧ (c.bump off width d).out = c.out ∧
    (c.bump off width d).ctr off = { c.ctr off with val := (c.ctr off).val + 1 }) ∧
  (∀ (c : Cx) (off width : Nat) (d : Side), (c.ctr off).val = 2 ^ width - 1 → (c.ctr off).ovf = false →
    ∃ unit index fields, c.bump off width d =
      ({ c with ctrs := kput c.ctrs off { val := 2 ^ width - 1, ovf := true } } : Cx).ev 0xA001 unit 0 d index fields) ∧
  (∀ (c : Cx) (off width : Nat) (d : Side), (c.ctr off).val = 2 ^ width - 1 → (c.ctr off).ovf = true →
    (c.bump off width d).arb = c.arb ∧ (c.bump off width d).out = c.out ∧ (c.bump off width d).ctr off = c.ctr off) ∧
  (∀ (c : Cx) (off q width : Nat) (d : Side), q ≠ off → (c.bump off width d).ctr q = c.ctr q) ∧
  (∀ (width n : Nat), let r := (List.range n).foldl (fun (a : Ctr × Nat) _ =>
      ((a.1.add width 1).1, a.2 + b2n (a.1.add width 1).2)) (({} : Ctr), 0)
    r.1 = { val := min n (2 ^ width - 1), ovf := decide (2 ^ width - 1 < n) } ∧ r.2 = b2n (decide (2 ^ width - 1 < n)))

/-- R13: the numbers wrap, and the one comparison that the model uses for them follows the rule's pseudocode. -/
def Obligations.SequenceNumbersWrap : Prop :=
  (∀ (n : Nat), 0 < n → BitVec.ofNat n (2 ^ n - 1) + 1#n = 0#n) ∧
  (∀ (n : Nat) (a b : BitVec n), 0 < n → let d := (a.toNat + 2 ^ n - b.toNat) % 2 ^ n
    (d = 0 → seqCmp a b = .equal) ∧ (0 < d → d < 2 ^ (n - 1) → seqCmp a b = .newer) ∧
    (2 ^ (n - 1) ≤ d → seqCmp a b = .older) ∧
    (newer a b = true ↔ seqCmp a b = .newer) ∧ (newerEq a b = true ↔ seqCmp a b ≠ .older)) ∧
  (∀ (n : Nat) (a b : BitVec n), seqCmp a b = .equal ↔ a = b) ∧
  (∀ (n : Nat) (a b : BitVec n), seqCmp a b = .newer → seqCmp b a = .older)

/-- R97. -/
def Obligations.ApertureBase : Prop :=
  (∀ (s : State) (p : Side) (v : W32), s.cx.serves p = true → v ≠ 0#32 →
    exec (.apertureBaseWrite p false v) s = .next { s with cx := ((s.cx.modPort p fun q => { q with dropped := true }).ev 0x0001 11 1 p p.num [0, 0x18, 4, 1]) }) ∧
  (∀ (s : State) (p : Side), exec (.apertureBaseWrite p false 0#32) s = .next s) ∧
  (∀ (s t : State) (p q : Side) (high : Bool) (v : W32), exec (.apertureBaseWrite p high v) s = .next t →
    (s.cx.port q).aperture.toNat % 2 ^ 32 = 0 → (t.cx.port q).aperture.toNat % 2 ^ 32 = 0) ∧
  (∀ q, (State.reset.cx.port q).aperture = 0#64)

/-- Reads after writes (R63, R167); the canonical form is the model's own. -/
def Obligations.MemoryReadsBack : Prop :=
  (∀ (c : Cx) (k : Nat) (bs : List Byte) (j : Nat),
    (c.poke k bs).byte j = if k ≤ j ∧ j < k + bs.length then bs.getD (j - k) 0#8 else c.byte j) ∧
  (∀ (c : Cx) (k : Nat) (b : Byte) (j : Nat), c.cached k = true ∨ kget? c.dirty k = none →
    (c.hubPut k b).hubByte j = if j = k then b else c.hubByte j) ∧
  (∀ (c : Cx) (sel : Nat → Bool) (j : Nat), kwf c.dirty = true → (c.writeBack sel).hubByte j = c.hubByte j) ∧
  (∀ (c : Cx) (k : Nat) (bs : List Byte) (sel : Nat → Bool), Memory.wf c.mem = true →
    Memory.wf (c.poke k bs).mem = true ∧ Memory.wf (c.hubPoke k bs).mem = true ∧ Memory.wf (c.writeBack sel).mem = true)
end

