-- ==== Sys2Proof/Laws/Keyed.lean ====
section
/-!
SUPPORT. Laws of keyed lists: read after write, what a removal leaves, and that every operation keeps the keys
strictly rising.
-/
namespace Sys2Proof.Machine

variable {α : Type}

/-- The keys of a list that rises strictly all lie above a number. -/
def above (k : Nat) (m : List (Nat × α)) : Prop := ∀ p ∈ m, k < p.1

theorem kwf_cons (j : Nat) (v : α) (m : List (Nat × α)) : kwf ((j, v) :: m) = true ↔ above j m ∧ kwf m = true := by
  induction m generalizing j v with
  | nil => simp [kwf, above]
  | cons p r ih =>
    obtain ⟨k, w⟩ := p
    simp only [kwf, Bool.and_eq_true, decide_eq_true_eq]
    constructor
    · rintro ⟨h, hr⟩
      refine ⟨?_, hr⟩
      intro p hp
      rcases List.mem_cons.1 hp with rfl | hp
      · exact h
      · exact lt_trans h (((ih k w).1 hr).1 p hp)
    · rintro ⟨h, hr⟩
      exact ⟨h (k, w) (by simp), hr⟩

theorem kget?_above (k : Nat) (m : List (Nat × α)) (h : above k m) : kget? m k = none := by
  induction m with
  | nil => rfl
  | cons p r ih =>
    obtain ⟨j, v⟩ := p
    have hj : k < j := h (j, v) (by simp)
    simp [kget?, show j ≠ k by omega, ih (fun p hp => h p (List.mem_cons_of_mem _ hp))]

@[simp] theorem kget?_kput_self (m : List (Nat × α)) (k : Nat) (v : α) : kget? (kput m k v) k = some v := by
  induction m with
  | nil => simp [kput, kget?]
  | cons p r ih =>
    obtain ⟨j, w⟩ := p
    simp only [kput]
    split
    · simp [kget?]
    · split
      · simp [kget?]
      · rename_i h
        simp [kget?, Ne.symm h, ih]

theorem kget?_kput_ne (m : List (Nat × α)) {k j : Nat} (v : α) (h : j ≠ k) : kget? (kput m k v) j = kget? m j := by
  induction m with
  | nil => simp [kput, kget?, Ne.symm h]
  | cons p r ih =>
    obtain ⟨i, w⟩ := p
    simp only [kput]
    split
    · simp [kget?, Ne.symm h]
    · split
      · rename_i e
        subst e
        simp [kget?, Ne.symm h]
      · simp [kget?, ih]

@[simp] theorem kget_kput_self (d : α) (m : List (Nat × α)) (k : Nat) (v : α) : kget d (kput m k v) k = v := by
  simp [kget]

theorem kget_kput_ne (d : α) (m : List (Nat × α)) {k j : Nat} (v : α) (h : j ≠ k) :
    kget d (kput m k v) j = kget d m j := by
  simp [kget, kget?_kput_ne m v h]

theorem above_kput (m : List (Nat × α)) {i k : Nat} (v : α) (hi : i < k) (h : above i m) : above i (kput m k v) := by
  induction m with
  | nil => intro p hp; simp [kput] at hp; simpa [hp] using hi
  | cons p r ih =>
    obtain ⟨j, w⟩ := p
    have hj : i < j := h (j, w) (by simp)
    have hr : above i r := fun p hp => h p (List.mem_cons_of_mem _ hp)
    simp only [kput]
    split
    · intro p hp
      simp only [List.mem_cons] at hp
      rcases hp with rfl | rfl | hp
      · exact hi
      · exact hj
      · exact hr p hp
    · split
      · intro p hp
        simp only [List.mem_cons] at hp
        rcases hp with rfl | hp
        · exact hi
        · exact hr p hp
      · intro p hp
        simp only [List.mem_cons] at hp
        rcases hp with rfl | hp
        · exact hj
        · exact ih hr p hp

theorem kwf_kput (m : List (Nat × α)) (k : Nat) (v : α) (h : kwf m = true) : kwf (kput m k v) = true := by
  induction m with
  | nil => simp [kput, kwf]
  | cons p r ih =>
    obtain ⟨j, w⟩ := p
    have hh := (kwf_cons j w r).1 h
    simp only [kput]
    split
    · rename_i hk
      refine (kwf_cons _ _ _).2 ⟨?_, h⟩
      intro p hp
      rcases List.mem_cons.1 hp with rfl | hp
      · exact hk
      · exact lt_trans hk (hh.1 p hp)
    · split
      · rename_i e
        subst e
        exact (kwf_cons _ _ _).2 hh
      · exact (kwf_cons _ _ _).2 ⟨above_kput r v (by omega) hh.1, ih hh.2⟩

theorem kdel_sub (m : List (Nat × α)) (k : Nat) : ∀ p ∈ kdel m k, p ∈ m := by
  induction m with
  | nil => simp [kdel]
  | cons q r ih =>
    obtain ⟨j, w⟩ := q
    intro p hp
    simp only [kdel] at hp
    split at hp
    · exact List.mem_cons_of_mem _ (ih p hp)
    · rcases List.mem_cons.1 hp with rfl | hp
      · simp
      · exact List.mem_cons_of_mem _ (ih p hp)

theorem kwf_kdel (m : List (Nat × α)) (k : Nat) (h : kwf m = true) : kwf (kdel m k) = true := by
  induction m with
  | nil => rfl
  | cons p r ih =>
    obtain ⟨j, w⟩ := p
    have hh := (kwf_cons j w r).1 h
    simp only [kdel]
    split
    · exact ih hh.2
    · exact (kwf_cons _ _ _).2 ⟨fun p hp => hh.1 p (kdel_sub r k p hp), ih hh.2⟩

theorem kwf_filter (m : List (Nat × α)) (f : Nat × α → Bool) (h : kwf m = true) : kwf (m.filter f) = true := by
  induction m with
  | nil => rfl
  | cons p r ih =>
    obtain ⟨j, w⟩ := p
    have hh := (kwf_cons j w r).1 h
    simp only [List.filter]
    split
    · exact (kwf_cons _ _ _).2 ⟨fun p hp => hh.1 p (List.mem_of_mem_filter hp), ih hh.2⟩
    · exact ih hh.2

@[simp] theorem kget?_kdel_self (m : List (Nat × α)) (k : Nat) : kget? (kdel m k) k = none := by
  induction m with
  | nil => rfl
  | cons p r ih =>
    obtain ⟨j, w⟩ := p
    simp only [kdel]
    split
    · exact ih
    · rename_i e
      simp [kget?, e, ih]

theorem kget?_kdel_ne (m : List (Nat × α)) {k j : Nat} (h : j ≠ k) : kget? (kdel m k) j = kget? m j := by
  induction m with
  | nil => rfl
  | cons p r ih =>
    obtain ⟨i, w⟩ := p
    simp only [kdel]
    split
    · rename_i e
      subst e
      simp [kget?, Ne.symm h, ih]
    · simp [kget?, ih]

theorem kput_mem (m : List (Nat × α)) (k : Nat) (v : α) : ∀ p ∈ kput m k v, p = (k, v) ∨ p ∈ m := by
  induction m with
  | nil => simp [kput]
  | cons q r ih =>
    obtain ⟨j, w⟩ := q
    intro p hp
    simp only [kput] at hp
    split at hp
    · simpa using hp
    · split at hp
      · rcases List.mem_cons.1 hp with rfl | hp
        · exact .inl rfl
        · exact .inr (List.mem_cons_of_mem _ hp)
      · rcases List.mem_cons.1 hp with rfl | hp
        · exact .inr (by simp)
        · rcases ih p hp with h | h
          · exact .inl h
          · exact .inr (List.mem_cons_of_mem _ h)

variable [DecidableEq α]

/-- Read after write of a list with a default. -/
@[simp] theorem kget_kset_self (d : α) (m : List (Nat × α)) (k : Nat) (v : α) : kget d (kset d m k v) k = v := by
  unfold kset
  split
  · rename_i e
    simp [kget, kget?_kdel_self m k, e]
  · simp

/-- A write leaves every other key alone. -/
theorem kget_kset_ne (d : α) (m : List (Nat × α)) {k j : Nat} (v : α) (h : j ≠ k) :
    kget d (kset d m k v) j = kget d m j := by
  unfold kset
  split
  · simp [kget, kget?_kdel_ne m h]
  · exact kget_kput_ne d m v h

end Sys2Proof.Machine
end

