-- ==== Sys2Proof/Laws/State.lean ====
section
/-!
SUPPORT. One lemma per field per update of the complex: what an update leaves, and what it changes.
-/
namespace Sys2Proof.Machine

/-! ### modDie -/

@[simp] theorem Cx.modDie_mem (c : Cx) (d : Side) (f : Die → Die) : (c.modDie d f).mem = c.mem := by cases d <;> rfl
@[simp] theorem Cx.modDie_dirty (c : Cx) (d : Side) (f : Die → Die) : (c.modDie d f).dirty = c.dirty := by cases d <;> rfl
@[simp] theorem Cx.modDie_poison (c : Cx) (d : Side) (f : Die → Die) : (c.modDie d f).poison = c.poison := by cases d <;> rfl
@[simp] theorem Cx.modDie_eccUnknown (c : Cx) (d : Side) (f : Die → Die) : (c.modDie d f).eccUnknown = c.eccUnknown := by cases d <;> rfl
@[simp] theorem Cx.modDie_regs (c : Cx) (d : Side) (f : Die → Die) : (c.modDie d f).regs = c.regs := by cases d <;> rfl
@[simp] theorem Cx.modDie_ctrs (c : Cx) (d : Side) (f : Die → Die) : (c.modDie d f).ctrs = c.ctrs := by cases d <;> rfl
@[simp] theorem Cx.modDie_portA (c : Cx) (d : Side) (f : Die → Die) : (c.modDie d f).portA = c.portA := by cases d <;> rfl
@[simp] theorem Cx.modDie_portB (c : Cx) (d : Side) (f : Die → Die) : (c.modDie d f).portB = c.portB := by cases d <;> rfl
@[simp] theorem Cx.modDie_bridge (c : Cx) (d : Side) (f : Die → Die) : (c.modDie d f).bridge = c.bridge := by cases d <;> rfl
@[simp] theorem Cx.modDie_modules (c : Cx) (d : Side) (f : Die → Die) : (c.modDie d f).modules = c.modules := by cases d <;> rfl
@[simp] theorem Cx.modDie_master (c : Cx) (d : Side) (f : Die → Die) : (c.modDie d f).master = c.master := by cases d <;> rfl
@[simp] theorem Cx.modDie_img (c : Cx) (d : Side) (f : Die → Die) : (c.modDie d f).img = c.img := by cases d <;> rfl
@[simp] theorem Cx.modDie_arb (c : Cx) (d : Side) (f : Die → Die) : (c.modDie d f).arb = c.arb := by cases d <;> rfl
@[simp] theorem Cx.modDie_wins (c : Cx) (d : Side) (f : Die → Die) : (c.modDie d f).wins = c.wins := by cases d <;> rfl
@[simp] theorem Cx.modDie_verdicts (c : Cx) (d : Side) (f : Die → Die) : (c.modDie d f).verdicts = c.verdicts := by cases d <;> rfl
@[simp] theorem Cx.modDie_abandoned (c : Cx) (d : Side) (f : Die → Die) : (c.modDie d f).abandoned = c.abandoned := by cases d <;> rfl
@[simp] theorem Cx.modDie_binding (c : Cx) (d : Side) (f : Die → Die) : (c.modDie d f).binding = c.binding := by cases d <;> rfl
@[simp] theorem Cx.modDie_charge (c : Cx) (d : Side) (f : Die → Die) : (c.modDie d f).charge = c.charge := by cases d <;> rfl
@[simp] theorem Cx.modDie_quotaSaid (c : Cx) (d : Side) (f : Die → Die) : (c.modDie d f).quotaSaid = c.quotaSaid := by cases d <;> rfl
@[simp] theorem Cx.modDie_keys (c : Cx) (d : Side) (f : Die → Die) : (c.modDie d f).keys = c.keys := by cases d <;> rfl
@[simp] theorem Cx.modDie_keyWords (c : Cx) (d : Side) (f : Die → Die) : (c.modDie d f).keyWords = c.keyWords := by cases d <;> rfl
@[simp] theorem Cx.modDie_streams (c : Cx) (d : Side) (f : Die → Die) : (c.modDie d f).streams = c.streams := by cases d <;> rfl
@[simp] theorem Cx.modDie_syncs (c : Cx) (d : Side) (f : Die → Die) : (c.modDie d f).syncs = c.syncs := by cases d <;> rfl
@[simp] theorem Cx.modDie_queues (c : Cx) (d : Side) (f : Die → Die) : (c.modDie d f).queues = c.queues := by cases d <;> rfl
@[simp] theorem Cx.modDie_turns (c : Cx) (d : Side) (f : Die → Die) : (c.modDie d f).turns = c.turns := by cases d <;> rfl
@[simp] theorem Cx.modDie_holds (c : Cx) (d : Side) (f : Die → Die) : (c.modDie d f).holds = c.holds := by cases d <;> rfl
@[simp] theorem Cx.modDie_acc (c : Cx) (d : Side) (f : Die → Die) : (c.modDie d f).acc = c.acc := by cases d <;> rfl
@[simp] theorem Cx.modDie_arrivals (c : Cx) (d : Side) (f : Die → Die) : (c.modDie d f).arrivals = c.arrivals := by cases d <;> rfl
@[simp] theorem Cx.modDie_seqs (c : Cx) (d : Side) (f : Die → Die) : (c.modDie d f).seqs = c.seqs := by cases d <;> rfl
@[simp] theorem Cx.modDie_gradHeld (c : Cx) (d : Side) (f : Die → Die) : (c.modDie d f).gradHeld = c.gradHeld := by cases d <;> rfl
@[simp] theorem Cx.modDie_gatherHeld (c : Cx) (d : Side) (f : Die → Die) : (c.modDie d f).gatherHeld = c.gatherHeld := by cases d <;> rfl
@[simp] theorem Cx.modDie_finals (c : Cx) (d : Side) (f : Die → Die) : (c.modDie d f).finals = c.finals := by cases d <;> rfl
@[simp] theorem Cx.modDie_stks (c : Cx) (d : Side) (f : Die → Die) : (c.modDie d f).stks = c.stks := by cases d <;> rfl
@[simp] theorem Cx.modDie_newts (c : Cx) (d : Side) (f : Die → Die) : (c.modDie d f).newts = c.newts := by cases d <;> rfl
@[simp] theorem Cx.modDie_journal (c : Cx) (d : Side) (f : Die → Die) : (c.modDie d f).journal = c.journal := by cases d <;> rfl
@[simp] theorem Cx.modDie_ports (c : Cx) (d : Side) (f : Die → Die) : (c.modDie d f).ports = c.ports := by cases d <;> rfl
@[simp] theorem Cx.modDie_fab (c : Cx) (d : Side) (f : Die → Die) : (c.modDie d f).fab = c.fab := by cases d <;> rfl
@[simp] theorem Cx.modDie_gov (c : Cx) (d : Side) (f : Die → Die) : (c.modDie d f).gov = c.gov := by cases d <;> rfl
@[simp] theorem Cx.modDie_ticks (c : Cx) (d : Side) (f : Die → Die) : (c.modDie d f).ticks = c.ticks := by cases d <;> rfl
@[simp] theorem Cx.modDie_attCtx (c : Cx) (d : Side) (f : Die → Die) : (c.modDie d f).attCtx = c.attCtx := by cases d <;> rfl
@[simp] theorem Cx.modDie_free (c : Cx) (d : Side) (f : Die → Die) : (c.modDie d f).free = c.free := by cases d <;> rfl
@[simp] theorem Cx.modDie_out (c : Cx) (d : Side) (f : Die → Die) : (c.modDie d f).out = c.out := by cases d <;> rfl

/-! ### modPort -/

@[simp] theorem Cx.modPort_mem (c : Cx) (d : Side) (f : Port → Port) : (c.modPort d f).mem = c.mem := by cases d <;> rfl
@[simp] theorem Cx.modPort_dirty (c : Cx) (d : Side) (f : Port → Port) : (c.modPort d f).dirty = c.dirty := by cases d <;> rfl
@[simp] theorem Cx.modPort_poison (c : Cx) (d : Side) (f : Port → Port) : (c.modPort d f).poison = c.poison := by cases d <;> rfl
@[simp] theorem Cx.modPort_eccUnknown (c : Cx) (d : Side) (f : Port → Port) : (c.modPort d f).eccUnknown = c.eccUnknown := by cases d <;> rfl
@[simp] theorem Cx.modPort_regs (c : Cx) (d : Side) (f : Port → Port) : (c.modPort d f).regs = c.regs := by cases d <;> rfl
@[simp] theorem Cx.modPort_ctrs (c : Cx) (d : Side) (f : Port → Port) : (c.modPort d f).ctrs = c.ctrs := by cases d <;> rfl
@[simp] theorem Cx.modPort_dieA (c : Cx) (d : Side) (f : Port → Port) : (c.modPort d f).dieA = c.dieA := by cases d <;> rfl
@[simp] theorem Cx.modPort_dieB (c : Cx) (d : Side) (f : Port → Port) : (c.modPort d f).dieB = c.dieB := by cases d <;> rfl
@[simp] theorem Cx.modPort_bridge (c : Cx) (d : Side) (f : Port → Port) : (c.modPort d f).bridge = c.bridge := by cases d <;> rfl
@[simp] theorem Cx.modPort_modules (c : Cx) (d : Side) (f : Port → Port) : (c.modPort d f).modules = c.modules := by cases d <;> rfl
@[simp] theorem Cx.modPort_master (c : Cx) (d : Side) (f : Port → Port) : (c.modPort d f).master = c.master := by cases d <;> rfl
@[simp] theorem Cx.modPort_img (c : Cx) (d : Side) (f : Port → Port) : (c.modPort d f).img = c.img := by cases d <;> rfl
@[simp] theorem Cx.modPort_arb (c : Cx) (d : Side) (f : Port → Port) : (c.modPort d f).arb = c.arb := by cases d <;> rfl
@[simp] theorem Cx.modPort_wins (c : Cx) (d : Side) (f : Port → Port) : (c.modPort d f).wins = c.wins := by cases d <;> rfl
@[simp] theorem Cx.modPort_verdicts (c : Cx) (d : Side) (f : Port → Port) : (c.modPort d f).verdicts = c.verdicts := by cases d <;> rfl
@[simp] theorem Cx.modPort_abandoned (c : Cx) (d : Side) (f : Port → Port) : (c.modPort d f).abandoned = c.abandoned := by cases d <;> rfl
@[simp] theorem Cx.modPort_binding (c : Cx) (d : Side) (f : Port → Port) : (c.modPort d f).binding = c.binding := by cases d <;> rfl
@[simp] theorem Cx.modPort_charge (c : Cx) (d : Side) (f : Port → Port) : (c.modPort d f).charge = c.charge := by cases d <;> rfl
@[simp] theorem Cx.modPort_quotaSaid (c : Cx) (d : Side) (f : Port → Port) : (c.modPort d f).quotaSaid = c.quotaSaid := by cases d <;> rfl
@[simp] theorem Cx.modPort_keys (c : Cx) (d : Side) (f : Port → Port) : (c.modPort d f).keys = c.keys := by cases d <;> rfl
@[simp] theorem Cx.modPort_keyWords (c : Cx) (d : Side) (f : Port → Port) : (c.modPort d f).keyWords = c.keyWords := by cases d <;> rfl
@[simp] theorem Cx.modPort_streams (c : Cx) (d : Side) (f : Port → Port) : (c.modPort d f).streams = c.streams := by cases d <;> rfl
@[simp] theorem Cx.modPort_syncs (c : Cx) (d : Side) (f : Port → Port) : (c.modPort d f).syncs = c.syncs := by cases d <;> rfl
@[simp] theorem Cx.modPort_queues (c : Cx) (d : Side) (f : Port → Port) : (c.modPort d f).queues = c.queues := by cases d <;> rfl
@[simp] theorem Cx.modPort_turns (c : Cx) (d : Side) (f : Port → Port) : (c.modPort d f).turns = c.turns := by cases d <;> rfl
@[simp] theorem Cx.modPort_holds (c : Cx) (d : Side) (f : Port → Port) : (c.modPort d f).holds = c.holds := by cases d <;> rfl
@[simp] theorem Cx.modPort_acc (c : Cx) (d : Side) (f : Port → Port) : (c.modPort d f).acc = c.acc := by cases d <;> rfl
@[simp] theorem Cx.modPort_arrivals (c : Cx) (d : Side) (f : Port → Port) : (c.modPort d f).arrivals = c.arrivals := by cases d <;> rfl
@[simp] theorem Cx.modPort_seqs (c : Cx) (d : Side) (f : Port → Port) : (c.modPort d f).seqs = c.seqs := by cases d <;> rfl
@[simp] theorem Cx.modPort_gradHeld (c : Cx) (d : Side) (f : Port → Port) : (c.modPort d f).gradHeld = c.gradHeld := by cases d <;> rfl
@[simp] theorem Cx.modPort_gatherHeld (c : Cx) (d : Side) (f : Port → Port) : (c.modPort d f).gatherHeld = c.gatherHeld := by cases d <;> rfl
@[simp] theorem Cx.modPort_finals (c : Cx) (d : Side) (f : Port → Port) : (c.modPort d f).finals = c.finals := by cases d <;> rfl
@[simp] theorem Cx.modPort_stks (c : Cx) (d : Side) (f : Port → Port) : (c.modPort d f).stks = c.stks := by cases d <;> rfl
@[simp] theorem Cx.modPort_newts (c : Cx) (d : Side) (f : Port → Port) : (c.modPort d f).newts = c.newts := by cases d <;> rfl
@[simp] theorem Cx.modPort_journal (c : Cx) (d : Side) (f : Port → Port) : (c.modPort d f).journal = c.journal := by cases d <;> rfl
@[simp] theorem Cx.modPort_ports (c : Cx) (d : Side) (f : Port → Port) : (c.modPort d f).ports = c.ports := by cases d <;> rfl
@[simp] theorem Cx.modPort_fab (c : Cx) (d : Side) (f : Port → Port) : (c.modPort d f).fab = c.fab := by cases d <;> rfl
@[simp] theorem Cx.modPort_gov (c : Cx) (d : Side) (f : Port → Port) : (c.modPort d f).gov = c.gov := by cases d <;> rfl
@[simp] theorem Cx.modPort_ticks (c : Cx) (d : Side) (f : Port → Port) : (c.modPort d f).ticks = c.ticks := by cases d <;> rfl
@[simp] theorem Cx.modPort_attCtx (c : Cx) (d : Side) (f : Port → Port) : (c.modPort d f).attCtx = c.attCtx := by cases d <;> rfl
@[simp] theorem Cx.modPort_free (c : Cx) (d : Side) (f : Port → Port) : (c.modPort d f).free = c.free := by cases d <;> rfl
@[simp] theorem Cx.modPort_out (c : Cx) (d : Side) (f : Port → Port) : (c.modPort d f).out = c.out := by cases d <;> rfl

/-! ### modStk -/

@[simp] theorem Cx.modStk_mem (c : Cx) (s : Nat) (f : Stack → Stack) : (c.modStk s f).mem = c.mem := rfl
@[simp] theorem Cx.modStk_dirty (c : Cx) (s : Nat) (f : Stack → Stack) : (c.modStk s f).dirty = c.dirty := rfl
@[simp] theorem Cx.modStk_poison (c : Cx) (s : Nat) (f : Stack → Stack) : (c.modStk s f).poison = c.poison := rfl
@[simp] theorem Cx.modStk_eccUnknown (c : Cx) (s : Nat) (f : Stack → Stack) : (c.modStk s f).eccUnknown = c.eccUnknown := rfl
@[simp] theorem Cx.modStk_regs (c : Cx) (s : Nat) (f : Stack → Stack) : (c.modStk s f).regs = c.regs := rfl
@[simp] theorem Cx.modStk_ctrs (c : Cx) (s : Nat) (f : Stack → Stack) : (c.modStk s f).ctrs = c.ctrs := rfl
@[simp] theorem Cx.modStk_portA (c : Cx) (s : Nat) (f : Stack → Stack) : (c.modStk s f).portA = c.portA := rfl
@[simp] theorem Cx.modStk_portB (c : Cx) (s : Nat) (f : Stack → Stack) : (c.modStk s f).portB = c.portB := rfl
@[simp] theorem Cx.modStk_dieA (c : Cx) (s : Nat) (f : Stack → Stack) : (c.modStk s f).dieA = c.dieA := rfl
@[simp] theorem Cx.modStk_dieB (c : Cx) (s : Nat) (f : Stack → Stack) : (c.modStk s f).dieB = c.dieB := rfl
@[simp] theorem Cx.modStk_bridge (c : Cx) (s : Nat) (f : Stack → Stack) : (c.modStk s f).bridge = c.bridge := rfl
@[simp] theorem Cx.modStk_modules (c : Cx) (s : Nat) (f : Stack → Stack) : (c.modStk s f).modules = c.modules := rfl
@[simp] theorem Cx.modStk_master (c : Cx) (s : Nat) (f : Stack → Stack) : (c.modStk s f).master = c.master := rfl
@[simp] theorem Cx.modStk_img (c : Cx) (s : Nat) (f : Stack → Stack) : (c.modStk s f).img = c.img := rfl
@[simp] theorem Cx.modStk_arb (c : Cx) (s : Nat) (f : Stack → Stack) : (c.modStk s f).arb = c.arb := rfl
@[simp] theorem Cx.modStk_wins (c : Cx) (s : Nat) (f : Stack → Stack) : (c.modStk s f).wins = c.wins := rfl
@[simp] theorem Cx.modStk_verdicts (c : Cx) (s : Nat) (f : Stack → Stack) : (c.modStk s f).verdicts = c.verdicts := rfl
@[simp] theorem Cx.modStk_abandoned (c : Cx) (s : Nat) (f : Stack → Stack) : (c.modStk s f).abandoned = c.abandoned := rfl
@[simp] theorem Cx.modStk_binding (c : Cx) (s : Nat) (f : Stack → Stack) : (c.modStk s f).binding = c.binding := rfl
@[simp] theorem Cx.modStk_charge (c : Cx) (s : Nat) (f : Stack → Stack) : (c.modStk s f).charge = c.charge := rfl
@[simp] theorem Cx.modStk_quotaSaid (c : Cx) (s : Nat) (f : Stack → Stack) : (c.modStk s f).quotaSaid = c.quotaSaid := rfl
@[simp] theorem Cx.modStk_keys (c : Cx) (s : Nat) (f : Stack → Stack) : (c.modStk s f).keys = c.keys := rfl
@[simp] theorem Cx.modStk_keyWords (c : Cx) (s : Nat) (f : Stack → Stack) : (c.modStk s f).keyWords = c.keyWords := rfl
@[simp] theorem Cx.modStk_streams (c : Cx) (s : Nat) (f : Stack → Stack) : (c.modStk s f).streams = c.streams := rfl
@[simp] theorem Cx.modStk_syncs (c : Cx) (s : Nat) (f : Stack → Stack) : (c.modStk s f).syncs = c.syncs := rfl
@[simp] theorem Cx.modStk_queues (c : Cx) (s : Nat) (f : Stack → Stack) : (c.modStk s f).queues = c.queues := rfl
@[simp] theorem Cx.modStk_turns (c : Cx) (s : Nat) (f : Stack → Stack) : (c.modStk s f).turns = c.turns := rfl
@[simp] theorem Cx.modStk_holds (c : Cx) (s : Nat) (f : Stack → Stack) : (c.modStk s f).holds = c.holds := rfl
@[simp] theorem Cx.modStk_acc (c : Cx) (s : Nat) (f : Stack → Stack) : (c.modStk s f).acc = c.acc := rfl
@[simp] theorem Cx.modStk_arrivals (c : Cx) (s : Nat) (f : Stack → Stack) : (c.modStk s f).arrivals = c.arrivals := rfl
@[simp] theorem Cx.modStk_seqs (c : Cx) (s : Nat) (f : Stack → Stack) : (c.modStk s f).seqs = c.seqs := rfl
@[simp] theorem Cx.modStk_gradHeld (c : Cx) (s : Nat) (f : Stack → Stack) : (c.modStk s f).gradHeld = c.gradHeld := rfl
@[simp] theorem Cx.modStk_gatherHeld (c : Cx) (s : Nat) (f : Stack → Stack) : (c.modStk s f).gatherHeld = c.gatherHeld := rfl
@[simp] theorem Cx.modStk_finals (c : Cx) (s : Nat) (f : Stack → Stack) : (c.modStk s f).finals = c.finals := rfl
@[simp] theorem Cx.modStk_newts (c : Cx) (s : Nat) (f : Stack → Stack) : (c.modStk s f).newts = c.newts := rfl
@[simp] theorem Cx.modStk_journal (c : Cx) (s : Nat) (f : Stack → Stack) : (c.modStk s f).journal = c.journal := rfl
@[simp] theorem Cx.modStk_ports (c : Cx) (s : Nat) (f : Stack → Stack) : (c.modStk s f).ports = c.ports := rfl
@[simp] theorem Cx.modStk_fab (c : Cx) (s : Nat) (f : Stack → Stack) : (c.modStk s f).fab = c.fab := rfl
@[simp] theorem Cx.modStk_gov (c : Cx) (s : Nat) (f : Stack → Stack) : (c.modStk s f).gov = c.gov := rfl
@[simp] theorem Cx.modStk_ticks (c : Cx) (s : Nat) (f : Stack → Stack) : (c.modStk s f).ticks = c.ticks := rfl
@[simp] theorem Cx.modStk_attCtx (c : Cx) (s : Nat) (f : Stack → Stack) : (c.modStk s f).attCtx = c.attCtx := rfl
@[simp] theorem Cx.modStk_free (c : Cx) (s : Nat) (f : Stack → Stack) : (c.modStk s f).free = c.free := rfl
@[simp] theorem Cx.modStk_out (c : Cx) (s : Nat) (f : Stack → Stack) : (c.modStk s f).out = c.out := rfl

/-! ### modNewt -/

@[simp] theorem Cx.modNewt_mem (c : Cx) (g : Nat) (f : Newt → Newt) : (c.modNewt g f).mem = c.mem := rfl
@[simp] theorem Cx.modNewt_dirty (c : Cx) (g : Nat) (f : Newt → Newt) : (c.modNewt g f).dirty = c.dirty := rfl
@[simp] theorem Cx.modNewt_poison (c : Cx) (g : Nat) (f : Newt → Newt) : (c.modNewt g f).poison = c.poison := rfl
@[simp] theorem Cx.modNewt_eccUnknown (c : Cx) (g : Nat) (f : Newt → Newt) : (c.modNewt g f).eccUnknown = c.eccUnknown := rfl
@[simp] theorem Cx.modNewt_regs (c : Cx) (g : Nat) (f : Newt → Newt) : (c.modNewt g f).regs = c.regs := rfl
@[simp] theorem Cx.modNewt_ctrs (c : Cx) (g : Nat) (f : Newt → Newt) : (c.modNewt g f).ctrs = c.ctrs := rfl
@[simp] theorem Cx.modNewt_portA (c : Cx) (g : Nat) (f : Newt → Newt) : (c.modNewt g f).portA = c.portA := rfl
@[simp] theorem Cx.modNewt_portB (c : Cx) (g : Nat) (f : Newt → Newt) : (c.modNewt g f).portB = c.portB := rfl
@[simp] theorem Cx.modNewt_dieA (c : Cx) (g : Nat) (f : Newt → Newt) : (c.modNewt g f).dieA = c.dieA := rfl
@[simp] theorem Cx.modNewt_dieB (c : Cx) (g : Nat) (f : Newt → Newt) : (c.modNewt g f).dieB = c.dieB := rfl
@[simp] theorem Cx.modNewt_bridge (c : Cx) (g : Nat) (f : Newt → Newt) : (c.modNewt g f).bridge = c.bridge := rfl
@[simp] theorem Cx.modNewt_modules (c : Cx) (g : Nat) (f : Newt → Newt) : (c.modNewt g f).modules = c.modules := rfl
@[simp] theorem Cx.modNewt_master (c : Cx) (g : Nat) (f : Newt → Newt) : (c.modNewt g f).master = c.master := rfl
@[simp] theorem Cx.modNewt_img (c : Cx) (g : Nat) (f : Newt → Newt) : (c.modNewt g f).img = c.img := rfl
@[simp] theorem Cx.modNewt_arb (c : Cx) (g : Nat) (f : Newt → Newt) : (c.modNewt g f).arb = c.arb := rfl
@[simp] theorem Cx.modNewt_wins (c : Cx) (g : Nat) (f : Newt → Newt) : (c.modNewt g f).wins = c.wins := rfl
@[simp] theorem Cx.modNewt_verdicts (c : Cx) (g : Nat) (f : Newt → Newt) : (c.modNewt g f).verdicts = c.verdicts := rfl
@[simp] theorem Cx.modNewt_abandoned (c : Cx) (g : Nat) (f : Newt → Newt) : (c.modNewt g f).abandoned = c.abandoned := rfl
@[simp] theorem Cx.modNewt_binding (c : Cx) (g : Nat) (f : Newt → Newt) : (c.modNewt g f).binding = c.binding := rfl
@[simp] theorem Cx.modNewt_charge (c : Cx) (g : Nat) (f : Newt → Newt) : (c.modNewt g f).charge = c.charge := rfl
@[simp] theorem Cx.modNewt_quotaSaid (c : Cx) (g : Nat) (f : Newt → Newt) : (c.modNewt g f).quotaSaid = c.quotaSaid := rfl
@[simp] theorem Cx.modNewt_keys (c : Cx) (g : Nat) (f : Newt → Newt) : (c.modNewt g f).keys = c.keys := rfl
@[simp] theorem Cx.modNewt_keyWords (c : Cx) (g : Nat) (f : Newt → Newt) : (c.modNewt g f).keyWords = c.keyWords := rfl
@[simp] theorem Cx.modNewt_streams (c : Cx) (g : Nat) (f : Newt → Newt) : (c.modNewt g f).streams = c.streams := rfl
@[simp] theorem Cx.modNewt_syncs (c : Cx) (g : Nat) (f : Newt → Newt) : (c.modNewt g f).syncs = c.syncs := rfl
@[simp] theorem Cx.modNewt_queues (c : Cx) (g : Nat) (f : Newt → Newt) : (c.modNewt g f).queues = c.queues := rfl
@[simp] theorem Cx.modNewt_turns (c : Cx) (g : Nat) (f : Newt → Newt) : (c.modNewt g f).turns = c.turns := rfl
@[simp] theorem Cx.modNewt_holds (c : Cx) (g : Nat) (f : Newt → Newt) : (c.modNewt g f).holds = c.holds := rfl
@[simp] theorem Cx.modNewt_acc (c : Cx) (g : Nat) (f : Newt → Newt) : (c.modNewt g f).acc = c.acc := rfl
@[simp] theorem Cx.modNewt_arrivals (c : Cx) (g : Nat) (f : Newt → Newt) : (c.modNewt g f).arrivals = c.arrivals := rfl
@[simp] theorem Cx.modNewt_seqs (c : Cx) (g : Nat) (f : Newt → Newt) : (c.modNewt g f).seqs = c.seqs := rfl
@[simp] theorem Cx.modNewt_gradHeld (c : Cx) (g : Nat) (f : Newt → Newt) : (c.modNewt g f).gradHeld = c.gradHeld := rfl
@[simp] theorem Cx.modNewt_gatherHeld (c : Cx) (g : Nat) (f : Newt → Newt) : (c.modNewt g f).gatherHeld = c.gatherHeld := rfl
@[simp] theorem Cx.modNewt_finals (c : Cx) (g : Nat) (f : Newt → Newt) : (c.modNewt g f).finals = c.finals := rfl
@[simp] theorem Cx.modNewt_stks (c : Cx) (g : Nat) (f : Newt → Newt) : (c.modNewt g f).stks = c.stks := rfl
@[simp] theorem Cx.modNewt_journal (c : Cx) (g : Nat) (f : Newt → Newt) : (c.modNewt g f).journal = c.journal := rfl
@[simp] theorem Cx.modNewt_ports (c : Cx) (g : Nat) (f : Newt → Newt) : (c.modNewt g f).ports = c.ports := rfl
@[simp] theorem Cx.modNewt_fab (c : Cx) (g : Nat) (f : Newt → Newt) : (c.modNewt g f).fab = c.fab := rfl
@[simp] theorem Cx.modNewt_gov (c : Cx) (g : Nat) (f : Newt → Newt) : (c.modNewt g f).gov = c.gov := rfl
@[simp] theorem Cx.modNewt_ticks (c : Cx) (g : Nat) (f : Newt → Newt) : (c.modNewt g f).ticks = c.ticks := rfl
@[simp] theorem Cx.modNewt_attCtx (c : Cx) (g : Nat) (f : Newt → Newt) : (c.modNewt g f).attCtx = c.attCtx := rfl
@[simp] theorem Cx.modNewt_free (c : Cx) (g : Nat) (f : Newt → Newt) : (c.modNewt g f).free = c.free := rfl
@[simp] theorem Cx.modNewt_out (c : Cx) (g : Nat) (f : Newt → Newt) : (c.modNewt g f).out = c.out := rfl

/-! ### modStrm -/

@[simp] theorem Cx.modStrm_mem (c : Cx) (n : Nat) (f : Stream → Stream) : (c.modStrm n f).mem = c.mem := rfl
@[simp] theorem Cx.modStrm_dirty (c : Cx) (n : Nat) (f : Stream → Stream) : (c.modStrm n f).dirty = c.dirty := rfl
@[simp] theorem Cx.modStrm_poison (c : Cx) (n : Nat) (f : Stream → Stream) : (c.modStrm n f).poison = c.poison := rfl
@[simp] theorem Cx.modStrm_eccUnknown (c : Cx) (n : Nat) (f : Stream → Stream) : (c.modStrm n f).eccUnknown = c.eccUnknown := rfl
@[simp] theorem Cx.modStrm_regs (c : Cx) (n : Nat) (f : Stream → Stream) : (c.modStrm n f).regs = c.regs := rfl
@[simp] theorem Cx.modStrm_ctrs (c : Cx) (n : Nat) (f : Stream → Stream) : (c.modStrm n f).ctrs = c.ctrs := rfl
@[simp] theorem Cx.modStrm_portA (c : Cx) (n : Nat) (f : Stream → Stream) : (c.modStrm n f).portA = c.portA := rfl
@[simp] theorem Cx.modStrm_portB (c : Cx) (n : Nat) (f : Stream → Stream) : (c.modStrm n f).portB = c.portB := rfl
@[simp] theorem Cx.modStrm_dieA (c : Cx) (n : Nat) (f : Stream → Stream) : (c.modStrm n f).dieA = c.dieA := rfl
@[simp] theorem Cx.modStrm_dieB (c : Cx) (n : Nat) (f : Stream → Stream) : (c.modStrm n f).dieB = c.dieB := rfl
@[simp] theorem Cx.modStrm_bridge (c : Cx) (n : Nat) (f : Stream → Stream) : (c.modStrm n f).bridge = c.bridge := rfl
@[simp] theorem Cx.modStrm_modules (c : Cx) (n : Nat) (f : Stream → Stream) : (c.modStrm n f).modules = c.modules := rfl
@[simp] theorem Cx.modStrm_master (c : Cx) (n : Nat) (f : Stream → Stream) : (c.modStrm n f).master = c.master := rfl
@[simp] theorem Cx.modStrm_img (c : Cx) (n : Nat) (f : Stream → Stream) : (c.modStrm n f).img = c.img := rfl
@[simp] theorem Cx.modStrm_arb (c : Cx) (n : Nat) (f : Stream → Stream) : (c.modStrm n f).arb = c.arb := rfl
@[simp] theorem Cx.modStrm_wins (c : Cx) (n : Nat) (f : Stream → Stream) : (c.modStrm n f).wins = c.wins := rfl
@[simp] theorem Cx.modStrm_verdicts (c : Cx) (n : Nat) (f : Stream → Stream) : (c.modStrm n f).verdicts = c.verdicts := rfl
@[simp] theorem Cx.modStrm_abandoned (c : Cx) (n : Nat) (f : Stream → Stream) : (c.modStrm n f).abandoned = c.abandoned := rfl
@[simp] theorem Cx.modStrm_binding (c : Cx) (n : Nat) (f : Stream → Stream) : (c.modStrm n f).binding = c.binding := rfl
@[simp] theorem Cx.modStrm_charge (c : Cx) (n : Nat) (f : Stream → Stream) : (c.modStrm n f).charge = c.charge := rfl
@[simp] theorem Cx.modStrm_quotaSaid (c : Cx) (n : Nat) (f : Stream → Stream) : (c.modStrm n f).quotaSaid = c.quotaSaid := rfl
@[simp] theorem Cx.modStrm_keys (c : Cx) (n : Nat) (f : Stream → Stream) : (c.modStrm n f).keys = c.keys := rfl
@[simp] theorem Cx.modStrm_keyWords (c : Cx) (n : Nat) (f : Stream → Stream) : (c.modStrm n f).keyWords = c.keyWords := rfl
@[simp] theorem Cx.modStrm_syncs (c : Cx) (n : Nat) (f : Stream → Stream) : (c.modStrm n f).syncs = c.syncs := rfl
@[simp] theorem Cx.modStrm_queues (c : Cx) (n : Nat) (f : Stream → Stream) : (c.modStrm n f).queues = c.queues := rfl
@[simp] theorem Cx.modStrm_turns (c : Cx) (n : Nat) (f : Stream → Stream) : (c.modStrm n f).turns = c.turns := rfl
@[simp] theorem Cx.modStrm_holds (c : Cx) (n : Nat) (f : Stream → Stream) : (c.modStrm n f).holds = c.holds := rfl
@[simp] theorem Cx.modStrm_acc (c : Cx) (n : Nat) (f : Stream → Stream) : (c.modStrm n f).acc = c.acc := rfl
@[simp] theorem Cx.modStrm_arrivals (c : Cx) (n : Nat) (f : Stream → Stream) : (c.modStrm n f).arrivals = c.arrivals := rfl
@[simp] theorem Cx.modStrm_seqs (c : Cx) (n : Nat) (f : Stream → Stream) : (c.modStrm n f).seqs = c.seqs := rfl
@[simp] theorem Cx.modStrm_gradHeld (c : Cx) (n : Nat) (f : Stream → Stream) : (c.modStrm n f).gradHeld = c.gradHeld := rfl
@[simp] theorem Cx.modStrm_gatherHeld (c : Cx) (n : Nat) (f : Stream → Stream) : (c.modStrm n f).gatherHeld = c.gatherHeld := rfl
@[simp] theorem Cx.modStrm_finals (c : Cx) (n : Nat) (f : Stream → Stream) : (c.modStrm n f).finals = c.finals := rfl
@[simp] theorem Cx.modStrm_stks (c : Cx) (n : Nat) (f : Stream → Stream) : (c.modStrm n f).stks = c.stks := rfl
@[simp] theorem Cx.modStrm_newts (c : Cx) (n : Nat) (f : Stream → Stream) : (c.modStrm n f).newts = c.newts := rfl
@[simp] theorem Cx.modStrm_journal (c : Cx) (n : Nat) (f : Stream → Stream) : (c.modStrm n f).journal = c.journal := rfl
@[simp] theorem Cx.modStrm_ports (c : Cx) (n : Nat) (f : Stream → Stream) : (c.modStrm n f).ports = c.ports := rfl
@[simp] theorem Cx.modStrm_fab (c : Cx) (n : Nat) (f : Stream → Stream) : (c.modStrm n f).fab = c.fab := rfl
@[simp] theorem Cx.modStrm_gov (c : Cx) (n : Nat) (f : Stream → Stream) : (c.modStrm n f).gov = c.gov := rfl
@[simp] theorem Cx.modStrm_ticks (c : Cx) (n : Nat) (f : Stream → Stream) : (c.modStrm n f).ticks = c.ticks := rfl
@[simp] theorem Cx.modStrm_attCtx (c : Cx) (n : Nat) (f : Stream → Stream) : (c.modStrm n f).attCtx = c.attCtx := rfl
@[simp] theorem Cx.modStrm_free (c : Cx) (n : Nat) (f : Stream → Stream) : (c.modStrm n f).free = c.free := rfl
@[simp] theorem Cx.modStrm_out (c : Cx) (n : Nat) (f : Stream → Stream) : (c.modStrm n f).out = c.out := rfl

/-! ### modFp -/

@[simp] theorem Cx.modFp_mem (c : Cx) (p : Nat) (f : FabPort → FabPort) : (c.modFp p f).mem = c.mem := rfl
@[simp] theorem Cx.modFp_dirty (c : Cx) (p : Nat) (f : FabPort → FabPort) : (c.modFp p f).dirty = c.dirty := rfl
@[simp] theorem Cx.modFp_poison (c : Cx) (p : Nat) (f : FabPort → FabPort) : (c.modFp p f).poison = c.poison := rfl
@[simp] theorem Cx.modFp_eccUnknown (c : Cx) (p : Nat) (f : FabPort → FabPort) : (c.modFp p f).eccUnknown = c.eccUnknown := rfl
@[simp] theorem Cx.modFp_regs (c : Cx) (p : Nat) (f : FabPort → FabPort) : (c.modFp p f).regs = c.regs := rfl
@[simp] theorem Cx.modFp_ctrs (c : Cx) (p : Nat) (f : FabPort → FabPort) : (c.modFp p f).ctrs = c.ctrs := rfl
@[simp] theorem Cx.modFp_portA (c : Cx) (p : Nat) (f : FabPort → FabPort) : (c.modFp p f).portA = c.portA := rfl
@[simp] theorem Cx.modFp_portB (c : Cx) (p : Nat) (f : FabPort → FabPort) : (c.modFp p f).portB = c.portB := rfl
@[simp] theorem Cx.modFp_dieA (c : Cx) (p : Nat) (f : FabPort → FabPort) : (c.modFp p f).dieA = c.dieA := rfl
@[simp] theorem Cx.modFp_dieB (c : Cx) (p : Nat) (f : FabPort → FabPort) : (c.modFp p f).dieB = c.dieB := rfl
@[simp] theorem Cx.modFp_bridge (c : Cx) (p : Nat) (f : FabPort → FabPort) : (c.modFp p f).bridge = c.bridge := rfl
@[simp] theorem Cx.modFp_modules (c : Cx) (p : Nat) (f : FabPort → FabPort) : (c.modFp p f).modules = c.modules := rfl
@[simp] theorem Cx.modFp_master (c : Cx) (p : Nat) (f : FabPort → FabPort) : (c.modFp p f).master = c.master := rfl
@[simp] theorem Cx.modFp_img (c : Cx) (p : Nat) (f : FabPort → FabPort) : (c.modFp p f).img = c.img := rfl
@[simp] theorem Cx.modFp_arb (c : Cx) (p : Nat) (f : FabPort → FabPort) : (c.modFp p f).arb = c.arb := rfl
@[simp] theorem Cx.modFp_wins (c : Cx) (p : Nat) (f : FabPort → FabPort) : (c.modFp p f).wins = c.wins := rfl
@[simp] theorem Cx.modFp_verdicts (c : Cx) (p : Nat) (f : FabPort → FabPort) : (c.modFp p f).verdicts = c.verdicts := rfl
@[simp] theorem Cx.modFp_abandoned (c : Cx) (p : Nat) (f : FabPort → FabPort) : (c.modFp p f).abandoned = c.abandoned := rfl
@[simp] theorem Cx.modFp_binding (c : Cx) (p : Nat) (f : FabPort → FabPort) : (c.modFp p f).binding = c.binding := rfl
@[simp] theorem Cx.modFp_charge (c : Cx) (p : Nat) (f : FabPort → FabPort) : (c.modFp p f).charge = c.charge := rfl
@[simp] theorem Cx.modFp_quotaSaid (c : Cx) (p : Nat) (f : FabPort → FabPort) : (c.modFp p f).quotaSaid = c.quotaSaid := rfl
@[simp] theorem Cx.modFp_keys (c : Cx) (p : Nat) (f : FabPort → FabPort) : (c.modFp p f).keys = c.keys := rfl
@[simp] theorem Cx.modFp_keyWords (c : Cx) (p : Nat) (f : FabPort → FabPort) : (c.modFp p f).keyWords = c.keyWords := rfl
@[simp] theorem Cx.modFp_streams (c : Cx) (p : Nat) (f : FabPort → FabPort) : (c.modFp p f).streams = c.streams := rfl
@[simp] theorem Cx.modFp_syncs (c : Cx) (p : Nat) (f : FabPort → FabPort) : (c.modFp p f).syncs = c.syncs := rfl
@[simp] theorem Cx.modFp_queues (c : Cx) (p : Nat) (f : FabPort → FabPort) : (c.modFp p f).queues = c.queues := rfl
@[simp] theorem Cx.modFp_turns (c : Cx) (p : Nat) (f : FabPort → FabPort) : (c.modFp p f).turns = c.turns := rfl
@[simp] theorem Cx.modFp_holds (c : Cx) (p : Nat) (f : FabPort → FabPort) : (c.modFp p f).holds = c.holds := rfl
@[simp] theorem Cx.modFp_acc (c : Cx) (p : Nat) (f : FabPort → FabPort) : (c.modFp p f).acc = c.acc := rfl
@[simp] theorem Cx.modFp_arrivals (c : Cx) (p : Nat) (f : FabPort → FabPort) : (c.modFp p f).arrivals = c.arrivals := rfl
@[simp] theorem Cx.modFp_seqs (c : Cx) (p : Nat) (f : FabPort → FabPort) : (c.modFp p f).seqs = c.seqs := rfl
@[simp] theorem Cx.modFp_gradHeld (c : Cx) (p : Nat) (f : FabPort → FabPort) : (c.modFp p f).gradHeld = c.gradHeld := rfl
@[simp] theorem Cx.modFp_gatherHeld (c : Cx) (p : Nat) (f : FabPort → FabPort) : (c.modFp p f).gatherHeld = c.gatherHeld := rfl
@[simp] theorem Cx.modFp_finals (c : Cx) (p : Nat) (f : FabPort → FabPort) : (c.modFp p f).finals = c.finals := rfl
@[simp] theorem Cx.modFp_stks (c : Cx) (p : Nat) (f : FabPort → FabPort) : (c.modFp p f).stks = c.stks := rfl
@[simp] theorem Cx.modFp_newts (c : Cx) (p : Nat) (f : FabPort → FabPort) : (c.modFp p f).newts = c.newts := rfl
@[simp] theorem Cx.modFp_journal (c : Cx) (p : Nat) (f : FabPort → FabPort) : (c.modFp p f).journal = c.journal := rfl
@[simp] theorem Cx.modFp_fab (c : Cx) (p : Nat) (f : FabPort → FabPort) : (c.modFp p f).fab = c.fab := rfl
@[simp] theorem Cx.modFp_gov (c : Cx) (p : Nat) (f : FabPort → FabPort) : (c.modFp p f).gov = c.gov := rfl
@[simp] theorem Cx.modFp_ticks (c : Cx) (p : Nat) (f : FabPort → FabPort) : (c.modFp p f).ticks = c.ticks := rfl
@[simp] theorem Cx.modFp_attCtx (c : Cx) (p : Nat) (f : FabPort → FabPort) : (c.modFp p f).attCtx = c.attCtx := rfl
@[simp] theorem Cx.modFp_free (c : Cx) (p : Nat) (f : FabPort → FabPort) : (c.modFp p f).free = c.free := rfl
@[simp] theorem Cx.modFp_out (c : Cx) (p : Nat) (f : FabPort → FabPort) : (c.modFp p f).out = c.out := rfl

/-! ### modWin -/

@[simp] theorem Cx.modWin_mem (c : Cx) (w : Nat) (f : Win → Win) : (c.modWin w f).mem = c.mem := by unfold Cx.modWin; split <;> rfl
@[simp] theorem Cx.modWin_dirty (c : Cx) (w : Nat) (f : Win → Win) : (c.modWin w f).dirty = c.dirty := by unfold Cx.modWin; split <;> rfl
@[simp] theorem Cx.modWin_poison (c : Cx) (w : Nat) (f : Win → Win) : (c.modWin w f).poison = c.poison := by unfold Cx.modWin; split <;> rfl
@[simp] theorem Cx.modWin_eccUnknown (c : Cx) (w : Nat) (f : Win → Win) : (c.modWin w f).eccUnknown = c.eccUnknown := by unfold Cx.modWin; split <;> rfl
@[simp] theorem Cx.modWin_regs (c : Cx) (w : Nat) (f : Win → Win) : (c.modWin w f).regs = c.regs := by unfold Cx.modWin; split <;> rfl
@[simp] theorem Cx.modWin_ctrs (c : Cx) (w : Nat) (f : Win → Win) : (c.modWin w f).ctrs = c.ctrs := by unfold Cx.modWin; split <;> rfl
@[simp] theorem Cx.modWin_portA (c : Cx) (w : Nat) (f : Win → Win) : (c.modWin w f).portA = c.portA := by unfold Cx.modWin; split <;> rfl
@[simp] theorem Cx.modWin_portB (c : Cx) (w : Nat) (f : Win → Win) : (c.modWin w f).portB = c.portB := by unfold Cx.modWin; split <;> rfl
@[simp] theorem Cx.modWin_dieA (c : Cx) (w : Nat) (f : Win → Win) : (c.modWin w f).dieA = c.dieA := by unfold Cx.modWin; split <;> rfl
@[simp] theorem Cx.modWin_dieB (c : Cx) (w : Nat) (f : Win → Win) : (c.modWin w f).dieB = c.dieB := by unfold Cx.modWin; split <;> rfl
@[simp] theorem Cx.modWin_bridge (c : Cx) (w : Nat) (f : Win → Win) : (c.modWin w f).bridge = c.bridge := by unfold Cx.modWin; split <;> rfl
@[simp] theorem Cx.modWin_modules (c : Cx) (w : Nat) (f : Win → Win) : (c.modWin w f).modules = c.modules := by unfold Cx.modWin; split <;> rfl
@[simp] theorem Cx.modWin_master (c : Cx) (w : Nat) (f : Win → Win) : (c.modWin w f).master = c.master := by unfold Cx.modWin; split <;> rfl
@[simp] theorem Cx.modWin_img (c : Cx) (w : Nat) (f : Win → Win) : (c.modWin w f).img = c.img := by unfold Cx.modWin; split <;> rfl
@[simp] theorem Cx.modWin_arb (c : Cx) (w : Nat) (f : Win → Win) : (c.modWin w f).arb = c.arb := by unfold Cx.modWin; split <;> rfl
@[simp] theorem Cx.modWin_verdicts (c : Cx) (w : Nat) (f : Win → Win) : (c.modWin w f).verdicts = c.verdicts := by unfold Cx.modWin; split <;> rfl
@[simp] theorem Cx.modWin_abandoned (c : Cx) (w : Nat) (f : Win → Win) : (c.modWin w f).abandoned = c.abandoned := by unfold Cx.modWin; split <;> rfl
@[simp] theorem Cx.modWin_binding (c : Cx) (w : Nat) (f : Win → Win) : (c.modWin w f).binding = c.binding := by unfold Cx.modWin; split <;> rfl
@[simp] theorem Cx.modWin_charge (c : Cx) (w : Nat) (f : Win → Win) : (c.modWin w f).charge = c.charge := by unfold Cx.modWin; split <;> rfl
@[simp] theorem Cx.modWin_quotaSaid (c : Cx) (w : Nat) (f : Win → Win) : (c.modWin w f).quotaSaid = c.quotaSaid := by unfold Cx.modWin; split <;> rfl
@[simp] theorem Cx.modWin_keys (c : Cx) (w : Nat) (f : Win → Win) : (c.modWin w f).keys = c.keys := by unfold Cx.modWin; split <;> rfl
@[simp] theorem Cx.modWin_keyWords (c : Cx) (w : Nat) (f : Win → Win) : (c.modWin w f).keyWords = c.keyWords := by unfold Cx.modWin; split <;> rfl
@[simp] theorem Cx.modWin_streams (c : Cx) (w : Nat) (f : Win → Win) : (c.modWin w f).streams = c.streams := by unfold Cx.modWin; split <;> rfl
@[simp] theorem Cx.modWin_syncs (c : Cx) (w : Nat) (f : Win → Win) : (c.modWin w f).syncs = c.syncs := by unfold Cx.modWin; split <;> rfl
@[simp] theorem Cx.modWin_queues (c : Cx) (w : Nat) (f : Win → Win) : (c.modWin w f).queues = c.queues := by unfold Cx.modWin; split <;> rfl
@[simp] theorem Cx.modWin_turns (c : Cx) (w : Nat) (f : Win → Win) : (c.modWin w f).turns = c.turns := by unfold Cx.modWin; split <;> rfl
@[simp] theorem Cx.modWin_holds (c : Cx) (w : Nat) (f : Win → Win) : (c.modWin w f).holds = c.holds := by unfold Cx.modWin; split <;> rfl
@[simp] theorem Cx.modWin_acc (c : Cx) (w : Nat) (f : Win → Win) : (c.modWin w f).acc = c.acc := by unfold Cx.modWin; split <;> rfl
@[simp] theorem Cx.modWin_arrivals (c : Cx) (w : Nat) (f : Win → Win) : (c.modWin w f).arrivals = c.arrivals := by unfold Cx.modWin; split <;> rfl
@[simp] theorem Cx.modWin_seqs (c : Cx) (w : Nat) (f : Win → Win) : (c.modWin w f).seqs = c.seqs := by unfold Cx.modWin; split <;> rfl
@[simp] theorem Cx.modWin_gradHeld (c : Cx) (w : Nat) (f : Win → Win) : (c.modWin w f).gradHeld = c.gradHeld := by unfold Cx.modWin; split <;> rfl
@[simp] theorem Cx.modWin_gatherHeld (c : Cx) (w : Nat) (f : Win → Win) : (c.modWin w f).gatherHeld = c.gatherHeld := by unfold Cx.modWin; split <;> rfl
@[simp] theorem Cx.modWin_finals (c : Cx) (w : Nat) (f : Win → Win) : (c.modWin w f).finals = c.finals := by unfold Cx.modWin; split <;> rfl
@[simp] theorem Cx.modWin_stks (c : Cx) (w : Nat) (f : Win → Win) : (c.modWin w f).stks = c.stks := by unfold Cx.modWin; split <;> rfl
@[simp] theorem Cx.modWin_newts (c : Cx) (w : Nat) (f : Win → Win) : (c.modWin w f).newts = c.newts := by unfold Cx.modWin; split <;> rfl
@[simp] theorem Cx.modWin_journal (c : Cx) (w : Nat) (f : Win → Win) : (c.modWin w f).journal = c.journal := by unfold Cx.modWin; split <;> rfl
@[simp] theorem Cx.modWin_ports (c : Cx) (w : Nat) (f : Win → Win) : (c.modWin w f).ports = c.ports := by unfold Cx.modWin; split <;> rfl
@[simp] theorem Cx.modWin_fab (c : Cx) (w : Nat) (f : Win → Win) : (c.modWin w f).fab = c.fab := by unfold Cx.modWin; split <;> rfl
@[simp] theorem Cx.modWin_gov (c : Cx) (w : Nat) (f : Win → Win) : (c.modWin w f).gov = c.gov := by unfold Cx.modWin; split <;> rfl
@[simp] theorem Cx.modWin_ticks (c : Cx) (w : Nat) (f : Win → Win) : (c.modWin w f).ticks = c.ticks := by unfold Cx.modWin; split <;> rfl
@[simp] theorem Cx.modWin_attCtx (c : Cx) (w : Nat) (f : Win → Win) : (c.modWin w f).attCtx = c.attCtx := by unfold Cx.modWin; split <;> rfl
@[simp] theorem Cx.modWin_free (c : Cx) (w : Nat) (f : Win → Win) : (c.modWin w f).free = c.free := by unfold Cx.modWin; split <;> rfl
@[simp] theorem Cx.modWin_out (c : Cx) (w : Nat) (f : Win → Win) : (c.modWin w f).out = c.out := by unfold Cx.modWin; split <;> rfl

/-! ### emit -/

@[simp] theorem Cx.emit_mem (c : Cx) (x : Out) : (c.emit x).mem = c.mem := rfl
@[simp] theorem Cx.emit_dirty (c : Cx) (x : Out) : (c.emit x).dirty = c.dirty := rfl
@[simp] theorem Cx.emit_poison (c : Cx) (x : Out) : (c.emit x).poison = c.poison := rfl
@[simp] theorem Cx.emit_eccUnknown (c : Cx) (x : Out) : (c.emit x).eccUnknown = c.eccUnknown := rfl
@[simp] theorem Cx.emit_regs (c : Cx) (x : Out) : (c.emit x).regs = c.regs := rfl
@[simp] theorem Cx.emit_ctrs (c : Cx) (x : Out) : (c.emit x).ctrs = c.ctrs := rfl
@[simp] theorem Cx.emit_portA (c : Cx) (x : Out) : (c.emit x).portA = c.portA := rfl
@[simp] theorem Cx.emit_portB (c : Cx) (x : Out) : (c.emit x).portB = c.portB := rfl
@[simp] theorem Cx.emit_dieA (c : Cx) (x : Out) : (c.emit x).dieA = c.dieA := rfl
@[simp] theorem Cx.emit_dieB (c : Cx) (x : Out) : (c.emit x).dieB = c.dieB := rfl
@[simp] theorem Cx.emit_bridge (c : Cx) (x : Out) : (c.emit x).bridge = c.bridge := rfl
@[simp] theorem Cx.emit_modules (c : Cx) (x : Out) : (c.emit x).modules = c.modules := rfl
@[simp] theorem Cx.emit_master (c : Cx) (x : Out) : (c.emit x).master = c.master := rfl
@[simp] theorem Cx.emit_img (c : Cx) (x : Out) : (c.emit x).img = c.img := rfl
@[simp] theorem Cx.emit_arb (c : Cx) (x : Out) : (c.emit x).arb = c.arb := rfl
@[simp] theorem Cx.emit_wins (c : Cx) (x : Out) : (c.emit x).wins = c.wins := rfl
@[simp] theorem Cx.emit_verdicts (c : Cx) (x : Out) : (c.emit x).verdicts = c.verdicts := rfl
@[simp] theorem Cx.emit_abandoned (c : Cx) (x : Out) : (c.emit x).abandoned = c.abandoned := rfl
@[simp] theorem Cx.emit_binding (c : Cx) (x : Out) : (c.emit x).binding = c.binding := rfl
@[simp] theorem Cx.emit_charge (c : Cx) (x : Out) : (c.emit x).charge = c.charge := rfl
@[simp] theorem Cx.emit_quotaSaid (c : Cx) (x : Out) : (c.emit x).quotaSaid = c.quotaSaid := rfl
@[simp] theorem Cx.emit_keys (c : Cx) (x : Out) : (c.emit x).keys = c.keys := rfl
@[simp] theorem Cx.emit_keyWords (c : Cx) (x : Out) : (c.emit x).keyWords = c.keyWords := rfl
@[simp] theorem Cx.emit_streams (c : Cx) (x : Out) : (c.emit x).streams = c.streams := rfl
@[simp] theorem Cx.emit_syncs (c : Cx) (x : Out) : (c.emit x).syncs = c.syncs := rfl
@[simp] theorem Cx.emit_queues (c : Cx) (x : Out) : (c.emit x).queues = c.queues := rfl
@[simp] theorem Cx.emit_turns (c : Cx) (x : Out) : (c.emit x).turns = c.turns := rfl
@[simp] theorem Cx.emit_holds (c : Cx) (x : Out) : (c.emit x).holds = c.holds := rfl
@[simp] theorem Cx.emit_acc (c : Cx) (x : Out) : (c.emit x).acc = c.acc := rfl
@[simp] theorem Cx.emit_arrivals (c : Cx) (x : Out) : (c.emit x).arrivals = c.arrivals := rfl
@[simp] theorem Cx.emit_seqs (c : Cx) (x : Out) : (c.emit x).seqs = c.seqs := rfl
@[simp] theorem Cx.emit_gradHeld (c : Cx) (x : Out) : (c.emit x).gradHeld = c.gradHeld := rfl
@[simp] theorem Cx.emit_gatherHeld (c : Cx) (x : Out) : (c.emit x).gatherHeld = c.gatherHeld := rfl
@[simp] theorem Cx.emit_finals (c : Cx) (x : Out) : (c.emit x).finals = c.finals := rfl
@[simp] theorem Cx.emit_stks (c : Cx) (x : Out) : (c.emit x).stks = c.stks := rfl
@[simp] theorem Cx.emit_newts (c : Cx) (x : Out) : (c.emit x).newts = c.newts := rfl
@[simp] theorem Cx.emit_journal (c : Cx) (x : Out) : (c.emit x).journal = c.journal := rfl
@[simp] theorem Cx.emit_ports (c : Cx) (x : Out) : (c.emit x).ports = c.ports := rfl
@[simp] theorem Cx.emit_fab (c : Cx) (x : Out) : (c.emit x).fab = c.fab := rfl
@[simp] theorem Cx.emit_gov (c : Cx) (x : Out) : (c.emit x).gov = c.gov := rfl
@[simp] theorem Cx.emit_ticks (c : Cx) (x : Out) : (c.emit x).ticks = c.ticks := rfl
@[simp] theorem Cx.emit_attCtx (c : Cx) (x : Out) : (c.emit x).attCtx = c.attCtx := rfl
@[simp] theorem Cx.emit_free (c : Cx) (x : Out) : (c.emit x).free = c.free := rfl

/-! ### setReg -/

@[simp] theorem Cx.setReg_mem (c : Cx) (a : Nat) (v : W32) : (c.setReg a v).mem = c.mem := rfl
@[simp] theorem Cx.setReg_dirty (c : Cx) (a : Nat) (v : W32) : (c.setReg a v).dirty = c.dirty := rfl
@[simp] theorem Cx.setReg_poison (c : Cx) (a : Nat) (v : W32) : (c.setReg a v).poison = c.poison := rfl
@[simp] theorem Cx.setReg_eccUnknown (c : Cx) (a : Nat) (v : W32) : (c.setReg a v).eccUnknown = c.eccUnknown := rfl
@[simp] theorem Cx.setReg_ctrs (c : Cx) (a : Nat) (v : W32) : (c.setReg a v).ctrs = c.ctrs := rfl
@[simp] theorem Cx.setReg_portA (c : Cx) (a : Nat) (v : W32) : (c.setReg a v).portA = c.portA := rfl
@[simp] theorem Cx.setReg_portB (c : Cx) (a : Nat) (v : W32) : (c.setReg a v).portB = c.portB := rfl
@[simp] theorem Cx.setReg_dieA (c : Cx) (a : Nat) (v : W32) : (c.setReg a v).dieA = c.dieA := rfl
@[simp] theorem Cx.setReg_dieB (c : Cx) (a : Nat) (v : W32) : (c.setReg a v).dieB = c.dieB := rfl
@[simp] theorem Cx.setReg_bridge (c : Cx) (a : Nat) (v : W32) : (c.setReg a v).bridge = c.bridge := rfl
@[simp] theorem Cx.setReg_modules (c : Cx) (a : Nat) (v : W32) : (c.setReg a v).modules = c.modules := rfl
@[simp] theorem Cx.setReg_master (c : Cx) (a : Nat) (v : W32) : (c.setReg a v).master = c.master := rfl
@[simp] theorem Cx.setReg_img (c : Cx) (a : Nat) (v : W32) : (c.setReg a v).img = c.img := rfl
@[simp] theorem Cx.setReg_arb (c : Cx) (a : Nat) (v : W32) : (c.setReg a v).arb = c.arb := rfl
@[simp] theorem Cx.setReg_wins (c : Cx) (a : Nat) (v : W32) : (c.setReg a v).wins = c.wins := rfl
@[simp] theorem Cx.setReg_verdicts (c : Cx) (a : Nat) (v : W32) : (c.setReg a v).verdicts = c.verdicts := rfl
@[simp] theorem Cx.setReg_abandoned (c : Cx) (a : Nat) (v : W32) : (c.setReg a v).abandoned = c.abandoned := rfl
@[simp] theorem Cx.setReg_binding (c : Cx) (a : Nat) (v : W32) : (c.setReg a v).binding = c.binding := rfl
@[simp] theorem Cx.setReg_charge (c : Cx) (a : Nat) (v : W32) : (c.setReg a v).charge = c.charge := rfl
@[simp] theorem Cx.setReg_quotaSaid (c : Cx) (a : Nat) (v : W32) : (c.setReg a v).quotaSaid = c.quotaSaid := rfl
@[simp] theorem Cx.setReg_keys (c : Cx) (a : Nat) (v : W32) : (c.setReg a v).keys = c.keys := rfl
@[simp] theorem Cx.setReg_keyWords (c : Cx) (a : Nat) (v : W32) : (c.setReg a v).keyWords = c.keyWords := rfl
@[simp] theorem Cx.setReg_streams (c : Cx) (a : Nat) (v : W32) : (c.setReg a v).streams = c.streams := rfl
@[simp] theorem Cx.setReg_syncs (c : Cx) (a : Nat) (v : W32) : (c.setReg a v).syncs = c.syncs := rfl
@[simp] theorem Cx.setReg_queues (c : Cx) (a : Nat) (v : W32) : (c.setReg a v).queues = c.queues := rfl
@[simp] theorem Cx.setReg_turns (c : Cx) (a : Nat) (v : W32) : (c.setReg a v).turns = c.turns := rfl
@[simp] theorem Cx.setReg_holds (c : Cx) (a : Nat) (v : W32) : (c.setReg a v).holds = c.holds := rfl
@[simp] theorem Cx.setReg_acc (c : Cx) (a : Nat) (v : W32) : (c.setReg a v).acc = c.acc := rfl
@[simp] theorem Cx.setReg_arrivals (c : Cx) (a : Nat) (v : W32) : (c.setReg a v).arrivals = c.arrivals := rfl
@[simp] theorem Cx.setReg_seqs (c : Cx) (a : Nat) (v : W32) : (c.setReg a v).seqs = c.seqs := rfl
@[simp] theorem Cx.setReg_gradHeld (c : Cx) (a : Nat) (v : W32) : (c.setReg a v).gradHeld = c.gradHeld := rfl
@[simp] theorem Cx.setReg_gatherHeld (c : Cx) (a : Nat) (v : W32) : (c.setReg a v).gatherHeld = c.gatherHeld := rfl
@[simp] theorem Cx.setReg_finals (c : Cx) (a : Nat) (v : W32) : (c.setReg a v).finals = c.finals := rfl
@[simp] theorem Cx.setReg_stks (c : Cx) (a : Nat) (v : W32) : (c.setReg a v).stks = c.stks := rfl
@[simp] theorem Cx.setReg_newts (c : Cx) (a : Nat) (v : W32) : (c.setReg a v).newts = c.newts := rfl
@[simp] theorem Cx.setReg_journal (c : Cx) (a : Nat) (v : W32) : (c.setReg a v).journal = c.journal := rfl
@[simp] theorem Cx.setReg_ports (c : Cx) (a : Nat) (v : W32) : (c.setReg a v).ports = c.ports := rfl
@[simp] theorem Cx.setReg_fab (c : Cx) (a : Nat) (v : W32) : (c.setReg a v).fab = c.fab := rfl
@[simp] theorem Cx.setReg_gov (c : Cx) (a : Nat) (v : W32) : (c.setReg a v).gov = c.gov := rfl
@[simp] theorem Cx.setReg_ticks (c : Cx) (a : Nat) (v : W32) : (c.setReg a v).ticks = c.ticks := rfl
@[simp] theorem Cx.setReg_attCtx (c : Cx) (a : Nat) (v : W32) : (c.setReg a v).attCtx = c.attCtx := rfl
@[simp] theorem Cx.setReg_free (c : Cx) (a : Nat) (v : W32) : (c.setReg a v).free = c.free := rfl
@[simp] theorem Cx.setReg_out (c : Cx) (a : Nat) (v : W32) : (c.setReg a v).out = c.out := rfl

/-! ### putByte -/

@[simp] theorem Cx.putByte_dirty (c : Cx) (k : Nat) (b : Byte) : (c.putByte k b).dirty = c.dirty := rfl
@[simp] theorem Cx.putByte_poison (c : Cx) (k : Nat) (b : Byte) : (c.putByte k b).poison = c.poison := rfl
@[simp] theorem Cx.putByte_eccUnknown (c : Cx) (k : Nat) (b : Byte) : (c.putByte k b).eccUnknown = c.eccUnknown := rfl
@[simp] theorem Cx.putByte_regs (c : Cx) (k : Nat) (b : Byte) : (c.putByte k b).regs = c.regs := rfl
@[simp] theorem Cx.putByte_ctrs (c : Cx) (k : Nat) (b : Byte) : (c.putByte k b).ctrs = c.ctrs := rfl
@[simp] theorem Cx.putByte_portA (c : Cx) (k : Nat) (b : Byte) : (c.putByte k b).portA = c.portA := rfl
@[simp] theorem Cx.putByte_portB (c : Cx) (k : Nat) (b : Byte) : (c.putByte k b).portB = c.portB := rfl
@[simp] theorem Cx.putByte_dieA (c : Cx) (k : Nat) (b : Byte) : (c.putByte k b).dieA = c.dieA := rfl
@[simp] theorem Cx.putByte_dieB (c : Cx) (k : Nat) (b : Byte) : (c.putByte k b).dieB = c.dieB := rfl
@[simp] theorem Cx.putByte_bridge (c : Cx) (k : Nat) (b : Byte) : (c.putByte k b).bridge = c.bridge := rfl
@[simp] theorem Cx.putByte_modules (c : Cx) (k : Nat) (b : Byte) : (c.putByte k b).modules = c.modules := rfl
@[simp] theorem Cx.putByte_master (c : Cx) (k : Nat) (b : Byte) : (c.putByte k b).master = c.master := rfl
@[simp] theorem Cx.putByte_img (c : Cx) (k : Nat) (b : Byte) : (c.putByte k b).img = c.img := rfl
@[simp] theorem Cx.putByte_arb (c : Cx) (k : Nat) (b : Byte) : (c.putByte k b).arb = c.arb := rfl
@[simp] theorem Cx.putByte_wins (c : Cx) (k : Nat) (b : Byte) : (c.putByte k b).wins = c.wins := rfl
@[simp] theorem Cx.putByte_verdicts (c : Cx) (k : Nat) (b : Byte) : (c.putByte k b).verdicts = c.verdicts := rfl
@[simp] theorem Cx.putByte_abandoned (c : Cx) (k : Nat) (b : Byte) : (c.putByte k b).abandoned = c.abandoned := rfl
@[simp] theorem Cx.putByte_binding (c : Cx) (k : Nat) (b : Byte) : (c.putByte k b).binding = c.binding := rfl
@[simp] theorem Cx.putByte_charge (c : Cx) (k : Nat) (b : Byte) : (c.putByte k b).charge = c.charge := rfl
@[simp] theorem Cx.putByte_quotaSaid (c : Cx) (k : Nat) (b : Byte) : (c.putByte k b).quotaSaid = c.quotaSaid := rfl
@[simp] theorem Cx.putByte_keys (c : Cx) (k : Nat) (b : Byte) : (c.putByte k b).keys = c.keys := rfl
@[simp] theorem Cx.putByte_keyWords (c : Cx) (k : Nat) (b : Byte) : (c.putByte k b).keyWords = c.keyWords := rfl
@[simp] theorem Cx.putByte_streams (c : Cx) (k : Nat) (b : Byte) : (c.putByte k b).streams = c.streams := rfl
@[simp] theorem Cx.putByte_syncs (c : Cx) (k : Nat) (b : Byte) : (c.putByte k b).syncs = c.syncs := rfl
@[simp] theorem Cx.putByte_queues (c : Cx) (k : Nat) (b : Byte) : (c.putByte k b).queues = c.queues := rfl
@[simp] theorem Cx.putByte_turns (c : Cx) (k : Nat) (b : Byte) : (c.putByte k b).turns = c.turns := rfl
@[simp] theorem Cx.putByte_holds (c : Cx) (k : Nat) (b : Byte) : (c.putByte k b).holds = c.holds := rfl
@[simp] theorem Cx.putByte_acc (c : Cx) (k : Nat) (b : Byte) : (c.putByte k b).acc = c.acc := rfl
@[simp] theorem Cx.putByte_arrivals (c : Cx) (k : Nat) (b : Byte) : (c.putByte k b).arrivals = c.arrivals := rfl
@[simp] theorem Cx.putByte_seqs (c : Cx) (k : Nat) (b : Byte) : (c.putByte k b).seqs = c.seqs := rfl
@[simp] theorem Cx.putByte_gradHeld (c : Cx) (k : Nat) (b : Byte) : (c.putByte k b).gradHeld = c.gradHeld := rfl
@[simp] theorem Cx.putByte_gatherHeld (c : Cx) (k : Nat) (b : Byte) : (c.putByte k b).gatherHeld = c.gatherHeld := rfl
@[simp] theorem Cx.putByte_finals (c : Cx) (k : Nat) (b : Byte) : (c.putByte k b).finals = c.finals := rfl
@[simp] theorem Cx.putByte_stks (c : Cx) (k : Nat) (b : Byte) : (c.putByte k b).stks = c.stks := rfl
@[simp] theorem Cx.putByte_newts (c : Cx) (k : Nat) (b : Byte) : (c.putByte k b).newts = c.newts := rfl
@[simp] theorem Cx.putByte_journal (c : Cx) (k : Nat) (b : Byte) : (c.putByte k b).journal = c.journal := rfl
@[simp] theorem Cx.putByte_ports (c : Cx) (k : Nat) (b : Byte) : (c.putByte k b).ports = c.ports := rfl
@[simp] theorem Cx.putByte_fab (c : Cx) (k : Nat) (b : Byte) : (c.putByte k b).fab = c.fab := rfl
@[simp] theorem Cx.putByte_gov (c : Cx) (k : Nat) (b : Byte) : (c.putByte k b).gov = c.gov := rfl
@[simp] theorem Cx.putByte_ticks (c : Cx) (k : Nat) (b : Byte) : (c.putByte k b).ticks = c.ticks := rfl
@[simp] theorem Cx.putByte_attCtx (c : Cx) (k : Nat) (b : Byte) : (c.putByte k b).attCtx = c.attCtx := rfl
@[simp] theorem Cx.putByte_free (c : Cx) (k : Nat) (b : Byte) : (c.putByte k b).free = c.free := rfl
@[simp] theorem Cx.putByte_out (c : Cx) (k : Nat) (b : Byte) : (c.putByte k b).out = c.out := rfl

/-! ### submit -/

@[simp] theorem Cx.submit_mem (c : Cx) (d : Side) (r : JRec) (x : Option (StreamId × W32)) : (c.submit d r x).mem = c.mem := rfl
@[simp] theorem Cx.submit_dirty (c : Cx) (d : Side) (r : JRec) (x : Option (StreamId × W32)) : (c.submit d r x).dirty = c.dirty := rfl
@[simp] theorem Cx.submit_poison (c : Cx) (d : Side) (r : JRec) (x : Option (StreamId × W32)) : (c.submit d r x).poison = c.poison := rfl
@[simp] theorem Cx.submit_eccUnknown (c : Cx) (d : Side) (r : JRec) (x : Option (StreamId × W32)) : (c.submit d r x).eccUnknown = c.eccUnknown := rfl
@[simp] theorem Cx.submit_regs (c : Cx) (d : Side) (r : JRec) (x : Option (StreamId × W32)) : (c.submit d r x).regs = c.regs := rfl
@[simp] theorem Cx.submit_ctrs (c : Cx) (d : Side) (r : JRec) (x : Option (StreamId × W32)) : (c.submit d r x).ctrs = c.ctrs := rfl
@[simp] theorem Cx.submit_portA (c : Cx) (d : Side) (r : JRec) (x : Option (StreamId × W32)) : (c.submit d r x).portA = c.portA := rfl
@[simp] theorem Cx.submit_portB (c : Cx) (d : Side) (r : JRec) (x : Option (StreamId × W32)) : (c.submit d r x).portB = c.portB := rfl
@[simp] theorem Cx.submit_dieA (c : Cx) (d : Side) (r : JRec) (x : Option (StreamId × W32)) : (c.submit d r x).dieA = c.dieA := rfl
@[simp] theorem Cx.submit_dieB (c : Cx) (d : Side) (r : JRec) (x : Option (StreamId × W32)) : (c.submit d r x).dieB = c.dieB := rfl
@[simp] theorem Cx.submit_bridge (c : Cx) (d : Side) (r : JRec) (x : Option (StreamId × W32)) : (c.submit d r x).bridge = c.bridge := rfl
@[simp] theorem Cx.submit_modules (c : Cx) (d : Side) (r : JRec) (x : Option (StreamId × W32)) : (c.submit d r x).modules = c.modules := rfl
@[simp] theorem Cx.submit_master (c : Cx) (d : Side) (r : JRec) (x : Option (StreamId × W32)) : (c.submit d r x).master = c.master := rfl
@[simp] theorem Cx.submit_img (c : Cx) (d : Side) (r : JRec) (x : Option (StreamId × W32)) : (c.submit d r x).img = c.img := rfl
@[simp] theorem Cx.submit_arb (c : Cx) (d : Side) (r : JRec) (x : Option (StreamId × W32)) : (c.submit d r x).arb = c.arb := rfl
@[simp] theorem Cx.submit_wins (c : Cx) (d : Side) (r : JRec) (x : Option (StreamId × W32)) : (c.submit d r x).wins = c.wins := rfl
@[simp] theorem Cx.submit_verdicts (c : Cx) (d : Side) (r : JRec) (x : Option (StreamId × W32)) : (c.submit d r x).verdicts = c.verdicts := rfl
@[simp] theorem Cx.submit_abandoned (c : Cx) (d : Side) (r : JRec) (x : Option (StreamId × W32)) : (c.submit d r x).abandoned = c.abandoned := rfl
@[simp] theorem Cx.submit_binding (c : Cx) (d : Side) (r : JRec) (x : Option (StreamId × W32)) : (c.submit d r x).binding = c.binding := rfl
@[simp] theorem Cx.submit_charge (c : Cx) (d : Side) (r : JRec) (x : Option (StreamId × W32)) : (c.submit d r x).charge = c.charge := rfl
@[simp] theorem Cx.submit_quotaSaid (c : Cx) (d : Side) (r : JRec) (x : Option (StreamId × W32)) : (c.submit d r x).quotaSaid = c.quotaSaid := rfl
@[simp] theorem Cx.submit_keys (c : Cx) (d : Side) (r : JRec) (x : Option (StreamId × W32)) : (c.submit d r x).keys = c.keys := rfl
@[simp] theorem Cx.submit_keyWords (c : Cx) (d : Side) (r : JRec) (x : Option (StreamId × W32)) : (c.submit d r x).keyWords = c.keyWords := rfl
@[simp] theorem Cx.submit_streams (c : Cx) (d : Side) (r : JRec) (x : Option (StreamId × W32)) : (c.submit d r x).streams = c.streams := rfl
@[simp] theorem Cx.submit_syncs (c : Cx) (d : Side) (r : JRec) (x : Option (StreamId × W32)) : (c.submit d r x).syncs = c.syncs := rfl
@[simp] theorem Cx.submit_queues (c : Cx) (d : Side) (r : JRec) (x : Option (StreamId × W32)) : (c.submit d r x).queues = c.queues := rfl
@[simp] theorem Cx.submit_turns (c : Cx) (d : Side) (r : JRec) (x : Option (StreamId × W32)) : (c.submit d r x).turns = c.turns := rfl
@[simp] theorem Cx.submit_holds (c : Cx) (d : Side) (r : JRec) (x : Option (StreamId × W32)) : (c.submit d r x).holds = c.holds := rfl
@[simp] theorem Cx.submit_acc (c : Cx) (d : Side) (r : JRec) (x : Option (StreamId × W32)) : (c.submit d r x).acc = c.acc := rfl
@[simp] theorem Cx.submit_arrivals (c : Cx) (d : Side) (r : JRec) (x : Option (StreamId × W32)) : (c.submit d r x).arrivals = c.arrivals := rfl
@[simp] theorem Cx.submit_seqs (c : Cx) (d : Side) (r : JRec) (x : Option (StreamId × W32)) : (c.submit d r x).seqs = c.seqs := rfl
@[simp] theorem Cx.submit_gradHeld (c : Cx) (d : Side) (r : JRec) (x : Option (StreamId × W32)) : (c.submit d r x).gradHeld = c.gradHeld := rfl
@[simp] theorem Cx.submit_gatherHeld (c : Cx) (d : Side) (r : JRec) (x : Option (StreamId × W32)) : (c.submit d r x).gatherHeld = c.gatherHeld := rfl
@[simp] theorem Cx.submit_finals (c : Cx) (d : Side) (r : JRec) (x : Option (StreamId × W32)) : (c.submit d r x).finals = c.finals := rfl
@[simp] theorem Cx.submit_stks (c : Cx) (d : Side) (r : JRec) (x : Option (StreamId × W32)) : (c.submit d r x).stks = c.stks := rfl
@[simp] theorem Cx.submit_newts (c : Cx) (d : Side) (r : JRec) (x : Option (StreamId × W32)) : (c.submit d r x).newts = c.newts := rfl
@[simp] theorem Cx.submit_ports (c : Cx) (d : Side) (r : JRec) (x : Option (StreamId × W32)) : (c.submit d r x).ports = c.ports := rfl
@[simp] theorem Cx.submit_fab (c : Cx) (d : Side) (r : JRec) (x : Option (StreamId × W32)) : (c.submit d r x).fab = c.fab := rfl
@[simp] theorem Cx.submit_gov (c : Cx) (d : Side) (r : JRec) (x : Option (StreamId × W32)) : (c.submit d r x).gov = c.gov := rfl
@[simp] theorem Cx.submit_ticks (c : Cx) (d : Side) (r : JRec) (x : Option (StreamId × W32)) : (c.submit d r x).ticks = c.ticks := rfl
@[simp] theorem Cx.submit_attCtx (c : Cx) (d : Side) (r : JRec) (x : Option (StreamId × W32)) : (c.submit d r x).attCtx = c.attCtx := rfl
@[simp] theorem Cx.submit_free (c : Cx) (d : Side) (r : JRec) (x : Option (StreamId × W32)) : (c.submit d r x).free = c.free := rfl
@[simp] theorem Cx.submit_out (c : Cx) (d : Side) (r : JRec) (x : Option (StreamId × W32)) : (c.submit d r x).out = c.out := rfl

/-! ### What each update changes -/

@[simp] theorem Cx.modDie_die_self (c : Cx) (d : Side) (f : Die → Die) : (c.modDie d f).die d = f (c.die d) := by
  cases d <;> rfl
@[simp] theorem Cx.modDie_die_twin (c : Cx) (d : Side) (f : Die → Die) : (c.modDie d f).die d.twin = c.die d.twin := by
  cases d <;> rfl
@[simp] theorem Cx.modPort_port_self (c : Cx) (d : Side) (f : Port → Port) : (c.modPort d f).port d = f (c.port d) := by
  cases d <;> rfl
@[simp] theorem Cx.modPort_port_twin (c : Cx) (d : Side) (f : Port → Port) :
    (c.modPort d f).port d.twin = c.port d.twin := by cases d <;> rfl
@[simp] theorem Cx.modStk_stk_self (c : Cx) (s : Nat) (f : Stack → Stack) : (c.modStk s f).stk s = f (c.stk s) := by
  simp [Cx.modStk, Cx.stk]
theorem Cx.modStk_stk_ne (c : Cx) {s r : Nat} (f : Stack → Stack) (h : r ≠ s) : (c.modStk s f).stk r = c.stk r := by
  simp [Cx.modStk, Cx.stk, kget_kput_ne _ _ _ h]
@[simp] theorem Cx.modNewt_newt_self (c : Cx) (g : Nat) (f : Newt → Newt) : (c.modNewt g f).newt g = f (c.newt g) := by
  simp [Cx.modNewt, Cx.newt]
theorem Cx.modNewt_newt_ne (c : Cx) {g r : Nat} (f : Newt → Newt) (h : r ≠ g) : (c.modNewt g f).newt r = c.newt r := by
  simp [Cx.modNewt, Cx.newt, kget_kput_ne _ _ _ h]
@[simp] theorem Cx.modStrm_strm_self (c : Cx) (n : Nat) (f : Stream → Stream) :
    (c.modStrm n f).strm n = f (c.strm n) := by simp [Cx.modStrm, Cx.strm]
theorem Cx.modStrm_strm_ne (c : Cx) {n r : Nat} (f : Stream → Stream) (h : r ≠ n) :
    (c.modStrm n f).strm r = c.strm r := by simp [Cx.modStrm, Cx.strm, kget_kput_ne _ _ _ h]
@[simp] theorem Cx.modFp_fp_self (c : Cx) (p : Nat) (f : FabPort → FabPort) : (c.modFp p f).fp p = f (c.fp p) := by
  simp [Cx.modFp, Cx.fp]
theorem Cx.modFp_fp_ne (c : Cx) {p r : Nat} (f : FabPort → FabPort) (h : r ≠ p) : (c.modFp p f).fp r = c.fp r := by
  simp [Cx.modFp, Cx.fp, kget_kput_ne _ _ _ h]
@[simp] theorem Cx.emit_out (c : Cx) (x : Out) : (c.emit x).out = c.out ++ [x] := rfl

theorem State.go_next (s : State) (c : Cx) : s.go c = .next { s with cx := c } := rfl

end Sys2Proof.Machine
end

