-- ==== Sys2Proof/Laws/Memory.lean ====
section
/-!
SUPPORT. Memory laws: a byte written reads back, every other byte keeps its value, and every memory operation keeps the
canonical form.
-/
namespace Sys2Proof.Machine

theorem Memory.wf_iff (m : List Host.Cell) : Memory.wf m = true ↔ kwf m = true ∧ ∀ p ∈ m, p.2 ≠ 0#8 := by
  simp [Memory.wf, List.all_eq_true]

theorem Memory.wf_kset (m : List Host.Cell) (k : Nat) (b : Byte) (h : Memory.wf m = true) :
    Memory.wf (kset 0#8 m k b) = true := by
  rw [Memory.wf_iff] at h ⊢
  unfold kset
  split
  · exact ⟨kwf_kdel m k h.1, fun p hp => h.2 p (kdel_sub m k p hp)⟩
  · rename_i hb
    refine ⟨kwf_kput m k b h.1, fun p hp => ?_⟩
    rcases kput_mem m k b p hp with rfl | hp
    · exact hb
    · exact h.2 p hp

theorem Memory.wf_filter (m : List Host.Cell) (f : Host.Cell → Bool) (h : Memory.wf m = true) :
    Memory.wf (m.filter f) = true := by
  rw [Memory.wf_iff] at h ⊢
  exact ⟨kwf_filter m f h.1, fun p hp => h.2 p (List.mem_of_mem_filter hp)⟩

/-! ### One byte -/

theorem Cx.byte_putByte_self (c : Cx) (k : Nat) (b : Byte) : (c.putByte k b).byte k = b := kget_kset_self _ _ _ _

theorem Cx.byte_putByte_ne (c : Cx) {k j : Nat} (b : Byte) (h : j ≠ k) : (c.putByte k b).byte j = c.byte j :=
  kget_kset_ne _ _ _ h

theorem Cx.wf_putByte (c : Cx) (k : Nat) (b : Byte) (h : Memory.wf c.mem = true) :
    Memory.wf (c.putByte k b).mem = true := Memory.wf_kset _ _ _ h

/-! ### Updates that leave memory alone -/

@[simp] theorem Cx.msix_mem (c : Cx) (p : Side) (v : Nat) : (c.msix p v).mem = c.mem := by
  unfold Cx.msix
  dsimp only
  split
  · exact Cx.modPort_mem _ _ _
  · split <;> rfl
@[simp] theorem Cx.raise_mem (c : Cx) (e : Ev) : (c.raise e).mem = c.mem := by
  have h1 : (if e.sev = 3 then c.msix e.die 1 else c).mem = c.mem := by split <;> simp
  unfold Cx.raise
  split
  · extract_lets c1 c2
    rw [show c.mem = c1.mem from h1.symm]
    clear_value c1
    split
    · rfl
    · split
      · exact Cx.modPort_mem _ _ _
      · rfl
  · rfl
@[simp] theorem Cx.ev_mem (c : Cx) (code cls sev : Nat) (d : Side) (idx : Nat) (fs : List Nat) (st : Option Step)
    (t : Option Nat) : (c.ev code cls sev d idx fs st t).mem = c.mem := by unfold Cx.ev; simp

/-! ### Ranges of bytes (R302, R316, R319) -/

theorem Cx.wf_clearRange (c : Cx) (k n : Nat) (h : Memory.wf c.mem = true) : Memory.wf (c.clearRange k n).mem = true :=
  Memory.wf_filter _ _ h

@[simp] theorem Cx.clearPoison_mem (c : Cx) (k : Nat) : (c.clearPoison k).mem = c.mem := by
  unfold Cx.clearPoison; split <;> simp

@[simp] theorem Cx.parityDelta_mem (c : Cx) (s off : Nat) (a b : Byte) : (c.parityDelta s off a b).mem = c.mem := by
  unfold Cx.parityDelta
  split
  · rfl
  · split
    · rfl
    · split
      · rfl
      · simp only []
        split
        · split <;> simp
        · simp

theorem Cx.poke1_mem (c : Cx) (k : Nat) (b : Byte) : (c.poke1 k b).mem = kset 0#8 c.mem k b := by
  unfold Cx.poke1 Cx.putByte
  simp only []
  split <;> simp

theorem Cx.wf_poke1 (c : Cx) (k : Nat) (b : Byte) (h : Memory.wf c.mem = true) : Memory.wf (c.poke1 k b).mem = true := by
  rw [Cx.poke1_mem]; exact Memory.wf_kset _ _ _ h

theorem Cx.mem_foldl {α : Type} (l : List α) (f : Cx → α → Cx) (c : Cx) (h : ∀ c a, (f c a).mem = c.mem) :
    (l.foldl f c).mem = c.mem := by
  induction l generalizing c with
  | nil => rfl
  | cons a r ih => simp [List.foldl, ih, h]

theorem Cx.wf_foldl {α : Type} (l : List α) (f : Cx → α → Cx) (c : Cx) (h : Memory.wf c.mem = true)
    (hf : ∀ c a, Memory.wf c.mem = true → Memory.wf (f c a).mem = true) : Memory.wf (l.foldl f c).mem = true := by
  induction l generalizing c with
  | nil => exact h
  | cons a r ih => exact ih (f c a) (hf c a h)

/-- The fold of a write of consecutive bytes. -/
theorem Cx.wf_writeFold (bs : List Byte) (f : Cx → Nat → Byte → Cx) (c : Cx) (k : Nat) (h : Memory.wf c.mem = true)
    (hf : ∀ c k b, Memory.wf c.mem = true → Memory.wf (f c k b).mem = true) :
    Memory.wf (bs.foldl (fun (p : Cx × Nat) b => (f p.1 p.2 b, p.2 + 1)) (c, k)).1.mem = true := by
  induction bs generalizing c k with
  | nil => exact h
  | cons b r ih => exact ih (f c k b) (k + 1) (hf c k b h)

theorem Cx.wf_poke (c : Cx) (k : Nat) (bs : List Byte) (h : Memory.wf c.mem = true) :
    Memory.wf (c.poke k bs).mem = true := by
  unfold Cx.poke
  simp only []
  rw [Cx.mem_foldl _ _ _ (fun c a => Cx.clearPoison_mem c a)]
  exact Cx.wf_writeFold bs Cx.poke1 c k h Cx.wf_poke1

theorem Cx.wf_zero (c : Cx) (k n : Nat) (h : Memory.wf c.mem = true) : Memory.wf (c.zero k n).mem = true :=
  Cx.wf_poke c k _ h

theorem Cx.wf_markPoison (c : Cx) (k : Nat) (h : Memory.wf c.mem = true) : Memory.wf (c.markPoison k).mem = true := by
  unfold Cx.markPoison
  split
  · simp only []
    split
    · exact h
    · split
      · simpa using h
      · simpa using Cx.wf_clearRange c _ _ h
  · exact h

/-! ### The stack cache (R167 to R169) -/

theorem Cx.wf_hubPut (c : Cx) (k : Nat) (b : Byte) (h : Memory.wf c.mem = true) : Memory.wf (c.hubPut k b).mem = true := by
  unfold Cx.hubPut
  split
  · exact h
  · exact Cx.wf_poke1 c k b h

theorem Cx.wf_hubPoke (c : Cx) (k : Nat) (bs : List Byte) (h : Memory.wf c.mem = true) :
    Memory.wf (c.hubPoke k bs).mem = true := by
  unfold Cx.hubPoke
  have hw := Cx.wf_writeFold bs Cx.hubPut c k h Cx.wf_hubPut
  simp only []
  split
  · exact hw
  · rw [Cx.mem_foldl _ _ _ (fun c a => Cx.clearPoison_mem c a)]
    exact hw

theorem Cx.wf_writeBack (c : Cx) (sel : Nat → Bool) (h : Memory.wf c.mem = true) :
    Memory.wf (c.writeBack sel).mem = true := by
  unfold Cx.writeBack
  simp only []
  rw [Cx.mem_foldl _ _ _ (fun c a => Cx.clearPoison_mem c (a * 64))]
  exact Cx.wf_foldl _ _ _ h (fun c p hc => Cx.wf_poke1 c p.1 p.2 hc)

theorem Cx.wf_baseWrite (c : Cx) (k : Nat) (bs : List Byte) (h : Memory.wf c.mem = true) :
    Memory.wf (c.baseWrite k bs).mem = true := Cx.wf_writeBack _ _ (Cx.wf_poke c k bs h)

theorem Cx.wf_flushChannel (c : Cx) (g : Nat) (h : Memory.wf c.mem = true) : Memory.wf (c.flushChannel g).mem = true :=
  Cx.wf_writeBack _ _ h

theorem Cx.wf_writeAt (c : Cx) (a : Nat) (bs : List Byte) (h : Memory.wf c.mem = true) :
    Memory.wf (c.writeAt a bs).mem = true := by
  unfold Cx.writeAt
  split
  · exact Cx.wf_writeFold bs (fun c i b => c.hubPut (c.keyAt a i) b) c 0 h (fun c i b hc => Cx.wf_hubPut c _ b hc)
  · exact Cx.wf_hubPoke c _ bs h

/-- Reset memory has the canonical form. -/
theorem reset_memory_wf : Memory.wf State.reset.cx.mem = true := rfl

end Sys2Proof.Machine
end

