-- ==== Sys2Proof/Laws/Frames.lean ====
section
/-!
SUPPORT. Frames of the shared operations: what raising an event, counting and writing memory leave as they were.
-/
namespace Sys2Proof.Machine

/-! ### MSI-X messages and events -/

@[simp] theorem Cx.msix_dirty (c : Cx) (p : Side) (v : Nat) : (c.msix p v).dirty = c.dirty := by
  unfold Cx.msix; dsimp only; split
  · exact Cx.modPort_dirty _ _ _
  · split <;> rfl
@[simp] theorem Cx.msix_poison (c : Cx) (p : Side) (v : Nat) : (c.msix p v).poison = c.poison := by
  unfold Cx.msix; dsimp only; split
  · exact Cx.modPort_poison _ _ _
  · split <;> rfl
@[simp] theorem Cx.msix_eccUnknown (c : Cx) (p : Side) (v : Nat) : (c.msix p v).eccUnknown = c.eccUnknown := by
  unfold Cx.msix; dsimp only; split
  · exact Cx.modPort_eccUnknown _ _ _
  · split <;> rfl
@[simp] theorem Cx.msix_regs (c : Cx) (p : Side) (v : Nat) : (c.msix p v).regs = c.regs := by
  unfold Cx.msix; dsimp only; split
  · exact Cx.modPort_regs _ _ _
  · split <;> rfl
@[simp] theorem Cx.msix_ctrs (c : Cx) (p : Side) (v : Nat) : (c.msix p v).ctrs = c.ctrs := by
  unfold Cx.msix; dsimp only; split
  · exact Cx.modPort_ctrs _ _ _
  · split <;> rfl
@[simp] theorem Cx.msix_dieA (c : Cx) (p : Side) (v : Nat) : (c.msix p v).dieA = c.dieA := by
  unfold Cx.msix; dsimp only; split
  · exact Cx.modPort_dieA _ _ _
  · split <;> rfl
@[simp] theorem Cx.msix_dieB (c : Cx) (p : Side) (v : Nat) : (c.msix p v).dieB = c.dieB := by
  unfold Cx.msix; dsimp only; split
  · exact Cx.modPort_dieB _ _ _
  · split <;> rfl
@[simp] theorem Cx.msix_bridge (c : Cx) (p : Side) (v : Nat) : (c.msix p v).bridge = c.bridge := by
  unfold Cx.msix; dsimp only; split
  · exact Cx.modPort_bridge _ _ _
  · split <;> rfl
@[simp] theorem Cx.msix_modules (c : Cx) (p : Side) (v : Nat) : (c.msix p v).modules = c.modules := by
  unfold Cx.msix; dsimp only; split
  · exact Cx.modPort_modules _ _ _
  · split <;> rfl
@[simp] theorem Cx.msix_master (c : Cx) (p : Side) (v : Nat) : (c.msix p v).master = c.master := by
  unfold Cx.msix; dsimp only; split
  · exact Cx.modPort_master _ _ _
  · split <;> rfl
@[simp] theorem Cx.msix_img (c : Cx) (p : Side) (v : Nat) : (c.msix p v).img = c.img := by
  unfold Cx.msix; dsimp only; split
  · exact Cx.modPort_img _ _ _
  · split <;> rfl
@[simp] theorem Cx.msix_wins (c : Cx) (p : Side) (v : Nat) : (c.msix p v).wins = c.wins := by
  unfold Cx.msix; dsimp only; split
  · exact Cx.modPort_wins _ _ _
  · split <;> rfl
@[simp] theorem Cx.msix_verdicts (c : Cx) (p : Side) (v : Nat) : (c.msix p v).verdicts = c.verdicts := by
  unfold Cx.msix; dsimp only; split
  · exact Cx.modPort_verdicts _ _ _
  · split <;> rfl
@[simp] theorem Cx.msix_abandoned (c : Cx) (p : Side) (v : Nat) : (c.msix p v).abandoned = c.abandoned := by
  unfold Cx.msix; dsimp only; split
  · exact Cx.modPort_abandoned _ _ _
  · split <;> rfl
@[simp] theorem Cx.msix_binding (c : Cx) (p : Side) (v : Nat) : (c.msix p v).binding = c.binding := by
  unfold Cx.msix; dsimp only; split
  · exact Cx.modPort_binding _ _ _
  · split <;> rfl
@[simp] theorem Cx.msix_charge (c : Cx) (p : Side) (v : Nat) : (c.msix p v).charge = c.charge := by
  unfold Cx.msix; dsimp only; split
  · exact Cx.modPort_charge _ _ _
  · split <;> rfl
@[simp] theorem Cx.msix_quotaSaid (c : Cx) (p : Side) (v : Nat) : (c.msix p v).quotaSaid = c.quotaSaid := by
  unfold Cx.msix; dsimp only; split
  · exact Cx.modPort_quotaSaid _ _ _
  · split <;> rfl
@[simp] theorem Cx.msix_keys (c : Cx) (p : Side) (v : Nat) : (c.msix p v).keys = c.keys := by
  unfold Cx.msix; dsimp only; split
  · exact Cx.modPort_keys _ _ _
  · split <;> rfl
@[simp] theorem Cx.msix_keyWords (c : Cx) (p : Side) (v : Nat) : (c.msix p v).keyWords = c.keyWords := by
  unfold Cx.msix; dsimp only; split
  · exact Cx.modPort_keyWords _ _ _
  · split <;> rfl
@[simp] theorem Cx.msix_streams (c : Cx) (p : Side) (v : Nat) : (c.msix p v).streams = c.streams := by
  unfold Cx.msix; dsimp only; split
  · exact Cx.modPort_streams _ _ _
  · split <;> rfl
@[simp] theorem Cx.msix_syncs (c : Cx) (p : Side) (v : Nat) : (c.msix p v).syncs = c.syncs := by
  unfold Cx.msix; dsimp only; split
  · exact Cx.modPort_syncs _ _ _
  · split <;> rfl
@[simp] theorem Cx.msix_queues (c : Cx) (p : Side) (v : Nat) : (c.msix p v).queues = c.queues := by
  unfold Cx.msix; dsimp only; split
  · exact Cx.modPort_queues _ _ _
  · split <;> rfl
@[simp] theorem Cx.msix_turns (c : Cx) (p : Side) (v : Nat) : (c.msix p v).turns = c.turns := by
  unfold Cx.msix; dsimp only; split
  · exact Cx.modPort_turns _ _ _
  · split <;> rfl
@[simp] theorem Cx.msix_holds (c : Cx) (p : Side) (v : Nat) : (c.msix p v).holds = c.holds := by
  unfold Cx.msix; dsimp only; split
  · exact Cx.modPort_holds _ _ _
  · split <;> rfl
@[simp] theorem Cx.msix_acc (c : Cx) (p : Side) (v : Nat) : (c.msix p v).acc = c.acc := by
  unfold Cx.msix; dsimp only; split
  · exact Cx.modPort_acc _ _ _
  · split <;> rfl
@[simp] theorem Cx.msix_arrivals (c : Cx) (p : Side) (v : Nat) : (c.msix p v).arrivals = c.arrivals := by
  unfold Cx.msix; dsimp only; split
  · exact Cx.modPort_arrivals _ _ _
  · split <;> rfl
@[simp] theorem Cx.msix_seqs (c : Cx) (p : Side) (v : Nat) : (c.msix p v).seqs = c.seqs := by
  unfold Cx.msix; dsimp only; split
  · exact Cx.modPort_seqs _ _ _
  · split <;> rfl
@[simp] theorem Cx.msix_gradHeld (c : Cx) (p : Side) (v : Nat) : (c.msix p v).gradHeld = c.gradHeld := by
  unfold Cx.msix; dsimp only; split
  · exact Cx.modPort_gradHeld _ _ _
  · split <;> rfl
@[simp] theorem Cx.msix_gatherHeld (c : Cx) (p : Side) (v : Nat) : (c.msix p v).gatherHeld = c.gatherHeld := by
  unfold Cx.msix; dsimp only; split
  · exact Cx.modPort_gatherHeld _ _ _
  · split <;> rfl
@[simp] theorem Cx.msix_finals (c : Cx) (p : Side) (v : Nat) : (c.msix p v).finals = c.finals := by
  unfold Cx.msix; dsimp only; split
  · exact Cx.modPort_finals _ _ _
  · split <;> rfl
@[simp] theorem Cx.msix_stks (c : Cx) (p : Side) (v : Nat) : (c.msix p v).stks = c.stks := by
  unfold Cx.msix; dsimp only; split
  · exact Cx.modPort_stks _ _ _
  · split <;> rfl
@[simp] theorem Cx.msix_newts (c : Cx) (p : Side) (v : Nat) : (c.msix p v).newts = c.newts := by
  unfold Cx.msix; dsimp only; split
  · exact Cx.modPort_newts _ _ _
  · split <;> rfl
@[simp] theorem Cx.msix_journal (c : Cx) (p : Side) (v : Nat) : (c.msix p v).journal = c.journal := by
  unfold Cx.msix; dsimp only; split
  · exact Cx.modPort_journal _ _ _
  · split <;> rfl
@[simp] theorem Cx.msix_ports (c : Cx) (p : Side) (v : Nat) : (c.msix p v).ports = c.ports := by
  unfold Cx.msix; dsimp only; split
  · exact Cx.modPort_ports _ _ _
  · split <;> rfl
@[simp] theorem Cx.msix_fab (c : Cx) (p : Side) (v : Nat) : (c.msix p v).fab = c.fab := by
  unfold Cx.msix; dsimp only; split
  · exact Cx.modPort_fab _ _ _
  · split <;> rfl
@[simp] theorem Cx.msix_gov (c : Cx) (p : Side) (v : Nat) : (c.msix p v).gov = c.gov := by
  unfold Cx.msix; dsimp only; split
  · exact Cx.modPort_gov _ _ _
  · split <;> rfl
@[simp] theorem Cx.msix_ticks (c : Cx) (p : Side) (v : Nat) : (c.msix p v).ticks = c.ticks := by
  unfold Cx.msix; dsimp only; split
  · exact Cx.modPort_ticks _ _ _
  · split <;> rfl
@[simp] theorem Cx.msix_attCtx (c : Cx) (p : Side) (v : Nat) : (c.msix p v).attCtx = c.attCtx := by
  unfold Cx.msix; dsimp only; split
  · exact Cx.modPort_attCtx _ _ _
  · split <;> rfl
@[simp] theorem Cx.msix_free (c : Cx) (p : Side) (v : Nat) : (c.msix p v).free = c.free := by
  unfold Cx.msix; dsimp only; split
  · exact Cx.modPort_free _ _ _
  · split <;> rfl
@[simp] theorem Cx.raise_dirty (c : Cx) (e : Ev) : (c.raise e).dirty = c.dirty := by
  unfold Cx.raise; dsimp only; split
  · (repeat' split) <;> simp
  · rfl
@[simp] theorem Cx.raise_poison (c : Cx) (e : Ev) : (c.raise e).poison = c.poison := by
  unfold Cx.raise; dsimp only; split
  · (repeat' split) <;> simp
  · rfl
@[simp] theorem Cx.raise_eccUnknown (c : Cx) (e : Ev) : (c.raise e).eccUnknown = c.eccUnknown := by
  unfold Cx.raise; dsimp only; split
  · (repeat' split) <;> simp
  · rfl
@[simp] theorem Cx.raise_regs (c : Cx) (e : Ev) : (c.raise e).regs = c.regs := by
  unfold Cx.raise; dsimp only; split
  · (repeat' split) <;> simp
  · rfl
@[simp] theorem Cx.raise_ctrs (c : Cx) (e : Ev) : (c.raise e).ctrs = c.ctrs := by
  unfold Cx.raise; dsimp only; split
  · (repeat' split) <;> simp
  · rfl
@[simp] theorem Cx.raise_dieA (c : Cx) (e : Ev) : (c.raise e).dieA = c.dieA := by
  unfold Cx.raise; dsimp only; split
  · (repeat' split) <;> simp
  · rfl
@[simp] theorem Cx.raise_dieB (c : Cx) (e : Ev) : (c.raise e).dieB = c.dieB := by
  unfold Cx.raise; dsimp only; split
  · (repeat' split) <;> simp
  · rfl
@[simp] theorem Cx.raise_bridge (c : Cx) (e : Ev) : (c.raise e).bridge = c.bridge := by
  unfold Cx.raise; dsimp only; split
  · (repeat' split) <;> simp
  · rfl
@[simp] theorem Cx.raise_modules (c : Cx) (e : Ev) : (c.raise e).modules = c.modules := by
  unfold Cx.raise; dsimp only; split
  · (repeat' split) <;> simp
  · rfl
@[simp] theorem Cx.raise_master (c : Cx) (e : Ev) : (c.raise e).master = c.master := by
  unfold Cx.raise; dsimp only; split
  · (repeat' split) <;> simp
  · rfl
@[simp] theorem Cx.raise_img (c : Cx) (e : Ev) : (c.raise e).img = c.img := by
  unfold Cx.raise; dsimp only; split
  · (repeat' split) <;> simp
  · rfl
@[simp] theorem Cx.raise_wins (c : Cx) (e : Ev) : (c.raise e).wins = c.wins := by
  unfold Cx.raise; dsimp only; split
  · (repeat' split) <;> simp
  · rfl
@[simp] theorem Cx.raise_verdicts (c : Cx) (e : Ev) : (c.raise e).verdicts = c.verdicts := by
  unfold Cx.raise; dsimp only; split
  · (repeat' split) <;> simp
  · rfl
@[simp] theorem Cx.raise_abandoned (c : Cx) (e : Ev) : (c.raise e).abandoned = c.abandoned := by
  unfold Cx.raise; dsimp only; split
  · (repeat' split) <;> simp
  · rfl
@[simp] theorem Cx.raise_binding (c : Cx) (e : Ev) : (c.raise e).binding = c.binding := by
  unfold Cx.raise; dsimp only; split
  · (repeat' split) <;> simp
  · rfl
@[simp] theorem Cx.raise_charge (c : Cx) (e : Ev) : (c.raise e).charge = c.charge := by
  unfold Cx.raise; dsimp only; split
  · (repeat' split) <;> simp
  · rfl
@[simp] theorem Cx.raise_quotaSaid (c : Cx) (e : Ev) : (c.raise e).quotaSaid = c.quotaSaid := by
  unfold Cx.raise; dsimp only; split
  · (repeat' split) <;> simp
  · rfl
@[simp] theorem Cx.raise_keys (c : Cx) (e : Ev) : (c.raise e).keys = c.keys := by
  unfold Cx.raise; dsimp only; split
  · (repeat' split) <;> simp
  · rfl
@[simp] theorem Cx.raise_keyWords (c : Cx) (e : Ev) : (c.raise e).keyWords = c.keyWords := by
  unfold Cx.raise; dsimp only; split
  · (repeat' split) <;> simp
  · rfl
@[simp] theorem Cx.raise_streams (c : Cx) (e : Ev) : (c.raise e).streams = c.streams := by
  unfold Cx.raise; dsimp only; split
  · (repeat' split) <;> simp
  · rfl
@[simp] theorem Cx.raise_syncs (c : Cx) (e : Ev) : (c.raise e).syncs = c.syncs := by
  unfold Cx.raise; dsimp only; split
  · (repeat' split) <;> simp
  · rfl
@[simp] theorem Cx.raise_queues (c : Cx) (e : Ev) : (c.raise e).queues = c.queues := by
  unfold Cx.raise; dsimp only; split
  · (repeat' split) <;> simp
  · rfl
@[simp] theorem Cx.raise_turns (c : Cx) (e : Ev) : (c.raise e).turns = c.turns := by
  unfold Cx.raise; dsimp only; split
  · (repeat' split) <;> simp
  · rfl
@[simp] theorem Cx.raise_holds (c : Cx) (e : Ev) : (c.raise e).holds = c.holds := by
  unfold Cx.raise; dsimp only; split
  · (repeat' split) <;> simp
  · rfl
@[simp] theorem Cx.raise_acc (c : Cx) (e : Ev) : (c.raise e).acc = c.acc := by
  unfold Cx.raise; dsimp only; split
  · (repeat' split) <;> simp
  · rfl
@[simp] theorem Cx.raise_arrivals (c : Cx) (e : Ev) : (c.raise e).arrivals = c.arrivals := by
  unfold Cx.raise; dsimp only; split
  · (repeat' split) <;> simp
  · rfl
@[simp] theorem Cx.raise_seqs (c : Cx) (e : Ev) : (c.raise e).seqs = c.seqs := by
  unfold Cx.raise; dsimp only; split
  · (repeat' split) <;> simp
  · rfl
@[simp] theorem Cx.raise_gradHeld (c : Cx) (e : Ev) : (c.raise e).gradHeld = c.gradHeld := by
  unfold Cx.raise; dsimp only; split
  · (repeat' split) <;> simp
  · rfl
@[simp] theorem Cx.raise_gatherHeld (c : Cx) (e : Ev) : (c.raise e).gatherHeld = c.gatherHeld := by
  unfold Cx.raise; dsimp only; split
  · (repeat' split) <;> simp
  · rfl
@[simp] theorem Cx.raise_finals (c : Cx) (e : Ev) : (c.raise e).finals = c.finals := by
  unfold Cx.raise; dsimp only; split
  · (repeat' split) <;> simp
  · rfl
@[simp] theorem Cx.raise_stks (c : Cx) (e : Ev) : (c.raise e).stks = c.stks := by
  unfold Cx.raise; dsimp only; split
  · (repeat' split) <;> simp
  · rfl
@[simp] theorem Cx.raise_newts (c : Cx) (e : Ev) : (c.raise e).newts = c.newts := by
  unfold Cx.raise; dsimp only; split
  · (repeat' split) <;> simp
  · rfl
@[simp] theorem Cx.raise_journal (c : Cx) (e : Ev) : (c.raise e).journal = c.journal := by
  unfold Cx.raise; dsimp only; split
  · (repeat' split) <;> simp
  · rfl
@[simp] theorem Cx.raise_ports (c : Cx) (e : Ev) : (c.raise e).ports = c.ports := by
  unfold Cx.raise; dsimp only; split
  · (repeat' split) <;> simp
  · rfl
@[simp] theorem Cx.raise_fab (c : Cx) (e : Ev) : (c.raise e).fab = c.fab := by
  unfold Cx.raise; dsimp only; split
  · (repeat' split) <;> simp
  · rfl
@[simp] theorem Cx.raise_gov (c : Cx) (e : Ev) : (c.raise e).gov = c.gov := by
  unfold Cx.raise; dsimp only; split
  · (repeat' split) <;> simp
  · rfl
@[simp] theorem Cx.raise_ticks (c : Cx) (e : Ev) : (c.raise e).ticks = c.ticks := by
  unfold Cx.raise; dsimp only; split
  · (repeat' split) <;> simp
  · rfl
@[simp] theorem Cx.raise_attCtx (c : Cx) (e : Ev) : (c.raise e).attCtx = c.attCtx := by
  unfold Cx.raise; dsimp only; split
  · (repeat' split) <;> simp
  · rfl
@[simp] theorem Cx.raise_free (c : Cx) (e : Ev) : (c.raise e).free = c.free := by
  unfold Cx.raise; dsimp only; split
  · (repeat' split) <;> simp
  · rfl
@[simp] theorem Cx.ev_dirty (c : Cx) (code cls sev : Nat) (d : Side) (idx : Nat) (fs : List Nat) (st : Option Step)
    (t : Option Nat) : (c.ev code cls sev d idx fs st t).dirty = c.dirty := Cx.raise_dirty _ _
@[simp] theorem Cx.ev_poison (c : Cx) (code cls sev : Nat) (d : Side) (idx : Nat) (fs : List Nat) (st : Option Step)
    (t : Option Nat) : (c.ev code cls sev d idx fs st t).poison = c.poison := Cx.raise_poison _ _
@[simp] theorem Cx.ev_eccUnknown (c : Cx) (code cls sev : Nat) (d : Side) (idx : Nat) (fs : List Nat) (st : Option Step)
    (t : Option Nat) : (c.ev code cls sev d idx fs st t).eccUnknown = c.eccUnknown := Cx.raise_eccUnknown _ _
@[simp] theorem Cx.ev_regs (c : Cx) (code cls sev : Nat) (d : Side) (idx : Nat) (fs : List Nat) (st : Option Step)
    (t : Option Nat) : (c.ev code cls sev d idx fs st t).regs = c.regs := Cx.raise_regs _ _
@[simp] theorem Cx.ev_ctrs (c : Cx) (code cls sev : Nat) (d : Side) (idx : Nat) (fs : List Nat) (st : Option Step)
    (t : Option Nat) : (c.ev code cls sev d idx fs st t).ctrs = c.ctrs := Cx.raise_ctrs _ _
@[simp] theorem Cx.ev_dieA (c : Cx) (code cls sev : Nat) (d : Side) (idx : Nat) (fs : List Nat) (st : Option Step)
    (t : Option Nat) : (c.ev code cls sev d idx fs st t).dieA = c.dieA := Cx.raise_dieA _ _
@[simp] theorem Cx.ev_dieB (c : Cx) (code cls sev : Nat) (d : Side) (idx : Nat) (fs : List Nat) (st : Option Step)
    (t : Option Nat) : (c.ev code cls sev d idx fs st t).dieB = c.dieB := Cx.raise_dieB _ _
@[simp] theorem Cx.ev_bridge (c : Cx) (code cls sev : Nat) (d : Side) (idx : Nat) (fs : List Nat) (st : Option Step)
    (t : Option Nat) : (c.ev code cls sev d idx fs st t).bridge = c.bridge := Cx.raise_bridge _ _
@[simp] theorem Cx.ev_modules (c : Cx) (code cls sev : Nat) (d : Side) (idx : Nat) (fs : List Nat) (st : Option Step)
    (t : Option Nat) : (c.ev code cls sev d idx fs st t).modules = c.modules := Cx.raise_modules _ _
@[simp] theorem Cx.ev_master (c : Cx) (code cls sev : Nat) (d : Side) (idx : Nat) (fs : List Nat) (st : Option Step)
    (t : Option Nat) : (c.ev code cls sev d idx fs st t).master = c.master := Cx.raise_master _ _
@[simp] theorem Cx.ev_img (c : Cx) (code cls sev : Nat) (d : Side) (idx : Nat) (fs : List Nat) (st : Option Step)
    (t : Option Nat) : (c.ev code cls sev d idx fs st t).img = c.img := Cx.raise_img _ _
@[simp] theorem Cx.ev_wins (c : Cx) (code cls sev : Nat) (d : Side) (idx : Nat) (fs : List Nat) (st : Option Step)
    (t : Option Nat) : (c.ev code cls sev d idx fs st t).wins = c.wins := Cx.raise_wins _ _
@[simp] theorem Cx.ev_verdicts (c : Cx) (code cls sev : Nat) (d : Side) (idx : Nat) (fs : List Nat) (st : Option Step)
    (t : Option Nat) : (c.ev code cls sev d idx fs st t).verdicts = c.verdicts := Cx.raise_verdicts _ _
@[simp] theorem Cx.ev_abandoned (c : Cx) (code cls sev : Nat) (d : Side) (idx : Nat) (fs : List Nat) (st : Option Step)
    (t : Option Nat) : (c.ev code cls sev d idx fs st t).abandoned = c.abandoned := Cx.raise_abandoned _ _
@[simp] theorem Cx.ev_binding (c : Cx) (code cls sev : Nat) (d : Side) (idx : Nat) (fs : List Nat) (st : Option Step)
    (t : Option Nat) : (c.ev code cls sev d idx fs st t).binding = c.binding := Cx.raise_binding _ _
@[simp] theorem Cx.ev_charge (c : Cx) (code cls sev : Nat) (d : Side) (idx : Nat) (fs : List Nat) (st : Option Step)
    (t : Option Nat) : (c.ev code cls sev d idx fs st t).charge = c.charge := Cx.raise_charge _ _
@[simp] theorem Cx.ev_quotaSaid (c : Cx) (code cls sev : Nat) (d : Side) (idx : Nat) (fs : List Nat) (st : Option Step)
    (t : Option Nat) : (c.ev code cls sev d idx fs st t).quotaSaid = c.quotaSaid := Cx.raise_quotaSaid _ _
@[simp] theorem Cx.ev_keys (c : Cx) (code cls sev : Nat) (d : Side) (idx : Nat) (fs : List Nat) (st : Option Step)
    (t : Option Nat) : (c.ev code cls sev d idx fs st t).keys = c.keys := Cx.raise_keys _ _
@[simp] theorem Cx.ev_keyWords (c : Cx) (code cls sev : Nat) (d : Side) (idx : Nat) (fs : List Nat) (st : Option Step)
    (t : Option Nat) : (c.ev code cls sev d idx fs st t).keyWords = c.keyWords := Cx.raise_keyWords _ _
@[simp] theorem Cx.ev_streams (c : Cx) (code cls sev : Nat) (d : Side) (idx : Nat) (fs : List Nat) (st : Option Step)
    (t : Option Nat) : (c.ev code cls sev d idx fs st t).streams = c.streams := Cx.raise_streams _ _
@[simp] theorem Cx.ev_syncs (c : Cx) (code cls sev : Nat) (d : Side) (idx : Nat) (fs : List Nat) (st : Option Step)
    (t : Option Nat) : (c.ev code cls sev d idx fs st t).syncs = c.syncs := Cx.raise_syncs _ _
@[simp] theorem Cx.ev_queues (c : Cx) (code cls sev : Nat) (d : Side) (idx : Nat) (fs : List Nat) (st : Option Step)
    (t : Option Nat) : (c.ev code cls sev d idx fs st t).queues = c.queues := Cx.raise_queues _ _
@[simp] theorem Cx.ev_turns (c : Cx) (code cls sev : Nat) (d : Side) (idx : Nat) (fs : List Nat) (st : Option Step)
    (t : Option Nat) : (c.ev code cls sev d idx fs st t).turns = c.turns := Cx.raise_turns _ _
@[simp] theorem Cx.ev_holds (c : Cx) (code cls sev : Nat) (d : Side) (idx : Nat) (fs : List Nat) (st : Option Step)
    (t : Option Nat) : (c.ev code cls sev d idx fs st t).holds = c.holds := Cx.raise_holds _ _
@[simp] theorem Cx.ev_acc (c : Cx) (code cls sev : Nat) (d : Side) (idx : Nat) (fs : List Nat) (st : Option Step)
    (t : Option Nat) : (c.ev code cls sev d idx fs st t).acc = c.acc := Cx.raise_acc _ _
@[simp] theorem Cx.ev_arrivals (c : Cx) (code cls sev : Nat) (d : Side) (idx : Nat) (fs : List Nat) (st : Option Step)
    (t : Option Nat) : (c.ev code cls sev d idx fs st t).arrivals = c.arrivals := Cx.raise_arrivals _ _
@[simp] theorem Cx.ev_seqs (c : Cx) (code cls sev : Nat) (d : Side) (idx : Nat) (fs : List Nat) (st : Option Step)
    (t : Option Nat) : (c.ev code cls sev d idx fs st t).seqs = c.seqs := Cx.raise_seqs _ _
@[simp] theorem Cx.ev_gradHeld (c : Cx) (code cls sev : Nat) (d : Side) (idx : Nat) (fs : List Nat) (st : Option Step)
    (t : Option Nat) : (c.ev code cls sev d idx fs st t).gradHeld = c.gradHeld := Cx.raise_gradHeld _ _
@[simp] theorem Cx.ev_gatherHeld (c : Cx) (code cls sev : Nat) (d : Side) (idx : Nat) (fs : List Nat) (st : Option Step)
    (t : Option Nat) : (c.ev code cls sev d idx fs st t).gatherHeld = c.gatherHeld := Cx.raise_gatherHeld _ _
@[simp] theorem Cx.ev_finals (c : Cx) (code cls sev : Nat) (d : Side) (idx : Nat) (fs : List Nat) (st : Option Step)
    (t : Option Nat) : (c.ev code cls sev d idx fs st t).finals = c.finals := Cx.raise_finals _ _
@[simp] theorem Cx.ev_stks (c : Cx) (code cls sev : Nat) (d : Side) (idx : Nat) (fs : List Nat) (st : Option Step)
    (t : Option Nat) : (c.ev code cls sev d idx fs st t).stks = c.stks := Cx.raise_stks _ _
@[simp] theorem Cx.ev_newts (c : Cx) (code cls sev : Nat) (d : Side) (idx : Nat) (fs : List Nat) (st : Option Step)
    (t : Option Nat) : (c.ev code cls sev d idx fs st t).newts = c.newts := Cx.raise_newts _ _
@[simp] theorem Cx.ev_journal (c : Cx) (code cls sev : Nat) (d : Side) (idx : Nat) (fs : List Nat) (st : Option Step)
    (t : Option Nat) : (c.ev code cls sev d idx fs st t).journal = c.journal := Cx.raise_journal _ _
@[simp] theorem Cx.ev_ports (c : Cx) (code cls sev : Nat) (d : Side) (idx : Nat) (fs : List Nat) (st : Option Step)
    (t : Option Nat) : (c.ev code cls sev d idx fs st t).ports = c.ports := Cx.raise_ports _ _
@[simp] theorem Cx.ev_fab (c : Cx) (code cls sev : Nat) (d : Side) (idx : Nat) (fs : List Nat) (st : Option Step)
    (t : Option Nat) : (c.ev code cls sev d idx fs st t).fab = c.fab := Cx.raise_fab _ _
@[simp] theorem Cx.ev_gov (c : Cx) (code cls sev : Nat) (d : Side) (idx : Nat) (fs : List Nat) (st : Option Step)
    (t : Option Nat) : (c.ev code cls sev d idx fs st t).gov = c.gov := Cx.raise_gov _ _
@[simp] theorem Cx.ev_ticks (c : Cx) (code cls sev : Nat) (d : Side) (idx : Nat) (fs : List Nat) (st : Option Step)
    (t : Option Nat) : (c.ev code cls sev d idx fs st t).ticks = c.ticks := Cx.raise_ticks _ _
@[simp] theorem Cx.ev_attCtx (c : Cx) (code cls sev : Nat) (d : Side) (idx : Nat) (fs : List Nat) (st : Option Step)
    (t : Option Nat) : (c.ev code cls sev d idx fs st t).attCtx = c.attCtx := Cx.raise_attCtx _ _
@[simp] theorem Cx.ev_free (c : Cx) (code cls sev : Nat) (d : Side) (idx : Nat) (fs : List Nat) (st : Option Step)
    (t : Option Nat) : (c.ev code cls sev d idx fs st t).free = c.free := Cx.raise_free _ _

/-! ### Counters -/

@[simp] theorem Cx.bump_dirty (c : Cx) (off width : Nat) (d : Side) (n : Nat) : (c.bump off width d n).dirty = c.dirty := by
  unfold Cx.bump; dsimp only; split <;> simp [Cx.saturated]
@[simp] theorem Cx.bump_poison (c : Cx) (off width : Nat) (d : Side) (n : Nat) : (c.bump off width d n).poison = c.poison := by
  unfold Cx.bump; dsimp only; split <;> simp [Cx.saturated]
@[simp] theorem Cx.bump_eccUnknown (c : Cx) (off width : Nat) (d : Side) (n : Nat) : (c.bump off width d n).eccUnknown = c.eccUnknown := by
  unfold Cx.bump; dsimp only; split <;> simp [Cx.saturated]
@[simp] theorem Cx.bump_regs (c : Cx) (off width : Nat) (d : Side) (n : Nat) : (c.bump off width d n).regs = c.regs := by
  unfold Cx.bump; dsimp only; split <;> simp [Cx.saturated]
@[simp] theorem Cx.bump_dieA (c : Cx) (off width : Nat) (d : Side) (n : Nat) : (c.bump off width d n).dieA = c.dieA := by
  unfold Cx.bump; dsimp only; split <;> simp [Cx.saturated]
@[simp] theorem Cx.bump_dieB (c : Cx) (off width : Nat) (d : Side) (n : Nat) : (c.bump off width d n).dieB = c.dieB := by
  unfold Cx.bump; dsimp only; split <;> simp [Cx.saturated]
@[simp] theorem Cx.bump_bridge (c : Cx) (off width : Nat) (d : Side) (n : Nat) : (c.bump off width d n).bridge = c.bridge := by
  unfold Cx.bump; dsimp only; split <;> simp [Cx.saturated]
@[simp] theorem Cx.bump_modules (c : Cx) (off width : Nat) (d : Side) (n : Nat) : (c.bump off width d n).modules = c.modules := by
  unfold Cx.bump; dsimp only; split <;> simp [Cx.saturated]
@[simp] theorem Cx.bump_master (c : Cx) (off width : Nat) (d : Side) (n : Nat) : (c.bump off width d n).master = c.master := by
  unfold Cx.bump; dsimp only; split <;> simp [Cx.saturated]
@[simp] theorem Cx.bump_img (c : Cx) (off width : Nat) (d : Side) (n : Nat) : (c.bump off width d n).img = c.img := by
  unfold Cx.bump; dsimp only; split <;> simp [Cx.saturated]
@[simp] theorem Cx.bump_wins (c : Cx) (off width : Nat) (d : Side) (n : Nat) : (c.bump off width d n).wins = c.wins := by
  unfold Cx.bump; dsimp only; split <;> simp [Cx.saturated]
@[simp] theorem Cx.bump_verdicts (c : Cx) (off width : Nat) (d : Side) (n : Nat) : (c.bump off width d n).verdicts = c.verdicts := by
  unfold Cx.bump; dsimp only; split <;> simp [Cx.saturated]
@[simp] theorem Cx.bump_abandoned (c : Cx) (off width : Nat) (d : Side) (n : Nat) : (c.bump off width d n).abandoned = c.abandoned := by
  unfold Cx.bump; dsimp only; split <;> simp [Cx.saturated]
@[simp] theorem Cx.bump_binding (c : Cx) (off width : Nat) (d : Side) (n : Nat) : (c.bump off width d n).binding = c.binding := by
  unfold Cx.bump; dsimp only; split <;> simp [Cx.saturated]
@[simp] theorem Cx.bump_charge (c : Cx) (off width : Nat) (d : Side) (n : Nat) : (c.bump off width d n).charge = c.charge := by
  unfold Cx.bump; dsimp only; split <;> simp [Cx.saturated]
@[simp] theorem Cx.bump_quotaSaid (c : Cx) (off width : Nat) (d : Side) (n : Nat) : (c.bump off width d n).quotaSaid = c.quotaSaid := by
  unfold Cx.bump; dsimp only; split <;> simp [Cx.saturated]
@[simp] theorem Cx.bump_keys (c : Cx) (off width : Nat) (d : Side) (n : Nat) : (c.bump off width d n).keys = c.keys := by
  unfold Cx.bump; dsimp only; split <;> simp [Cx.saturated]
@[simp] theorem Cx.bump_keyWords (c : Cx) (off width : Nat) (d : Side) (n : Nat) : (c.bump off width d n).keyWords = c.keyWords := by
  unfold Cx.bump; dsimp only; split <;> simp [Cx.saturated]
@[simp] theorem Cx.bump_streams (c : Cx) (off width : Nat) (d : Side) (n : Nat) : (c.bump off width d n).streams = c.streams := by
  unfold Cx.bump; dsimp only; split <;> simp [Cx.saturated]
@[simp] theorem Cx.bump_syncs (c : Cx) (off width : Nat) (d : Side) (n : Nat) : (c.bump off width d n).syncs = c.syncs := by
  unfold Cx.bump; dsimp only; split <;> simp [Cx.saturated]
@[simp] theorem Cx.bump_queues (c : Cx) (off width : Nat) (d : Side) (n : Nat) : (c.bump off width d n).queues = c.queues := by
  unfold Cx.bump; dsimp only; split <;> simp [Cx.saturated]
@[simp] theorem Cx.bump_turns (c : Cx) (off width : Nat) (d : Side) (n : Nat) : (c.bump off width d n).turns = c.turns := by
  unfold Cx.bump; dsimp only; split <;> simp [Cx.saturated]
@[simp] theorem Cx.bump_holds (c : Cx) (off width : Nat) (d : Side) (n : Nat) : (c.bump off width d n).holds = c.holds := by
  unfold Cx.bump; dsimp only; split <;> simp [Cx.saturated]
@[simp] theorem Cx.bump_acc (c : Cx) (off width : Nat) (d : Side) (n : Nat) : (c.bump off width d n).acc = c.acc := by
  unfold Cx.bump; dsimp only; split <;> simp [Cx.saturated]
@[simp] theorem Cx.bump_arrivals (c : Cx) (off width : Nat) (d : Side) (n : Nat) : (c.bump off width d n).arrivals = c.arrivals := by
  unfold Cx.bump; dsimp only; split <;> simp [Cx.saturated]
@[simp] theorem Cx.bump_seqs (c : Cx) (off width : Nat) (d : Side) (n : Nat) : (c.bump off width d n).seqs = c.seqs := by
  unfold Cx.bump; dsimp only; split <;> simp [Cx.saturated]
@[simp] theorem Cx.bump_gradHeld (c : Cx) (off width : Nat) (d : Side) (n : Nat) : (c.bump off width d n).gradHeld = c.gradHeld := by
  unfold Cx.bump; dsimp only; split <;> simp [Cx.saturated]
@[simp] theorem Cx.bump_gatherHeld (c : Cx) (off width : Nat) (d : Side) (n : Nat) : (c.bump off width d n).gatherHeld = c.gatherHeld := by
  unfold Cx.bump; dsimp only; split <;> simp [Cx.saturated]
@[simp] theorem Cx.bump_finals (c : Cx) (off width : Nat) (d : Side) (n : Nat) : (c.bump off width d n).finals = c.finals := by
  unfold Cx.bump; dsimp only; split <;> simp [Cx.saturated]
@[simp] theorem Cx.bump_stks (c : Cx) (off width : Nat) (d : Side) (n : Nat) : (c.bump off width d n).stks = c.stks := by
  unfold Cx.bump; dsimp only; split <;> simp [Cx.saturated]
@[simp] theorem Cx.bump_newts (c : Cx) (off width : Nat) (d : Side) (n : Nat) : (c.bump off width d n).newts = c.newts := by
  unfold Cx.bump; dsimp only; split <;> simp [Cx.saturated]
@[simp] theorem Cx.bump_journal (c : Cx) (off width : Nat) (d : Side) (n : Nat) : (c.bump off width d n).journal = c.journal := by
  unfold Cx.bump; dsimp only; split <;> simp [Cx.saturated]
@[simp] theorem Cx.bump_ports (c : Cx) (off width : Nat) (d : Side) (n : Nat) : (c.bump off width d n).ports = c.ports := by
  unfold Cx.bump; dsimp only; split <;> simp [Cx.saturated]
@[simp] theorem Cx.bump_fab (c : Cx) (off width : Nat) (d : Side) (n : Nat) : (c.bump off width d n).fab = c.fab := by
  unfold Cx.bump; dsimp only; split <;> simp [Cx.saturated]
@[simp] theorem Cx.bump_gov (c : Cx) (off width : Nat) (d : Side) (n : Nat) : (c.bump off width d n).gov = c.gov := by
  unfold Cx.bump; dsimp only; split <;> simp [Cx.saturated]
@[simp] theorem Cx.bump_ticks (c : Cx) (off width : Nat) (d : Side) (n : Nat) : (c.bump off width d n).ticks = c.ticks := by
  unfold Cx.bump; dsimp only; split <;> simp [Cx.saturated]
@[simp] theorem Cx.bump_attCtx (c : Cx) (off width : Nat) (d : Side) (n : Nat) : (c.bump off width d n).attCtx = c.attCtx := by
  unfold Cx.bump; dsimp only; split <;> simp [Cx.saturated]
@[simp] theorem Cx.bump_free (c : Cx) (off width : Nat) (d : Side) (n : Nat) : (c.bump off width d n).free = c.free := by
  unfold Cx.bump; dsimp only; split <;> simp [Cx.saturated]
@[simp] theorem Cx.bump_mem (c : Cx) (off width : Nat) (d : Side) (n : Nat) : (c.bump off width d n).mem = c.mem := by
  unfold Cx.bump; dsimp only; split <;> simp [Cx.saturated]

/-! ### What an event keeps besides -/

@[simp] theorem Cx.die_ev (c : Cx) (code cls sev : Nat) (d : Side) (idx : Nat) (fs : List Nat) (st : Option Step)
    (t : Option Nat) (x : Side) : (c.ev code cls sev d idx fs st t).die x = c.die x := by cases x <;> simp [Cx.die]

@[simp] theorem Cx.die_bump (c : Cx) (off width : Nat) (d : Side) (n : Nat) (x : Side) : (c.bump off width d n).die x = c.die x := by
  cases x <;> simp [Cx.die]

@[simp] theorem Cx.fp_ev (c : Cx) (code cls sev : Nat) (d : Side) (idx : Nat) (fs : List Nat) (st : Option Step)
    (t : Option Nat) (p : Nat) : (c.ev code cls sev d idx fs st t).fp p = c.fp p := by simp [Cx.fp]

@[simp] theorem Cx.fp_bump (c : Cx) (off width : Nat) (d : Side) (n p : Nat) : (c.bump off width d n).fp p = c.fp p := by
  simp [Cx.fp]

@[simp] theorem Cx.stk_ev (c : Cx) (code cls sev : Nat) (d : Side) (idx : Nat) (fs : List Nat) (st : Option Step)
    (t : Option Nat) (s : Nat) : (c.ev code cls sev d idx fs st t).stk s = c.stk s := by simp [Cx.stk]

@[simp] theorem Cx.coreUp_ev (c : Cx) (code cls sev : Nat) (d : Side) (idx : Nat) (fs : List Nat) (st : Option Step)
    (t : Option Nat) (x : Side) : (c.ev code cls sev d idx fs st t).coreUp x = c.coreUp x := by simp [Cx.coreUp]


end Sys2Proof.Machine
end

