-- ==== Sys2Proof/Laws/PerInstr.lean ====
section
/-!
SUPPORT. One lemma per command: well-formedness shuts no row of the opcode table out.
-/
namespace Sys2Proof.Laws.Wf

/-- Some command of the same row is well formed. -/
def Statement (i : Instr) : Prop := ∃ j : Instr, j.wf = true ∧ j.ctorIdx = i.ctorIdx

theorem nop (st : StreamId) : Statement (.nop st) := ⟨.nop st, rfl, rfl⟩
theorem copy (st : StreamId) : Statement (.copy st) := ⟨.copy st, rfl, rfl⟩
theorem signal (st : StreamId) : Statement (.signal st) := ⟨.signal st, rfl, rfl⟩
theorem wait (st : StreamId) : Statement (.wait st) := ⟨.wait st, rfl, rfl⟩
theorem signalRemote (st : StreamId) : Statement (.signalRemote st) := ⟨.signalRemote st, rfl, rfl⟩
theorem fence (st : StreamId) : Statement (.fence st) := ⟨.fence st, rfl, rfl⟩
theorem flushRange (st : StreamId) : Statement (.flushRange st) := ⟨.flushRange st, rfl, rfl⟩
theorem gather (st : StreamId) : Statement (.gather st) := ⟨.gather st, rfl, rfl⟩
theorem drain (st : StreamId) : Statement (.drain st) := ⟨.drain st, rfl, rfl⟩
theorem pass1 (st : StreamId) : Statement (.pass1 st) := ⟨.pass1 st, rfl, rfl⟩
theorem update (st : StreamId) : Statement (.update st) := ⟨.update st, rfl, rfl⟩
theorem exportW (st : StreamId) : Statement (.exportW st) := ⟨.exportW st, rfl, rfl⟩
theorem importW (st : StreamId) : Statement (.importW st) := ⟨.importW st, rfl, rfl⟩
theorem reduceScatter (st : StreamId) : Statement (.reduceScatter st) := ⟨.reduceScatter st, rfl, rfl⟩
theorem allGather (st : StreamId) : Statement (.allGather st) := ⟨.allGather st, rfl, rfl⟩
theorem norm (st : StreamId) : Statement (.norm st) := ⟨.norm st, rfl, rfl⟩
theorem digestExchange (st : StreamId) : Statement (.digestExchange st) := ⟨.digestExchange st, rfl, rfl⟩
theorem queuePush (st : StreamId) : Statement (.queuePush st) := ⟨.queuePush st, rfl, rfl⟩
theorem queuePop (st : StreamId) : Statement (.queuePop st) := ⟨.queuePop st, rfl, rfl⟩
theorem offload (st : StreamId) : Statement (.offload st) := ⟨.offload st, rfl, rfl⟩
theorem prefetch (st : StreamId) : Statement (.prefetch st) := ⟨.prefetch st, rfl, rfl⟩
theorem newtMode (st : StreamId) : Statement (.newtMode st) := ⟨.newtMode st, rfl, rfl⟩
theorem newtJob (st : StreamId) : Statement (.newtJob st) := ⟨.newtJob st, rfl, rfl⟩
theorem stageTenant (st : StreamId) : Statement (.stageTenant st) := ⟨.stageTenant st, rfl, rfl⟩
theorem scrubTenant (st : StreamId) : Statement (.scrubTenant st) := ⟨.scrubTenant st, rfl, rfl⟩
theorem gradAdd (m : Fin 64) (hdr : BitVec 128) (vals : List W16) : Statement (.gradAdd m hdr vals) :=
  ⟨.gradAdd m hdr [], rfl, rfl⟩
theorem gatherReq (m : Fin 64) (hdr : BitVec 256) : Statement (.gatherReq m hdr) := ⟨.gatherReq m hdr, rfl, rfl⟩
theorem doorbell (port : Side) (off : BitVec 15) (size : Nat) (write : Bool) (v : W64) : Statement (.doorbell port off size write v) :=
  ⟨.doorbell port off size write v, rfl, rfl⟩
theorem pollFlagRead (st : StreamId) : Statement (.pollFlagRead st) := ⟨.pollFlagRead st, rfl, rfl⟩
theorem descriptorFetch (st : StreamId) (ok : Bool) : Statement (.descriptorFetch st ok) :=
  ⟨.descriptorFetch st ok, rfl, rfl⟩
theorem commandFetch (st : StreamId) (ok : Bool) : Statement (.commandFetch st ok) := ⟨.commandFetch st ok, rfl, rfl⟩
theorem completionWrite (st : StreamId) (delayTicks : Nat) (ok : Bool) : Statement (.completionWrite st delayTicks ok) :=
  ⟨.completionWrite st delayTicks ok, rfl, rfl⟩
theorem commandTimeout (st : StreamId) (number : W32) : Statement (.commandTimeout st number) :=
  ⟨.commandTimeout st number, rfl, rfl⟩
theorem streamPause (die : Side) : Statement (.streamPause die) := ⟨.streamPause die, rfl, rfl⟩
theorem streamReinit (die : Side) : Statement (.streamReinit die) := ⟨.streamReinit die, rfl, rfl⟩
theorem apertureAccess (port : Side) (off : W32) (size : Nat) (write : Option (List Byte)) : Statement (.apertureAccess port off size write) :=
  ⟨.apertureAccess port off size none, rfl, rfl⟩
theorem apertureBaseWrite (port : Side) (high : Bool) (v : W32) : Statement (.apertureBaseWrite port high v) :=
  ⟨.apertureBaseWrite port high v, rfl, rfl⟩
theorem registerWrite (port : Side) (off : BitVec 25) (size : Nat) (v : W64) : Statement (.registerWrite port off size v) :=
  ⟨.registerWrite port off size v, rfl, rfl⟩
theorem readClear (port : Side) (off : BitVec 25) (size : Nat) : Statement (.readClear port off size) :=
  ⟨.readClear port off size, rfl, rfl⟩
theorem functionLevelReset (port : Side) : Statement (.functionLevelReset port) :=
  ⟨.functionLevelReset port, rfl, rfl⟩
theorem evtRingHeadWrite (port : Side) (v : W32) : Statement (.evtRingHeadWrite port v) :=
  ⟨.evtRingHeadWrite port v, rfl, rfl⟩
theorem evtRingBaseWrite (port : Side) (high : Bool) (v : W32) : Statement (.evtRingBaseWrite port high v) :=
  ⟨.evtRingBaseWrite port high v, rfl, rfl⟩
theorem evtRingCtrlWrite (port : Side) (v : W32) : Statement (.evtRingCtrlWrite port v) :=
  ⟨.evtRingCtrlWrite port v, rfl, rfl⟩
theorem eventArrival (n : Nat) : Statement (.eventArrival n) := ⟨.eventArrival n, rfl, rfl⟩
theorem irqHoldoffExpiry (port : Side) : Statement (.irqHoldoffExpiry port) := ⟨.irqHoldoffExpiry port, rfl, rfl⟩
theorem nanArrival (n : Nat) : Statement (.nanArrival n) := ⟨.nanArrival n, rfl, rfl⟩
theorem imageLoad (die : Side) : Statement (.imageLoad die) := ⟨.imageLoad die, rfl, rfl⟩
theorem imageLoadDone (ok : Bool) : Statement (.imageLoadDone ok) := ⟨.imageLoadDone ok, rfl, rfl⟩
theorem imageEnable (die : Side) : Statement (.imageEnable die) := ⟨.imageEnable die, rfl, rfl⟩
theorem imageInitDone : Statement (.imageInitDone) := ⟨.imageInitDone, rfl, rfl⟩
theorem imageDisable (die : Side) : Statement (.imageDisable die) := ⟨.imageDisable die, rfl, rfl⟩
theorem partialApply (die : Side) : Statement (.partialApply die) := ⟨.partialApply die, rfl, rfl⟩
theorem telemetrySnap (die : Side) (clear : Bool) : Statement (.telemetrySnap die clear) :=
  ⟨.telemetrySnap die clear, rfl, rfl⟩
theorem telemetryClear (die : Side) : Statement (.telemetryClear die) := ⟨.telemetryClear die, rfl, rfl⟩
theorem telemetryTick (die : Side) (progress : Bool) : Statement (.telemetryTick die progress) :=
  ⟨.telemetryTick die progress, rfl, rfl⟩
theorem getId (die : Side) (pec : Bool) : Statement (.getId die pec) := ⟨.getId die pec, rfl, rfl⟩
theorem getState (die : Side) (pec : Bool) : Statement (.getState die pec) := ⟨.getState die pec, rfl, rfl⟩
theorem getTemp (die : Side) (pec : Bool) : Statement (.getTemp die pec) := ⟨.getTemp die pec, rfl, rfl⟩
theorem getPower (die : Side) (pec : Bool) : Statement (.getPower die pec) := ⟨.getPower die pec, rfl, rfl⟩
theorem getEventSummary (die : Side) (pec : Bool) : Statement (.getEventSummary die pec) :=
  ⟨.getEventSummary die pec, rfl, rfl⟩
theorem requestPowerState (die : Side) (pec : Bool) (target : Byte) : Statement (.requestPowerState die pec target) :=
  ⟨.requestPowerState die pec target, rfl, rfl⟩
theorem regRead (die : Side) (pec : Bool) (off : W32) : Statement (.regRead die pec off) :=
  ⟨.regRead die pec off, rfl, rfl⟩
theorem regWrite (die : Side) (pec : Bool) (off : W32) (v : W32) : Statement (.regWrite die pec off v) :=
  ⟨.regWrite die pec off v, rfl, rfl⟩
theorem bypass (die : Side) : Statement (.bypass die) := ⟨.bypass die, rfl, rfl⟩
theorem idcode (die : Side) : Statement (.idcode die) := ⟨.idcode die, rfl, rfl⟩
theorem samplePreload (die : Side) : Statement (.samplePreload die) := ⟨.samplePreload die, rfl, rfl⟩
theorem extest (die : Side) : Statement (.extest die) := ⟨.extest die, rfl, rfl⟩
theorem clamp (die : Side) : Statement (.clamp die) := ⟨.clamp die, rfl, rfl⟩
theorem highz (die : Side) : Statement (.highz die) := ⟨.highz die, rfl, rfl⟩
theorem wrapperSelect (die : Side) : Statement (.wrapperSelect die) := ⟨.wrapperSelect die, rfl, rfl⟩
theorem testRawWrite (ch : Fin 640) (off : W32) (data : List Byte) : Statement (.testRawWrite ch off data) :=
  ⟨.testRawWrite ch off data, rfl, rfl⟩
theorem pass2Start (w : BitVec 19) : Statement (.pass2Start w) := ⟨.pass2Start w, rfl, rfl⟩
theorem pass2End (w : BitVec 19) : Statement (.pass2End w) := ⟨.pass2End w, rfl, rfl⟩
theorem commitRemap (w : BitVec 19) : Statement (.commitRemap w) := ⟨.commitRemap w, rfl, rfl⟩
theorem stashCopyDone (w : BitVec 19) : Statement (.stashCopyDone w) := ⟨.stashCopyDone w, rfl, rfl⟩
theorem slotRelease (stk : Fin 20) (slot : BitVec 20) : Statement (.slotRelease stk slot) :=
  ⟨.slotRelease stk slot, rfl, rfl⟩
theorem statsCombine (tensor : BitVec 24) : Statement (.statsCombine tensor) := ⟨.statsCombine tensor, rfl, rfl⟩
theorem windowDrain (w : BitVec 19) : Statement (.windowDrain w) := ⟨.windowDrain w, rfl, rfl⟩
theorem updReinit (stk : Fin 20) : Statement (.updReinit stk) := ⟨.updReinit stk, rfl, rfl⟩
theorem updClearCounters (stk : Fin 20) : Statement (.updClearCounters stk) := ⟨.updClearCounters stk, rfl, rfl⟩
theorem rAdd (at_ : LaneAt) (d : BitVec 4) (a : BitVec 6) (b : BitVec 6) (q : RPred) : Statement (.rAdd at_ d a b q) :=
  ⟨.rAdd at_ d 0x10#6 0x10#6 ⟨false, false, 0#2⟩, rfl, rfl⟩
theorem rSub (at_ : LaneAt) (d : BitVec 4) (a : BitVec 6) (b : BitVec 6) (q : RPred) : Statement (.rSub at_ d a b q) :=
  ⟨.rSub at_ d 0x10#6 0x10#6 ⟨false, false, 0#2⟩, rfl, rfl⟩
theorem rMul (at_ : LaneAt) (d : BitVec 4) (a : BitVec 6) (b : BitVec 6) (q : RPred) : Statement (.rMul at_ d a b q) :=
  ⟨.rMul at_ d 0x10#6 0x10#6 ⟨false, false, 0#2⟩, rfl, rfl⟩
theorem rFma (at_ : LaneAt) (d : BitVec 4) (a : BitVec 6) (b : BitVec 6) (c : BitVec 6) (q : RPred) : Statement (.rFma at_ d a b c q) :=
  ⟨.rFma at_ d 0x10#6 0x10#6 0x10#6 ⟨false, false, 0#2⟩, rfl, rfl⟩
theorem rFnma (at_ : LaneAt) (d : BitVec 4) (a : BitVec 6) (b : BitVec 6) (c : BitVec 6) (q : RPred) : Statement (.rFnma at_ d a b c q) :=
  ⟨.rFnma at_ d 0x10#6 0x10#6 0x10#6 ⟨false, false, 0#2⟩, rfl, rfl⟩
theorem rDiv (at_ : LaneAt) (d : BitVec 4) (a : BitVec 6) (b : BitVec 6) (q : RPred) : Statement (.rDiv at_ d a b q) :=
  ⟨.rDiv at_ d 0x10#6 0x10#6 ⟨false, false, 0#2⟩, rfl, rfl⟩
theorem rSqrt (at_ : LaneAt) (d : BitVec 4) (a : BitVec 6) (q : RPred) : Statement (.rSqrt at_ d a q) :=
  ⟨.rSqrt at_ d 0x10#6 ⟨false, false, 0#2⟩, rfl, rfl⟩
theorem rRsqrt (at_ : LaneAt) (d : BitVec 4) (a : BitVec 6) (q : RPred) : Statement (.rRsqrt at_ d a q) :=
  ⟨.rRsqrt at_ d 0x10#6 ⟨false, false, 0#2⟩, rfl, rfl⟩
theorem rMax (at_ : LaneAt) (d : BitVec 4) (a : BitVec 6) (b : BitVec 6) (q : RPred) : Statement (.rMax at_ d a b q) :=
  ⟨.rMax at_ d 0x10#6 0x10#6 ⟨false, false, 0#2⟩, rfl, rfl⟩
theorem rMin (at_ : LaneAt) (d : BitVec 4) (a : BitVec 6) (b : BitVec 6) (q : RPred) : Statement (.rMin at_ d a b q) :=
  ⟨.rMin at_ d 0x10#6 0x10#6 ⟨false, false, 0#2⟩, rfl, rfl⟩
theorem rAbs (at_ : LaneAt) (d : BitVec 4) (a : BitVec 6) (q : RPred) : Statement (.rAbs at_ d a q) :=
  ⟨.rAbs at_ d 0x10#6 ⟨false, false, 0#2⟩, rfl, rfl⟩
theorem rNeg (at_ : LaneAt) (d : BitVec 4) (a : BitVec 6) (q : RPred) : Statement (.rNeg at_ d a q) :=
  ⟨.rNeg at_ d 0x10#6 ⟨false, false, 0#2⟩, rfl, rfl⟩
theorem rSign (at_ : LaneAt) (d : BitVec 4) (a : BitVec 6) (q : RPred) : Statement (.rSign at_ d a q) :=
  ⟨.rSign at_ d 0x10#6 ⟨false, false, 0#2⟩, rfl, rfl⟩
theorem rMov (at_ : LaneAt) (d : BitVec 4) (a : BitVec 6) (q : RPred) : Statement (.rMov at_ d a q) :=
  ⟨.rMov at_ d 0x10#6 ⟨false, false, 0#2⟩, rfl, rfl⟩
theorem rClt (at_ : LaneAt) (d : BitVec 2) (a : BitVec 6) (b : BitVec 6) (q : RPred) : Statement (.rClt at_ d a b q) :=
  ⟨.rClt at_ d 0x10#6 0x10#6 ⟨false, false, 0#2⟩, rfl, rfl⟩
theorem rCle (at_ : LaneAt) (d : BitVec 2) (a : BitVec 6) (b : BitVec 6) (q : RPred) : Statement (.rCle at_ d a b q) :=
  ⟨.rCle at_ d 0x10#6 0x10#6 ⟨false, false, 0#2⟩, rfl, rfl⟩
theorem rCeq (at_ : LaneAt) (d : BitVec 2) (a : BitVec 6) (b : BitVec 6) (q : RPred) : Statement (.rCeq at_ d a b q) :=
  ⟨.rCeq at_ d 0x10#6 0x10#6 ⟨false, false, 0#2⟩, rfl, rfl⟩
theorem rPand (at_ : LaneAt) (d : BitVec 2) (a : BitVec 2) (b : BitVec 2) (q : RPred) : Statement (.rPand at_ d a b q) :=
  ⟨.rPand at_ d a b ⟨false, false, 0#2⟩, rfl, rfl⟩
theorem rPor (at_ : LaneAt) (d : BitVec 2) (a : BitVec 2) (b : BitVec 2) (q : RPred) : Statement (.rPor at_ d a b q) :=
  ⟨.rPor at_ d a b ⟨false, false, 0#2⟩, rfl, rfl⟩
theorem rPnot (at_ : LaneAt) (d : BitVec 2) (a : BitVec 2) (q : RPred) : Statement (.rPnot at_ d a q) :=
  ⟨.rPnot at_ d a ⟨false, false, 0#2⟩, rfl, rfl⟩
theorem rLdw (at_ : LaneAt) (d : BitVec 4) (mst : Bool) (q : RPred) : Statement (.rLdw at_ d mst q) :=
  ⟨.rLdw at_ d mst ⟨false, false, 0#2⟩, rfl, rfl⟩
theorem rLdg (at_ : LaneAt) (d : BitVec 4) (q : RPred) : Statement (.rLdg at_ d q) :=
  ⟨.rLdg at_ d ⟨false, false, 0#2⟩, rfl, rfl⟩
theorem rLdm (at_ : LaneAt) (d : BitVec 4) (q : RPred) : Statement (.rLdm at_ d q) :=
  ⟨.rLdm at_ d ⟨false, false, 0#2⟩, rfl, rfl⟩
theorem rLdb (at_ : LaneAt) (d : BitVec 4) (q : RPred) : Statement (.rLdb at_ d q) :=
  ⟨.rLdb at_ d ⟨false, false, 0#2⟩, rfl, rfl⟩
theorem rFac (at_ : LaneAt) (d : BitVec 4) (q : RPred) : Statement (.rFac at_ d q) :=
  ⟨.rFac at_ d ⟨false, false, 0#2⟩, rfl, rfl⟩
theorem rStw (at_ : LaneAt) (a : BitVec 4) (srm : Bool) (q : RPred) : Statement (.rStw at_ a srm q) :=
  ⟨.rStw at_ a srm ⟨false, false, 0#2⟩, rfl, rfl⟩
theorem rStm (at_ : LaneAt) (a : BitVec 4) (srm : Bool) : Statement (.rStm at_ a srm) := ⟨.rStm at_ a srm, rfl, rfl⟩
theorem rStb (at_ : LaneAt) (a : BitVec 4) : Statement (.rStb at_ a) := ⟨.rStb at_ a, rfl, rfl⟩
theorem rSte (at_ : LaneAt) (a : BitVec 4) (f : BitVec 2) : Statement (.rSte at_ a f) := ⟨.rSte at_ a f, rfl, rfl⟩
theorem rFstat (w : BitVec 19) (a : BitVec 6) (b : BitVec 6) (c : BitVec 6) : Statement (.rFstat w a b c) :=
  ⟨.rFstat w 0x10#6 0x10#6 0x10#6, rfl, rfl⟩
theorem newtWindowJobWrite (ch : Fin 640) (off : Nat) (data : List Byte) : Statement (.newtWindowJobWrite ch off data) :=
  ⟨.newtWindowJobWrite ch off data, rfl, rfl⟩
theorem newtWindowGo (ch : Fin 640) (size : Nat) (v : W64) : Statement (.newtWindowGo ch size v) :=
  ⟨.newtWindowGo ch size v, rfl, rfl⟩
theorem newtWindowScratchpad (ch : Fin 640) (off : Nat) (size : Nat) (write : Option (List Byte)) : Statement (.newtWindowScratchpad ch off size write) :=
  ⟨.newtWindowScratchpad ch off size none, rfl, rfl⟩
theorem nwtGo (ch : Fin 640) (tag : W32) : Statement (.nwtGo ch tag) := ⟨.nwtGo ch tag, rfl, rfl⟩
theorem nwtReinit (ch : Fin 640) : Statement (.nwtReinit ch) := ⟨.nwtReinit ch, rfl, rfl⟩
theorem nwtClearCounters (ch : Fin 640) : Statement (.nwtClearCounters ch) := ⟨.nwtClearCounters ch, rfl, rfl⟩
theorem dotJob (ch : Fin 640) : Statement (.dotJob ch) := ⟨.dotJob ch, rfl, rfl⟩
theorem attendJob (ch : Fin 640) : Statement (.attendJob ch) := ⟨.attendJob ch, rfl, rfl⟩
theorem tadpoleJob (ch : Fin 640) : Statement (.tadpoleJob ch) := ⟨.tadpoleJob ch, rfl, rfl⟩
theorem chainRecord (ch : Fin 640) : Statement (.chainRecord ch) := ⟨.chainRecord ch, rfl, rfl⟩
theorem tLdv (ch : Fin 640) (f1 : BitVec 3) (f2 : BitVec 3) (adv : Bool) : Statement (.tLdv ch f1 f2 adv) :=
  ⟨.tLdv ch f1 f2 adv, rfl, rfl⟩
theorem tStv (ch : Fin 640) (f1 : BitVec 3) (f2 : BitVec 3) (adv : Bool) (rto : Bool) : Statement (.tStv ch f1 f2 adv rto) :=
  ⟨.tStv ch f1 f2 adv rto, rfl, rfl⟩
theorem tDot (ch : Fin 640) (f1 : BitVec 3) (f2 : BitVec 3) (f3 : BitVec 3) (lane : BitVec 6) (adv : Bool) : Statement (.tDot ch f1 f2 f3 lane adv) :=
  ⟨.tDot ch f1 f2 f3 lane adv, rfl, rfl⟩
theorem tVadd (ch : Fin 640) (f1 : BitVec 3) (f2 : BitVec 3) (f3 : BitVec 3) : Statement (.tVadd ch f1 f2 f3) :=
  ⟨.tVadd ch f1 f2 f3, rfl, rfl⟩
theorem tVsub (ch : Fin 640) (f1 : BitVec 3) (f2 : BitVec 3) (f3 : BitVec 3) : Statement (.tVsub ch f1 f2 f3) :=
  ⟨.tVsub ch f1 f2 f3, rfl, rfl⟩
theorem tVmul (ch : Fin 640) (f1 : BitVec 3) (f2 : BitVec 3) (f3 : BitVec 3) : Statement (.tVmul ch f1 f2 f3) :=
  ⟨.tVmul ch f1 f2 f3, rfl, rfl⟩
theorem tVfma (ch : Fin 640) (f1 : BitVec 3) (f2 : BitVec 3) (f3 : BitVec 3) : Statement (.tVfma ch f1 f2 f3) :=
  ⟨.tVfma ch f1 f2 f3, rfl, rfl⟩
theorem tVdiv (ch : Fin 640) (f1 : BitVec 3) (f2 : BitVec 3) (f3 : BitVec 3) : Statement (.tVdiv ch f1 f2 f3) :=
  ⟨.tVdiv ch f1 f2 f3, rfl, rfl⟩
theorem tVmax (ch : Fin 640) (f1 : BitVec 3) (f2 : BitVec 3) (f3 : BitVec 3) : Statement (.tVmax ch f1 f2 f3) :=
  ⟨.tVmax ch f1 f2 f3, rfl, rfl⟩
theorem tVmin (ch : Fin 640) (f1 : BitVec 3) (f2 : BitVec 3) (f3 : BitVec 3) : Statement (.tVmin ch f1 f2 f3) :=
  ⟨.tVmin ch f1 f2 f3, rfl, rfl⟩
theorem tVexp (ch : Fin 640) (f1 : BitVec 3) (f2 : BitVec 3) : Statement (.tVexp ch f1 f2) :=
  ⟨.tVexp ch f1 f2, rfl, rfl⟩
theorem tRmax (ch : Fin 640) (f1 : BitVec 3) (f2 : BitVec 3) : Statement (.tRmax ch f1 f2) :=
  ⟨.tRmax ch f1 f2, rfl, rfl⟩
theorem tRsum (ch : Fin 640) (f1 : BitVec 3) (f2 : BitVec 3) : Statement (.tRsum ch f1 f2) :=
  ⟨.tRsum ch f1 f2, rfl, rfl⟩
theorem tBcast (ch : Fin 640) (f1 : BitVec 3) (f2 : BitVec 3) (lane : BitVec 6) : Statement (.tBcast ch f1 f2 lane) :=
  ⟨.tBcast ch f1 f2 lane, rfl, rfl⟩
theorem tVrnd (ch : Fin 640) (f1 : BitVec 3) (f2 : BitVec 3) (fmt : BitVec 3) : Statement (.tVrnd ch f1 f2 fmt) :=
  ⟨.tVrnd ch 0#3 0#3 0#3, rfl, rfl⟩
theorem tVkeep (ch : Fin 640) (f1 : BitVec 3) (f2 : BitVec 3) (f3 : BitVec 3) : Statement (.tVkeep ch f1 f2 f3) :=
  ⟨.tVkeep ch f1 f2 f3, rfl, rfl⟩
theorem tSets (ch : Fin 640) (f1 : BitVec 3) (imm : BitVec 17) : Statement (.tSets ch f1 imm) :=
  ⟨.tSets ch f1 imm, rfl, rfl⟩
theorem tAdda (ch : Fin 640) (f1 : BitVec 3) (imm : BitVec 17) : Statement (.tAdda ch f1 imm) :=
  ⟨.tAdda ch f1 imm, rfl, rfl⟩
theorem tSeta (ch : Fin 640) (f1 : BitVec 3) (f2 : BitVec 3) : Statement (.tSeta ch f1 f2) :=
  ⟨.tSeta ch f1 f2, rfl, rfl⟩
theorem tLoop (ch : Fin 640) (f1 : BitVec 3) (target : BitVec 8) : Statement (.tLoop ch f1 target) :=
  ⟨.tLoop ch f1 target, rfl, rfl⟩
theorem tCsend (ch : Fin 640) (f1 : BitVec 3) (n : BitVec 7) : Statement (.tCsend ch f1 n) :=
  ⟨.tCsend ch f1 0#7, rfl, rfl⟩
theorem tCrecv (ch : Fin 640) (f1 : BitVec 3) : Statement (.tCrecv ch f1) := ⟨.tCrecv ch f1, rfl, rfl⟩
theorem tRand (ch : Fin 640) (f1 : BitVec 3) (purpose : BitVec 4) : Statement (.tRand ch f1 purpose) :=
  ⟨.tRand ch f1 purpose, rfl, rfl⟩
theorem tEnd (ch : Fin 640) : Statement (.tEnd ch) := ⟨.tEnd ch, rfl, rfl⟩
theorem grant (stk : Fin 20) : Statement (.grant stk) := ⟨.grant stk, rfl, rfl⟩
theorem grantWindowEnd (ch : Fin 640) : Statement (.grantWindowEnd ch) := ⟨.grantWindowEnd ch, rfl, rfl⟩
theorem refreshDue (ch : Fin 640) (forced : Bool) : Statement (.refreshDue ch forced) :=
  ⟨.refreshDue ch forced, rfl, rfl⟩
theorem refreshDone (ch : Fin 640) : Statement (.refreshDone ch) := ⟨.refreshDone ch, rfl, rfl⟩
theorem temperatureSample (ch : Fin 640) (t : Byte) : Statement (.temperatureSample ch t) :=
  ⟨.temperatureSample ch t, rfl, rfl⟩
theorem rowSpare (ch : Fin 640) (bank : Nat) (row : Nat) (off : W32) (uncorrectable : Bool) : Statement (.rowSpare ch bank row off uncorrectable) :=
  ⟨.rowSpare ch bank row off uncorrectable, rfl, rfl⟩
theorem channelRetire (stk : Fin 20) : Statement (.channelRetire stk) := ⟨.channelRetire stk, rfl, rfl⟩
theorem channelRebuildDone (stk : Fin 20) : Statement (.channelRebuildDone stk) := ⟨.channelRebuildDone stk, rfl, rfl⟩
theorem parityDelta (stk : Fin 20) : Statement (.parityDelta stk) := ⟨.parityDelta stk, rfl, rfl⟩
theorem parityLogReplay (stk : Fin 20) : Statement (.parityLogReplay stk) := ⟨.parityLogReplay stk, rfl, rfl⟩
theorem stackRebuild (stk : Fin 20) : Statement (.stackRebuild stk) := ⟨.stackRebuild stk, rfl, rfl⟩
theorem linkResetExpiry (stk : Fin 20) : Statement (.linkResetExpiry stk) := ⟨.linkResetExpiry stk, rfl, rfl⟩
theorem retrainPrimary (stk : Fin 20) : Statement (.retrainPrimary stk) := ⟨.retrainPrimary stk, rfl, rfl⟩
theorem retrainStandby (stk : Fin 20) : Statement (.retrainStandby stk) := ⟨.retrainStandby stk, rfl, rfl⟩
theorem stackReplayBurst (stk : Fin 20) : Statement (.stackReplayBurst stk) := ⟨.stackReplayBurst stk, rfl, rfl⟩
theorem laneCheckFailure (stk : Fin 20) (standby : Bool) : Statement (.laneCheckFailure stk standby) :=
  ⟨.laneCheckFailure stk standby, rfl, rfl⟩
theorem retrainDone (stk : Fin 20) (standby : Bool) (failed : Nat) (dur : Nat) : Statement (.retrainDone stk standby failed dur) :=
  ⟨.retrainDone stk standby failed dur, rfl, rfl⟩
theorem margin (stk : Fin 20) : Statement (.margin stk) := ⟨.margin stk, rfl, rfl⟩
theorem slowMargin (die : Side) : Statement (.slowMargin die) := ⟨.slowMargin die, rfl, rfl⟩
theorem marginDwellEnd (unit : MarginUnit) (errors : Nat) : Statement (.marginDwellEnd unit errors) :=
  ⟨.marginDwellEnd unit errors, rfl, rfl⟩
theorem promotionDone (w : BitVec 19) (ok : Bool) : Statement (.promotionDone w ok) := ⟨.promotionDone w ok, rfl, rfl⟩
theorem writeBackStart (w : BitVec 19) : Statement (.writeBackStart w) := ⟨.writeBackStart w, rfl, rfl⟩
theorem writeBackDone (w : BitVec 19) : Statement (.writeBackDone w) := ⟨.writeBackDone w, rfl, rfl⟩
theorem tenantKeyWrite (slot : Fin 4) (word : Fin 16) (v : W32) : Statement (.tenantKeyWrite slot word v) :=
  ⟨.tenantKeyWrite slot word v, rfl, rfl⟩
theorem tenantSlotClear (slot : Fin 4) : Statement (.tenantSlotClear slot) := ⟨.tenantSlotClear slot, rfl, rfl⟩
theorem nullFrame (p : Fin 12) (f : Frame) : Statement (.nullFrame p f) := ⟨.nullFrame p ⟨0#64, [], 0#32⟩, rfl, rfl⟩
theorem nullSendTimer (p : Fin 12) : Statement (.nullSendTimer p) := ⟨.nullSendTimer p, rfl, rfl⟩
theorem ackTimeout (p : Fin 12) : Statement (.ackTimeout p) := ⟨.ackTimeout p, rfl, rfl⟩
theorem hello (p : Fin 12) (f : Frame) : Statement (.hello p f) := ⟨.hello p ⟨0#64, [], 0#32⟩, rfl, rfl⟩
theorem helloTimer (p : Fin 12) : Statement (.helloTimer p) := ⟨.helloTimer p, rfl, rfl⟩
theorem resetFrame (p : Fin 12) (f : Frame) : Statement (.resetFrame p f) :=
  ⟨.resetFrame p ⟨0#64, [], 0#32⟩, rfl, rfl⟩
theorem fabPortReset (p : Fin 12) : Statement (.fabPortReset p) := ⟨.fabPortReset p, rfl, rfl⟩
theorem laneAlignmentLoss (p : Fin 12) : Statement (.laneAlignmentLoss p) := ⟨.laneAlignmentLoss p, rfl, rfl⟩
theorem uncorrectedBlockBurst (p : Fin 12) (n : Nat) : Statement (.uncorrectedBlockBurst p n) :=
  ⟨.uncorrectedBlockBurst p n, rfl, rfl⟩
theorem laneTrainingDone (p : Fin 12) (form : Option LaneForm) : Statement (.laneTrainingDone p form) :=
  ⟨.laneTrainingDone p form, rfl, rfl⟩
theorem linkUpTimeout (p : Fin 12) : Statement (.linkUpTimeout p) := ⟨.linkUpTimeout p, rfl, rfl⟩
theorem departWaitExpiry (p : Fin 12) : Statement (.departWaitExpiry p) := ⟨.departWaitExpiry p, rfl, rfl⟩
theorem write (p : Fin 13) (m : Msg) : Statement (.write p m) :=
  ⟨.write p { m with data := [] }, decide_eq_true (Nat.zero_le m.size), rfl⟩
theorem read (p : Fin 13) (m : Msg) : Statement (.read p m) := ⟨.read p m, rfl, rfl⟩
theorem writeAck (p : Fin 13) (m : Msg) : Statement (.writeAck p m) := ⟨.writeAck p m, rfl, rfl⟩
theorem readData (p : Fin 13) (m : Msg) : Statement (.readData p m) :=
  ⟨.readData p { m with data := [] }, decide_eq_true (Nat.zero_le m.size), rfl⟩
theorem fenceReq (p : Fin 13) (m : Msg) : Statement (.fenceReq p m) := ⟨.fenceReq p m, rfl, rfl⟩
theorem fenceAck (p : Fin 13) (m : Msg) : Statement (.fenceAck p m) := ⟨.fenceAck p m, rfl, rfl⟩
theorem fabSignal (p : Fin 13) (m : Msg) : Statement (.fabSignal p m) := ⟨.fabSignal p m, rfl, rfl⟩
theorem fabQueuePush (p : Fin 13) (m : Msg) : Statement (.fabQueuePush p m) :=
  ⟨.fabQueuePush p { m with data := [] }, decide_eq_true (Nat.zero_le m.size), rfl⟩
theorem pushAck (p : Fin 13) (m : Msg) : Statement (.pushAck p m) := ⟨.pushAck p m, rfl, rfl⟩
theorem rsBlocks (p : Fin 13) (m : Msg) : Statement (.rsBlocks p m) := ⟨.rsBlocks p m, rfl, rfl⟩
theorem rsReceipt (p : Fin 13) (m : Msg) : Statement (.rsReceipt p m) := ⟨.rsReceipt p m, rfl, rfl⟩
theorem normSum (p : Fin 13) (m : Msg) : Statement (.normSum p m) := ⟨.normSum p m, rfl, rfl⟩
theorem digest (p : Fin 13) (m : Msg) : Statement (.digest p m) := ⟨.digest p m, rfl, rfl⟩
theorem leaves (p : Fin 13) (m : Msg) : Statement (.leaves p m) := ⟨.leaves p m, rfl, rfl⟩
theorem agQuery (p : Fin 13) (m : Msg) : Statement (.agQuery p m) := ⟨.agQuery p m, rfl, rfl⟩
theorem agReply (p : Fin 13) (m : Msg) : Statement (.agReply p m) := ⟨.agReply p m, rfl, rfl⟩
theorem agData (p : Fin 13) (m : Msg) : Statement (.agData p m) :=
  ⟨.agData p { m with data := [] }, decide_eq_true (Nat.zero_le m.size), rfl⟩
theorem agRelease (p : Fin 13) (m : Msg) : Statement (.agRelease p m) := ⟨.agRelease p m, rfl, rfl⟩
theorem agQueryTimeout (tag : W16) : Statement (.agQueryTimeout tag) := ⟨.agQueryTimeout tag, rfl, rfl⟩
theorem fetch (p : Fin 13) (m : Msg) : Statement (.fetch p m) := ⟨.fetch p m, rfl, rfl⟩
theorem fetchData (p : Fin 13) (m : Msg) : Statement (.fetchData p m) :=
  ⟨.fetchData p { m with data := [] }, decide_eq_true (Nat.zero_le m.size), rfl⟩
theorem elect (p : Fin 13) (m : Msg) : Statement (.elect p m) := ⟨.elect p m, rfl, rfl⟩
theorem electionSettle : Statement (.electionSettle) := ⟨.electionSettle, rfl, rfl⟩
theorem heartbeat (p : Fin 13) (m : Msg) : Statement (.heartbeat p m) := ⟨.heartbeat p m, rfl, rfl⟩
theorem heartbeatTimer : Statement (.heartbeatTimer) := ⟨.heartbeatTimer, rfl, rfl⟩
theorem heartbeatTimeout : Statement (.heartbeatTimeout) := ⟨.heartbeatTimeout, rfl, rfl⟩
theorem topo (p : Fin 13) (m : Msg) : Statement (.topo p m) := ⟨.topo p m, rfl, rfl⟩
theorem collectionClose : Statement (.collectionClose) := ⟨.collectionClose, rfl, rfl⟩
theorem assign (p : Fin 13) (m : Msg) : Statement (.assign p m) := ⟨.assign p m, rfl, rfl⟩
theorem table (p : Fin 13) (m : Msg) : Statement (.table p m) := ⟨.table p m, rfl, rfl⟩
theorem tableAck (p : Fin 13) (m : Msg) : Statement (.tableAck p m) := ⟨.tableAck p m, rfl, rfl⟩
theorem linkChange (p : Fin 13) (m : Msg) : Statement (.linkChange p m) := ⟨.linkChange p m, rfl, rfl⟩
theorem salvage (p : Fin 13) (m : Msg) : Statement (.salvage p m) := ⟨.salvage p m, rfl, rfl⟩
theorem salvageTimeout (p : Fin 12) : Statement (.salvageTimeout p) := ⟨.salvageTimeout p, rfl, rfl⟩
theorem requestTimeout (tag : W16) : Statement (.requestTimeout tag) := ⟨.requestTimeout tag, rfl, rfl⟩
theorem imagePush (p : Fin 13) (m : Msg) : Statement (.imagePush p m) :=
  ⟨.imagePush p { m with data := [] }, decide_eq_true (Nat.zero_le m.size), rfl⟩
theorem imagePushAck (p : Fin 13) (m : Msg) : Statement (.imagePushAck p m) := ⟨.imagePushAck p m, rfl, rfl⟩
theorem depart (p : Fin 13) (m : Msg) : Statement (.depart p m) := ⟨.depart p m, rfl, rfl⟩
theorem fabPushGo (p : Fin 12) : Statement (.fabPushGo p) := ⟨.fabPushGo p, rfl, rfl⟩
theorem moduleBringup (m : Fin 64) (major : Byte) (minor : Byte) : Statement (.moduleBringup m major minor) :=
  ⟨.moduleBringup m major minor, rfl, rfl⟩
theorem coreAliveFall (die : Side) : Statement (.coreAliveFall die) := ⟨.coreAliveFall die, rfl, rfl⟩
theorem bridgeHeartbeat (die : Side) : Statement (.bridgeHeartbeat die) := ⟨.bridgeHeartbeat die, rfl, rfl⟩
theorem heartbeatMiss (die : Side) : Statement (.heartbeatMiss die) := ⟨.heartbeatMiss die, rfl, rfl⟩
theorem bridgeRestored : Statement (.bridgeRestored) := ⟨.bridgeRestored, rfl, rfl⟩
theorem watchdogExpiry (die : Side) : Statement (.watchdogExpiry die) := ⟨.watchdogExpiry die, rfl, rfl⟩
theorem sramUncorrectable (die : Side) : Statement (.sramUncorrectable die) := ⟨.sramUncorrectable die, rfl, rfl⟩
theorem fenceTwin (die : Side) : Statement (.fenceTwin die) := ⟨.fenceTwin die, rfl, rfl⟩
theorem fenceReceived (die : Side) : Statement (.fenceReceived die) := ⟨.fenceReceived die, rfl, rfl⟩
theorem fenceAnswerTimeout (die : Side) : Statement (.fenceAnswerTimeout die) := ⟨.fenceAnswerTimeout die, rfl, rfl⟩
theorem failover (die : Side) : Statement (.failover die) := ⟨.failover die, rfl, rfl⟩
theorem ownerChangeRequest (stk : Fin 20) (quiet : Bool) : Statement (.ownerChangeRequest stk quiet) :=
  ⟨.ownerChangeRequest stk quiet, rfl, rfl⟩
theorem resetTwin (die : Side) : Statement (.resetTwin die) := ⟨.resetTwin die, rfl, rfl⟩
theorem rejoin (die : Side) (selfTest : Bool) (bridge : Bool) : Statement (.rejoin die selfTest bridge) :=
  ⟨.rejoin die selfTest bridge, rfl, rfl⟩
theorem resetComplex (die : Side) (key : Byte) : Statement (.resetComplex die key) :=
  ⟨.resetComplex die key, rfl, rfl⟩
theorem journalRecord : Statement (.journalRecord) := ⟨.journalRecord, rfl, rfl⟩
theorem mirrorAck : Statement (.mirrorAck) := ⟨.mirrorAck, rfl, rfl⟩
theorem pwrCtrlGo (die : Side) : Statement (.pwrCtrlGo die) := ⟨.pwrCtrlGo die, rfl, rfl⟩
theorem dewIdleExpiry (die : Side) : Statement (.dewIdleExpiry die) := ⟨.dewIdleExpiry die, rfl, rfl⟩
theorem wake (die : Side) (cause : BitVec 4) : Statement (.wake die cause) := ⟨.wake die cause, rfl, rfl⟩
theorem thawDone (die : Side) (us : W16) : Statement (.thawDone die us) := ⟨.thawDone die us, rfl, rfl⟩
theorem governorSample (tile : Nat) (dieA : Nat) (dieB : Nat) (stks : List Nat) : Statement (.governorSample tile dieA dieB stks) :=
  ⟨.governorSample tile dieA dieB stks, rfl, rfl⟩
theorem governorStep : Statement (.governorStep) := ⟨.governorStep, rfl, rfl⟩
theorem hubTemperature (die : Side) (t : Byte) : Statement (.hubTemperature die t) :=
  ⟨.hubTemperature die t, rfl, rfl⟩
theorem railWarning (die : Side) (rail : Nat) (mv : Nat) : Statement (.railWarning die rail mv) :=
  ⟨.railWarning die rail mv, rfl, rfl⟩
theorem dipHoldEnd (die : Side) : Statement (.dipHoldEnd die) := ⟨.dipHoldEnd die, rfl, rfl⟩
theorem deferredCommitRelease (die : Side) : Statement (.deferredCommitRelease die) :=
  ⟨.deferredCommitRelease die, rfl, rfl⟩
theorem railReset (die : Side) (rail : Nat) (mv : Nat) : Statement (.railReset die rail mv) :=
  ⟨.railReset die rail mv, rfl, rfl⟩
theorem pgInRise (die : Side) : Statement (.pgInRise die) := ⟨.pgInRise die, rfl, rfl⟩
theorem pgInFall (die : Side) : Statement (.pgInFall die) := ⟨.pgInFall die, rfl, rfl⟩
theorem aonRstRelease (die : Side) (straps : Straps) : Statement (.aonRstRelease die straps) :=
  ⟨.aonRstRelease die straps, rfl, rfl⟩
theorem startupDone (die : Side) (t : Trained) : Statement (.startupDone die t) := ⟨.startupDone die t, rfl, rfl⟩
theorem tileRst : Statement (.tileRst) := ⟨.tileRst, rfl, rfl⟩
theorem perst (port : Side) (high : Bool) : Statement (.perst port high) := ⟨.perst port high, rfl, rfl⟩
theorem sequencedFrame (p : Fin 12) (f : Frame) : Statement (.sequencedFrame p f) :=
  ⟨.sequencedFrame p ⟨0#64, [], 0#32⟩, rfl, rfl⟩
theorem railAboveWarning (die : Side) (rail : Nat) (us : Nat) : Statement (.railAboveWarning die rail us) :=
  ⟨.railAboveWarning die rail us, rfl, rfl⟩
theorem stackRebuildDone (stk : Fin 20) : Statement (.stackRebuildDone stk) := ⟨.stackRebuildDone stk, rfl, rfl⟩
theorem aonRstAssert (die : Side) : Statement (.aonRstAssert die) := ⟨.aonRstAssert die, rfl, rfl⟩
theorem msixUnmask (port : Side) (vec : Option (Fin 64)) : Statement (.msixUnmask port vec) :=
  ⟨.msixUnmask port vec, rfl, rfl⟩
theorem ucieModuleFailure (m : Fin 64) (retrained : Bool) : Statement (.ucieModuleFailure m retrained) :=
  ⟨.ucieModuleFailure m retrained, rfl, rfl⟩

end Sys2Proof.Laws.Wf
end

