-- ==== Sys2Proof/Laws/Programs.lean ====
section
/-!
SUPPORT. What the runners of rule and tadpole instructions do: the row acts exactly when its lane group, or its newt's
program, has reached it.
-/
namespace Sys2Proof.Machine

/-- A rule row in a lane group that stands at it. -/
theorem Cx.ruleStep_runs {c : Cx} {at_ : LaneAt} {i : RInstr} {v : Win} {p : Pass} {t : Tensor} {l : LaneCtx}
    (h : LaneRuns c at_ i v p t l) (sem : RuleSem) :
    c.ruleStep at_ i sem = c.runRule at_.window.toNat at_.group.val v p t l i sem := by
  unfold Cx.ruleStep
  simp [h.win, h.pass, h.tensor, h.lane, h.ready, h.word, h.granted]

/-- No rule instruction moves its lane group to another block. -/
theorem ruleSem_block (i : RInstr) (c : Cx) (e : RuleEnv) (l : LaneCtx) : (ruleSem i c e l).l.block = l.block := by
  cases i <;> simp only [ruleSem, semAlu2, semAlu3, semAlu1, semCmp, semPred, semLdw, semLdg, semLdm, semLdb, semFac,
    semStw, semStm, semStb, semSte, vecFx, predFx, LaneCtx.setV, LaneCtx.setP] <;> (try split) <;> rfl

/-- A tadpole row in a program that has reached it. -/
theorem Cx.tadStep_runs {c : Cx} {ch : Fin 640} {i : TInstr} {j : Job} {t : Tad} (h : TadRuns c ch i j t) (f : TadSem) :
    c.tadStep ch i f = f ch j t c := by
  unfold Cx.tadStep
  simp [h.job, h.tad, h.kind, h.go, h.word]

end Sys2Proof.Machine
end

