-- ==== Sys2Proof/Laws/Streams.lean ====
section
/-!
SUPPORT. What the runner of stream commands does: the command that a stream starts stands in flight and its meaning
decides how the step ends.
-/
namespace Sys2Proof.Machine

/-- The command that started is the one in flight under its number. -/
theorem Cx.start_flight (c : Cx) (st : StreamId) (op : Nat) (num : W32) (cmd : BitVec 512)
    (h : Starts c st op num cmd) : (c.start st num cmd).flight? st num = some (newFlight c st num cmd) := by
  have hs : ∀ (q : List Nat) (d : Cx), ({ d with quotaSaid := q } : Cx).flight? st num = d.flight? st num := fun _ _ => rfl
  unfold Cx.start Cx.takePlace
  rw [hs]
  unfold Cx.flight?
  rw [Cx.modStrm_strm_self]
  rw [List.find?_append]
  have hn : (c.strm st.toNat).flights.find? (fun f => decide (f.number = num)) = none := by
    rw [List.find?_eq_none]
    intro g hg
    simpa using h.fresh g hg
  rw [hn]
  simp [newFlight]

/-- One step of a stream command that starts: its meaning runs on the started complex, and a broken operand rule leaves the
tenant's quota as it was reported. -/
theorem Cx.runStream_starts (c : Cx) (st : StreamId) (op : Nat) (body : Body) (num : W32) (cmd : BitVec 512)
    (h : Starts c st op num cmd) :
    c.runStream op body st =
      (match body st (newFlight c st num cmd) (c.start st num cmd) with
        | (d, .halt reason) => Cx.settle ({ d with quotaSaid := c.quotaSaid }, .halt reason) st num
        | r => Cx.settle r st num).haltIfBad st := by
  unfold Cx.runStream Cx.launch
  rw [h.next]
  simp only [h.op, h.room, if_true]
  congr 1

/-- A meaning that ends the command. -/
theorem Cx.runStream_done {c : Cx} {st : StreamId} {op : Nat} {body : Body} {num : W32} {cmd : BitVec 512} {d : Cx}
    {status result : Nat} {fl : Flags} (h : Starts c st op num cmd)
    (hb : body st (newFlight c st num cmd) (c.start st num cmd) = (d, .done status result fl)) :
    c.runStream op body st = d.ended st num status result fl := by
  rw [Cx.runStream_starts c st op body num cmd h, hb]
  rfl

/-- A meaning that lets the command wait, while no disable runs. -/
theorem Cx.runStream_wait {c : Cx} {st : StreamId} {op : Nat} {body : Body} {num : W32} {cmd : BitVec 512} {d : Cx}
    {why : IdleCause} (h : Starts c st op num cmd)
    (hb : body st (newFlight c st num cmd) (c.start st num cmd) = (d, .wait why)) (hd : d.disabling = false) :
    c.runStream op body st = d.waiting st num why := by
  rw [Cx.runStream_starts c st op body num cmd h, hb]
  simp [Cx.settle, hd, Cx.waiting]

/-- A command refused at decode halts its stream, which then stands before it. -/
theorem Cx.runStream_halt {c : Cx} {st : StreamId} {op : Nat} {body : Body} {num : W32} {cmd : BitVec 512} {d : Cx}
    {reason : Nat} (h : Starts c st op num cmd)
    (hb : body st (newFlight c st num cmd) (c.start st num cmd) = (d, .halt reason)) :
    c.runStream op body st =
      (Cx.settle ({ d with quotaSaid := c.quotaSaid }, .halt reason) st num).haltIfBad st := by
  rw [Cx.runStream_starts c st op body num cmd h, hb]

/-! ### A new flight -/

@[simp] theorem newFlight_number (c : Cx) (st : StreamId) (n : W32) (cmd : BitVec 512) : (newFlight c st n cmd).number = n := rfl
@[simp] theorem newFlight_cmd (c : Cx) (st : StreamId) (n : W32) (cmd : BitVec 512) : (newFlight c st n cmd).cmd = cmd := rfl
@[simp] theorem newFlight_status (c : Cx) (st : StreamId) (n : W32) (cmd : BitVec 512) : (newFlight c st n cmd).status = none := rfl
@[simp] theorem newFlight_phase (c : Cx) (st : StreamId) (n : W32) (cmd : BitVec 512) : (newFlight c st n cmd).phase = 0 := rfl
@[simp] theorem newFlight_owed (c : Cx) (st : StreamId) (n : W32) (cmd : BitVec 512) : (newFlight c st n cmd).owed = 0 := rfl
@[simp] theorem newFlight_wins (c : Cx) (st : StreamId) (n : W32) (cmd : BitVec 512) : (newFlight c st n cmd).wins = [] := rfl
@[simp] theorem newFlight_awaits (c : Cx) (st : StreamId) (n : W32) (cmd : BitVec 512) : (newFlight c st n cmd).awaits = [] := rfl
@[simp] theorem newFlight_worst (c : Cx) (st : StreamId) (n : W32) (cmd : BitVec 512) : (newFlight c st n cmd).worst = 0 := rfl
@[simp] theorem newFlight_data (c : Cx) (st : StreamId) (n : W32) (cmd : BitVec 512) : (newFlight c st n cmd).data = [] := rfl
@[simp] theorem newFlight_table (c : Cx) (st : StreamId) (n : W32) (cmd : BitVec 512) : (newFlight c st n cmd).table = none := rfl
@[simp] theorem newFlight_slow (c : Cx) (st : StreamId) (n : W32) (cmd : BitVec 512) : (newFlight c st n cmd).slow = false := rfl
theorem newFlight_op {c : Cx} {st : StreamId} {op : Nat} {n : W32} {cmd : BitVec 512} (h : Starts c st op n cmd) :
    (newFlight c st n cmd).op = op := h.op

/-- A command starts only while the image is enabled and stays so (R129, R147). -/
theorem Starts.enabled {c : Cx} {st : StreamId} {op : Nat} {n : W32} {cmd : BitVec 512} (h : Starts c st op n cmd) :
    c.enabled = true ∧ c.img.enableBit = true := by
  have hn := h.next
  simp only [Cx.startable] at hn
  split at hn
  · split at hn
    · rename_i hh
      simp at hh
      exact ⟨by simp [hh], by simp [hh]⟩
    · cases hn
  · cases hn

/-- No disable runs as a command starts. -/
theorem Starts.not_disabling {c : Cx} {st : StreamId} {op : Nat} {n : W32} {cmd : BitVec 512} (h : Starts c st op n cmd) :
    (c.start st n cmd).disabling = false := by
  simp [Cx.disabling, Cx.start, Cx.takePlace, h.enabled.2]

end Sys2Proof.Machine
end

