-- ==== Sys2Proof/Tests/Slice0.lean ====
section
/-!
SUPPORT. Tests: ill-formed commands are refused, words written out from the spec decode, one-step effects, and for every
obligation with hypotheses states and operands that meet them.
-/
open Sys2Proof Sys2Proof.Machine
set_option linter.unusedVariables false
set_option Elab.async false

namespace Sys2Proof.Tests

/-! ### Small states -/

/-- A command's 64 bytes: opcode, class 7, generation 0, number 0, and operand values by byte offset. -/
def cmdOf (op : Nat) (l : List (Nat × Nat)) : BitVec 512 :=
  BitVec.ofNat 512 (op + 7 * 2 ^ 16 + (l.map fun p => p.2 * 256 ^ p.1).sum)

/-- Host memory from byte x of port A. -/
def hostA (x : Nat) : Nat := 4 * 2 ^ 60 + x

def tDesc : Desc where
  ringBase := BitVec.ofNat 64 (hostA 0x1000)
  completionBase := BitVec.ofNat 64 (hostA 0x8000)
  flagAddr := 0#64
  generation := 0#16
  ringLog2 := 6
  complLog2 := 6
  poll := false
  hubDie := .A
  kind := 0
  msix := 0
  tenant := 0
  pollNs := 0

def tTensor : Tensor where
  handle := 5
  region := 0
  start := 0
  base := 0
  count := 130
  rows := 0
  columns := 0
  rule := 0
  factored := false
  frozen := false

def tImg : Img where
  id := 7#64
  geo := { active := [0, 1, 10], parity := 0, master := .A, slowType := [], positions := [], gib := [] }
  lay := { stateBase := 0, live := 2, pool := 2, promoBase := 200, promo := 2, gradBase := 300, mapBase := 400
           stashBase := 500, stashRows := 64, spareBase := 700, parityBase := 800, parityRows := 0, stagingRows := 0 }
  regions := [{ id := 0, placed := false, tails := true, pyroimet := false, slowRest := false, stackMask := 0
                channelMask := 0, base := 0, size := 0 },
              { id := 15, placed := true, tails := false, pyroimet := false, slowRest := false, stackMask := 1
                channelMask := 2 ^ 32 - 1, base := 600 * 4096, size := 10 * 4096 }]
  stash := []
  tensors := [tTensor]
  wmap := []
  rules := []
  tadpoles := []
  fabric := {}
  streams := { tableBase := BitVec.ofNat 64 (hostA 0x20000), count := 4, queuesA := 1, queuesB := 1, depth := 4
               entryBytes := 256, share := [], weight := [], sramA := (0, 0x1000), sramB := (0, 0x1000) }
  stagedSlots := 1
  tenant0 := ⟨0, 0, 0⟩
  tenants := []
  power := {}
  versions := []
  statRows := 0

def tDie : Die :=
  { power := .run, aon := true, core := true, coreAlive := true, shell := true, lastBeat := true, pwrReq := true, pgIn := true }

def tPort : Port := { perst := true, up := true, busMaster := true, driverReady := true }

def tWin : Win := { tensor := 5, region := 0, k := 0, valid := 130, stateSlot := 0, gSlot := 0 }

/-- Both dies in Run, an image enabled, window 0 resident and idle, stream 0 active, fabric port 0 UP. -/
def live : Cx :=
  { Cx.reset with
    portA := tPort, portB := tPort, dieA := tDie, dieB := tDie, bridge := true, modules := [(0, 2)]
    img := { st := .enabled, enableBit := true, cfg := some tImg }
    wins := [(0, tWin)]
    streams := [(0, { desc := some tDesc, st := .active, serving := some .A, last := some 0xF#32 })]
    stks := (List.range 20).map fun i => (i, { owner := homeDie i, trained := true, primary := 3, standby := 3 })
    ports := [(0, { st := .up, bootstrap := false, avail := [4, 4, 4, 4] })]
    fab := { st := 4, id := some 0x101#17, uid := 9#64 } }

def at_ (c : Cx) : State := ⟨[], c⟩

/-- Stream 0 has this command next in its fetch cache. -/
def next (op : Nat) (l : List (Nat × Nat)) (c : Cx := live) : State :=
  at_ (c.modStrm 0 fun x => { x with cache := [(0#32, cmdOf op l)] })

/-- A message waits at fabric port 0. -/
def msg (op vc : Nat) (addr arg : Nat) (size : Nat) (data : List Byte) (fields : List Nat) : Msg :=
  { op := BitVec.ofNat 6 op, vc := BitVec.ofNat 2 vc, dest := 0x101#17, src := 0x102#17, linkLocal := false, hops := 0
    tag := 3#16, size := size, addr := BitVec.ofNat 64 addr, arg := BitVec.ofNat 64 arg, fields := fields, data := data }

def gets (m : Msg) (c : Cx := live) : State := at_ (c.modFp 0 fun q => { q with delivered := [(m, 1)] })

/-- Command 0 of stream 0 is in flight. -/
def flying (f : Flight) (c : Cx := live) : Cx := c.modStrm 0 fun x => { x with flights := [f], next := 1#32 }

def flight (op : Nat) (l : List (Nat × Nat)) : Flight := { number := 0#32, cmd := cmdOf op l, desc := some tDesc }


/-- Channel 0 in newt mode runs a TADPOLE job that stands at an instruction. Pointer 0 names 64 E8A elements of the
scratchpad, pointer 1 some of the channel, pointer 2 is past its operand's end. -/
def tTad : Tad where
  pc := 0
  a := [some ⟨true, 0, 1, 0, 0x4000⟩, some ⟨false, 600 * 4096, 1, 600 * 4096, 610 * 4096⟩, some ⟨true, 8, 1, 0, 64⟩]

def tJob (l : List Byte) : Job := { desc := l ++ List.replicate (128 - l.length) 0#8 }

def tNewt (l : List Byte) : Newt := { mode := true, job := some (tJob l) }

def tadAt (i : TInstr) : Newt := { tNewt [2#8] with tad := some tTad, store := [(0, encodeTad i)] }

def withNewt (n : Newt) (c : Cx := live) : Cx := c.modNewt 0 fun _ => n

/-- Window 0 in pass 2 of step 3 with a program of two words; lane group 0 stands at the first, on block 0. -/
def tPass (i : RInstr) (fstatDone : Bool := true) : Pass where
  slot := 1
  step := 3#48
  clip := 0x3F800000#32
  table := ⟨List.replicate 32 0#32, 0#64, 0x3F800000#32, 0, 0⟩
  prog := [encodeRule i, encodeRule (.stw 1#4 false noPred)]
  fstatDone := fstatDone
  stream := 0#12
  command := 0#32
  lanes := [(0, { block := 0 })]

def passWin (p : Pass) : Win := { tWin with st := .writeRun 3#48 true, pass := some p }

def passing (p : Pass) (c : Cx := live) : State := at_ { c with wins := [(0, passWin p)] }

def tEnv (i : RInstr) : RuleEnv := live.ruleEnv 0 (passWin (tPass i)) (tPass i) tTensor 0 0

/-- Bytes of a DOT descriptor over scratchpad operands: one row of four S16 elements, binary32 output. -/
def tDot : List (Nat × Byte) :=
  [(4, 1#8), (8, 4#8), (0x14, 1#8), (0x19, 1#8), (0x1C, 1#8), (0x29, 2#8), (0x2C, 11#8)]

def tDotJob : Job := { desc := (List.range 128).map fun i => kget 0#8 tDot i }

/-- The same descriptor in the NWT_DESC registers of channel 0. -/
def tDotRegs : List (Nat × W32) :=
  [(0x44, 1#32), (0x48, 4#32), (0x54, 1#32), (0x58, 0x100#32), (0x5C, 1#32), (0x68, 0x200#32), (0x6C, 11#32)].map
    fun p => (nwtBase 0 + p.1, p.2)

/-- Memory that holds these bytes from an address of port A. -/
def memA (x : Nat) (l : List (Nat × Byte)) : List Host.Cell := l.map fun p => (hostA x + p.1, p.2)

/-- Window 0 alone, in a state, with a command of stream 0 in flight. -/
def oneWin (v : Win) (c : Cx := live) : Cx := { c with wins := [(0, v)] }

/-- The image of window 0 with one value, zero, in host memory at 0x40000. -/
def imgMem : List Host.Cell :=
  ((List.range 128).zip (exportImage { tWin with valid := 1 } 0#32 none [0#8, 0#8])).filterMap fun p =>
    if p.2 = 0#8 then none else some (hostA 0x40000 + p.1, p.2)

/-- A frame with its header, its payload and a right CRC. -/
def frameOf (hdr : Nat) (payload : List Byte := []) : Frame :=
  ⟨BitVec.ofNat 64 hdr, payload, crc32 (leBytes 8 (BitVec.ofNat 64 hdr).toNat ++ payload)⟩

def port0 (f : FabPort → FabPort) (c : Cx := live) : Cx := c.modFp 0 f

/-- Bytes of a partial image for image 7: one power section of record 12 with its default values (Tables 5.1, 5.2, 5.12). -/
def tPartBytes : List (Nat × Byte) :=
  [(0, 65#8), (1, 88#8), (2, 83#8), (3, 73#8), (4, 2#8), (6, 1#8), (8, 120#8), (12, 1#8), (16, 8#8), (24, 7#8),
   (60, 176#8), (61, 9#8), (62, 71#8), (63, 169#8), (64, 12#8), (68, 80#8), (72, 40#8), (76, 57#8), (77, 188#8),
   (78, 109#8), (79, 97#8), (80, 1#8), (84, 32#8), (88, 176#8), (89, 4#8), (90, 38#8), (91, 20#8), (92, 170#8),
   (94, 124#8), (95, 21#8)]

def partStaged : Cx :=
  { live with
    regs := [(hubBase .A + 8, 120#32), (hubBase .A + 0x30, 0x100#32)]
    img := { live.img with part := .loaded, partLen := 120 }
    mem := tPartBytes.map fun p => (sramKey .A (partialOff + p.1), p.2) }

/-- Bytes of a small full image: stacks 0, 1 and 10, one region, one tensor of one window, a rule program of one STW,
four streams (Tables 5.1 to 5.9). -/
def tFullBytes : List (Nat × Byte) :=
  [(0, 65#8), (1, 88#8), (2, 83#8), (3, 73#8), (4, 2#8), (8, 216#8), (9, 2#8), (12, 7#8), (16, 7#8), (60, 73#8),
   (61, 170#8), (62, 177#8), (63, 242#8), (64, 1#8), (68, 176#8), (72, 40#8), (76, 200#8), (77, 102#8), (78,
   251#8), (79, 64#8), (80, 2#8), (84, 216#8), (88, 72#8), (92, 152#8), (93, 253#8), (94, 208#8), (95, 142#8), (96,
   3#8), (100, 32#8), (101, 1#8), (104, 40#8), (108, 74#8), (109, 34#8), (110, 47#8), (111, 16#8), (112, 5#8),
   (116, 72#8), (117, 1#8), (120, 40#8), (124, 237#8), (125, 106#8), (126, 3#8), (127, 115#8), (128, 6#8), (132,
   112#8), (133, 1#8), (136, 16#8), (140, 156#8), (141, 186#8), (142, 221#8), (143, 197#8), (144, 7#8), (148,
   128#8), (149, 1#8), (152, 16#8), (153, 1#8), (156, 255#8), (157, 107#8), (158, 22#8), (159, 190#8), (160, 10#8),
   (164, 144#8), (165, 2#8), (168, 72#8), (172, 47#8), (173, 167#8), (174, 74#8), (175, 212#8), (176, 1#8), (180,
   32#8), (184, 3#8), (185, 4#8), (216, 1#8), (220, 64#8), (228, 2#8), (232, 16#8), (244, 82#8), (245, 2#8), (248,
   128#8), (249, 2#8), (252, 188#8), (253, 2#8), (256, 64#8), (260, 232#8), (261, 3#8), (288, 1#8), (292, 32#8),
   (297, 2#8), (328, 1#8), (332, 32#8), (336, 5#8), (344, 130#8), (352, 10#8), (356, 13#8), (368, 1#8), (372, 8#8),
   (382, 128#8), (384, 1#8), (388, 8#8), (389, 1#8), (393, 1#8), (403, 160#8), (656, 1#8), (660, 64#8), (666, 2#8),
   (671, 64#8), (672, 4#8), (674, 1#8), (676, 1#8), (678, 4#8), (681, 1#8), (690, 1#8), (691, 1#8), (692, 1#8),
   (693, 1#8), (694, 1#8), (695, 1#8), (701, 16#8), (709, 16#8)]

def fullStaged : Cx :=
  { live with
    regs := [(hubBase .A + 8, 728#32), (hubBase .A + 0x30, 0x100#32)]
    img := { st := .loaded, stagedLen := 728 }
    mem := tFullBytes.map fun p => (sramKey .A (stagingOff + p.1), p.2) }

/-- A stream that can start nothing cannot start a command of one opcode. -/
theorem noStart {c : Cx} {st : StreamId} {op : Nat} (h : (c.startable st).isNone = true) :
    ∀ e, c.startable st = some e → opcode e.2 ≠ op := fun e he => by simp [he] at h

/-- Every rule instruction can stand at a lane group of a pass whose channels are granted. -/
theorem test_meets_ruleRows : ∀ i ∈ ([.alu2 .add 1#4 2#6 3#6 noPred, .alu3 .fnma 1#4 2#6 3#6 4#6 noPred,
      .alu1 .rsqrt 1#4 2#6 noPred, .cmp .ceq 1#2 2#6 3#6 noPred, .pand 1#2 2#2 3#2 noPred, .por 1#2 2#2 3#2 noPred,
      .pnot 1#2 2#2 noPred, .ldw 1#4 true noPred, .ldg 1#4 noPred, .ldm 1#4 noPred, .ldb 1#4 noPred, .fac 1#4 noPred,
      .stw 1#4 true noPred, .stm 1#4 true, .stb 1#4, .ste 1#4 1#2] : List RInstr),
    LaneRuns (passing (tPass i) (live.modStk 0 fun k => { k with grants := List.range 32 })).cx ⟨0#19, 0⟩ i
      (passWin (tPass i)) (tPass i) tTensor { block := 0 } := by
  intro i hi
  simp only [List.mem_cons, List.not_mem_nil, or_false] at hi
  rcases hi with h | h | h | h | h | h | h | h | h | h | h | h | h | h | h | h <;> subst h <;>
    exact ⟨by decide +kernel, by decide +kernel, by decide +kernel, by decide +kernel, by decide +kernel,
      by decide +kernel, by decide +kernel⟩

/-- A complex without poison has none in any range. -/
theorem hubPoisonIn_none (c : Cx) (h : c.poison = []) (ha : c.dieA.slowPoison = []) (hb : c.dieB.slowPoison = [])
    (hf : ∀ p ∈ c.stks, p.2.failed = []) (k n : Nat) : c.hubPoisonIn k n = none := by
  have hd : ∀ d, (c.die d).slowPoison = [] := fun d => by cases d <;> assumption
  have hs : ∀ s, (c.stk s).failed = [] := fun s => by
    rw [Cx.stk]
    generalize c.stks = m at hf
    induction m with
    | nil => rfl
    | cons p r ih =>
      rw [kget, kget?]
      split
      · exact hf p (List.mem_cons_self ..)
      · exact ih fun q hq => hf q (List.mem_cons_of_mem _ hq)
  simp [Cx.hubPoisonIn, Cx.hubPoisonAt, Cx.poisonAt, Cx.deadAt, h, hd, hs]

/-- A program of each vector instruction can have reached it. -/
theorem test_meets_tadpoleVectorRows : ∀ i ∈ ([.vec .vadd 1#3 2#3 3#3, .vec .vsub 1#3 2#3 3#3, .vec .vmul 1#3 2#3 3#3,
      .vec .vdiv 1#3 2#3 3#3, .vec .vmax 1#3 2#3 3#3, .vec .vmin 1#3 2#3 3#3, .vec .vfma 1#3 2#3 3#3, .vexp 1#3 2#3,
      .vrnd 1#3 2#3 4#3, .vkeep 1#3 2#3 3#3, .rmax 1#3 2#3, .rsum 1#3 2#3, .bcast 1#3 2#3 63#6] : List TInstr),
    TadRuns (withNewt (tadAt i)) 0 i (tJob [2#8]) tTad := by
  intro i hi
  simp only [List.mem_cons, List.not_mem_nil, or_false] at hi
  rcases hi with h | h | h | h | h | h | h | h | h | h | h | h | h <;> subst h <;>
    exact ⟨by decide +kernel, by decide +kernel, by decide +kernel, by decide +kernel, by decide +kernel⟩

/-! ### A full image passes the check -/

/-- crc's fold with its state forced at each byte. -/
def crcGo (poly : W32) : List Byte → Nat → Nat
  | [], c => c
  | b :: bs, c => match (crcByte poly (BitVec.ofNat 32 c) b).toNat with
    | 0 => crcGo poly bs 0
    | n + 1 => crcGo poly bs (n + 1)

theorem crcGo_eq (poly : W32) (bs : List Byte) (c : W32) :
    crcGo poly bs c.toNat = (bs.foldl (crcByte poly) c).toNat := by
  induction bs generalizing c with
  | nil => rfl
  | cons b bs ih =>
    rw [List.foldl_cons, ← ih, crcGo, BitVec.ofNat_toNat, BitVec.setWidth_eq]
    split <;> rename_i h <;> rw [h]

theorem crc32c_eq (bs : List Byte) : crc32c bs = ~~~ BitVec.ofNat 32 (crcGo 0x82F63B78#32 bs 0xFFFFFFFF) := by
  have h := crcGo_eq 0x82F63B78#32 bs 0xFFFFFFFF#32
  rw [crc32c, crc, show (0xFFFFFFFF : Nat) = (0xFFFFFFFF#32).toNat from rfl, h]
  simp

/-- The small image as it stands in staging. -/
def tBin : Bin := ⟨0x100000000000000010000000000001010101010100000000000000000100000400010001000440000000000200000000004000000001000000000000000000000000000000000000000000000000000000000000000000000000000000000000000000000000000000000000000000000000000000000000000000000000000000000000000000000000000000000000000000000000000000000000000000000000000000000000000000000000000000000000000000000000000000000000000000000000000000000000000000000000000000000000000000000000000000000000000000000000000000000000000000000000000000000000000000000000000000000000000000000000000000000000000000000000000000000000000000000000000000000000000000000000a0000000000000000000010000000108000000010080000000000000000000080000000100000000000000000000000d0000000a00000000000000820000000000000005000000200000000100000000000000000000000000000000000000000000000000000000000002000000002000000001000000000000000000000000000000000000000000000000000003e800000040000002bc00000280000002520000000000000000000000100000000200000000000000400000000100000000000000000000000000000000000000000000000000000000000004030000002000000001d44aa72f00000048000002900000000abe166bff000001100000018000000007c5ddba9c00000010000001700000000673036aed000000280000014800000005102f224a0000002800000120000000038ed0fd9800000048000000d80000000240fb66c800000028000000b000000001f2b1aa49000000000000000000000000000000000000000000000000000000000000000000000000000000000000000700000007000002d80000000249535841, 728, false⟩

theorem staged_tBin : fullStaged.staged false = tBin := by decide +kernel

theorem tBin_entry : ∀ n ∈ [0, 1, 2, 3, 4, 6], tBin.badEntry n = none := by decide +kernel

theorem tBin_rule : tBin.badEntry 5 = none := by
  have h : crc32c (tBin.bytes (tBin.sec 5).off (tBin.sec 5).len) = BitVec.ofNat 32 (tBin.fld (0x40 + 16 * 5 + 12) 4) := by
    rw [crc32c_eq]; decide +kernel
  simp only [Bin.badEntry, h]
  decide +kernel

theorem tBin_step1 : tBin.step1 0 none = none := by
  have hc : List.range tBin.count = [0, 1, 2, 3, 4, 5, 6] := by decide +kernel
  have hb : tBin.badHeader 0 = none := by decide +kernel
  have h0 : tBin.badEntry 0 = none := tBin_entry 0 (by decide)
  have h1 : tBin.badEntry 1 = none := tBin_entry 1 (by decide)
  have h2 : tBin.badEntry 2 = none := tBin_entry 2 (by decide)
  have h3 : tBin.badEntry 3 = none := tBin_entry 3 (by decide)
  have h4 : tBin.badEntry 4 = none := tBin_entry 4 (by decide)
  have h6 : tBin.badEntry 6 = none := tBin_entry 6 (by decide)
  have hs : firstOf ([firstBad [(!tBin.partialImg && [1, 2, 3, 5, 6, 7, 10].any (fun i => (tBin.find i).isNone), 0x0809, 0, 0x0C)]]
      ++ tBin.secs.map (tBin.badSection none)) = none := by decide +kernel
  simp only [Bin.step1, hb, hc, List.map_cons, List.map_nil, h0, h1, h2, h3, h4, tBin_rule, h6]
  simpa [firstOf] using hs

theorem tBin_steps : step2 tBin.img (tBin.recSize 13) fullStaged.hostClaim = none ∧ step3 tBin.img fullStaged = none ∧
    step4 tBin.img = none ∧ step5 tBin.img (tBin.recSize 3) = none ∧ step6 tBin.img (tBin.recSize 5) = none ∧
    step7 tBin.img fullStaged (tBin.recSize 6) = none ∧
    step8 tBin.img fullStaged (tBin.recSize 4) (tBin.recSize 3) = none ∧
    step9 tBin.img (tBin.recs 7) (tBin.recs 8) (tBin.recSize 7) (tBin.recSize 5) (tBin.recSize 8) = none ∧
    step10 tBin.img fullStaged = none ∧ step11 tBin.img (tBin.recSize 11) = none ∧ step12 tBin.img = none := by
  refine ⟨?_, ?_, ?_, ?_, ?_, ?_, ?_, ?_, ?_, ?_, ?_⟩ <;> decide +kernel

theorem checkFull_none (c : Cx) (b : Bin) (claim : Nat) (h1 : b.step1 0 none = none)
    (h : step2 b.img (b.recSize 13) claim = none ∧ step3 b.img c = none ∧
      step4 b.img = none ∧ step5 b.img (b.recSize 3) = none ∧ step6 b.img (b.recSize 5) = none ∧
      step7 b.img c (b.recSize 6) = none ∧ step8 b.img c (b.recSize 4) (b.recSize 3) = none ∧
      step9 b.img (b.recs 7) (b.recs 8) (b.recSize 7) (b.recSize 5) (b.recSize 8) = none ∧
      step10 b.img c = none ∧ step11 b.img (b.recSize 11) = none ∧ step12 b.img = none) : checkFull c b claim = none := by
  obtain ⟨h2, h3, h4, h5, h6, h7, h8, h9, h10, h11, h12⟩ := h
  simp only [checkFull, h1, h2, h3, h4, h5, h6, h7, h8, h9, h10, h11, h12]
  rfl

/-- The small image passes the whole check. -/
theorem test_full_image_passes (b : Bin) (hb : b = tBin) : checkFull fullStaged b fullStaged.hostClaim = none := by
  subst hb
  exact checkFull_none fullStaged tBin fullStaged.hostClaim tBin_step1 tBin_steps

/-! ### Ill-formed commands are refused -/

/-- Operand codes from 0x35 up are reserved (Table 9.3). -/
theorem test_wf_operand_code : (Instr.rAdd ⟨0#19, 0⟩ 0#4 0x35#6 0#6 noPred).wf = false ∧
    (Instr.rFma ⟨0#19, 0⟩ 0#4 0#6 0#6 0x3F#6 noPred).wf = false ∧ (Instr.rSqrt ⟨0#19, 0⟩ 0#4 0x35#6 noPred).wf = false ∧
    (Instr.rCeq ⟨0#19, 0⟩ 0#2 0#6 0x36#6 noPred).wf = false := by decide

/-- pn and p are zero while pe is 0 (R219). -/
theorem test_wf_predicate : (Instr.rMov ⟨0#19, 0⟩ 0#4 0#6 ⟨false, true, 0#2⟩).wf = false ∧
    (Instr.rLdw ⟨0#19, 0⟩ 0#4 false ⟨false, false, 1#2⟩).wf = false := by decide

/-- FSTAT takes constants only (R219). -/
theorem test_wf_fstat : (Instr.rFstat 0#19 0x0F#6 0x10#6 0x10#6).wf = false ∧
    (Instr.rFstat 0#19 0x10#6 0x10#6 0x30#6).wf = false := by decide

/-- VRND takes formats 0 to 4, CSEND at most 64 lanes (Table 11.7). -/
theorem test_wf_tadpole : (Instr.tVrnd 0 0#3 0#3 5#3).wf = false ∧ (Instr.tCsend 0 0#3 65#7).wf = false := by decide

/-- A GRAD_ADD carries at most 512 values (R184). -/
theorem test_wf_gradAdd : (Instr.gradAdd 0 0#128 (List.replicate 513 0#16)).wf = false := by decide +kernel

/-- Written data has the size the access says. -/
theorem test_wf_size : (Instr.apertureAccess .A 0#32 8 (some [])).wf = false ∧
    (Instr.newtWindowScratchpad 0 0x8000 64 (some [0#8])).wf = false := by decide

/-- A frame carries at most 256 bytes of payload (R333). -/
theorem test_wf_frame : (Instr.nullFrame 0 ⟨0#64, List.replicate 257 0#8, 0#32⟩).wf = false := by decide +kernel

/-- A message holds no more bytes than its size says. -/
theorem test_wf_message : (Instr.write 0 (msg 1 0 0 0 0 [0#8] [])).wf = false := by decide

/-! ### Words from the spec's encodings -/

/-- ADD v1 = v2 + c0 under p3: opcode 0x01, dest 1, A 0x02, B 0x10, C 0, pe 1, pn 0, p 3 (Tables 9.2 to 9.4). -/
theorem test_decode_add : decodeRule 0b000001_0001_000010_010000_000000_1_0_11#32 =
    some (.alu2 .add 1#4 0x02#6 0x10#6 ⟨true, false, 3#2⟩) := by decide

/-- STE v1 as E8b: opcode 0x2B, A 1, B 1 (Table 9.4). -/
theorem test_decode_ste : decodeRule 0b101011_0000_000001_000001_000000_0_0_00#32 = some (.ste 1#4 1#2) := by decide

/-- A word with a bit set in an unused field does not decode (R219). -/
theorem test_decode_unused : decodeRule 0b101011_0001_000001_000001_000000_0_0_00#32 = none := by decide

/-- BCAST f1 7, f2 1, lane 63: opcode 0x13 (R296, Table 11.7). -/
theorem test_decode_bcast : decodeTad 0b010011_111_001_000_00000000000_111111#32 = some (.bcast 7#3 1#3 63#6) := by decide

/-- LOOP s2 to 9: opcode 0x1B (Table 11.7). -/
theorem test_decode_loop : decodeTad 0b011011_010_000_000_000000000_00001001#32 = some (.loop 2#3 9#8) := by decide

/-! ### The spec's worked examples -/

/-- Chapter 2, M8: a largest magnitude of 0.75 gives the scale 0x3EC7 and the code 0x7F; -0.01 gives 0x9A. -/
theorem test_m8_example : m8Scale false 0x3F400000 = (0x3EC7#16, Flag.nx) ∧ (m8Code 0x3F400000#32 0x3EC7#16 none).1 = 0x7F#8 ∧
    (m8Code 0xBC23D70A#32 0x3EC7#16 none).1 = 0x9A#8 := by decide +kernel

/-- Chapter 2, RTO: 0x3F882000 through S16 to E8a. -/
theorem test_rto_example : (f32ToS16 .rne 0x3F882000#32).1 = 0x3F88#16 ∧ (f32ToE8 false .rne 0x3F880000#32).1 = 0x38#8 ∧
    (f32ToS16 .rto 0x3F882000#32).1 = 0x3F89#16 ∧ (f32ToE8 false .rne 0x3F890000#32).1 = 0x39#8 := by decide +kernel

/-- Chapter 2, beyond range: 0x7F7FF000 to S16 from a newt and into the state store, and 300.0 to E8a. -/
theorem test_overflow_example : outBytes 0 false 0x7F7FF000#32 = ([0x80#8, 0x7F#8], Flag.of_ ||| Flag.nx) ∧
    storeS16 .rne 0x7F7FF000#32 = (0x7F7F#16, Flag.clamp ||| Flag.nx) ∧
    outBytes 1 false 0x43960000#32 = ([0x78#8], Flag.of_ ||| Flag.nx) := by decide +kernel

/-- Chapter 2, subnormals in a newt: S16 0x0040 and E8a 0x03 read as +0, 2^-130 written to S16 as +0, each flushed. -/
theorem test_flush_example : widen 0 0x0040 = (0#32, Flag.flushed ||| Flag.uf) ∧
    widen 1 0x03 = (0#32, Flag.flushed ||| Flag.uf) ∧
    outBytes 0 false 0x00080000#32 = ([0#8, 0#8], Flag.flushed ||| Flag.uf) := by decide +kernel

/-- Chapter 2, subnormals in the update engine: S16 0x0040 widens exactly, 2^-130 is stored as 0x0008 without a flag. -/
theorem test_subnormal_example : s16ToF32 0x0040#16 = 0x00400000#32 ∧ storeS16 .rne 0x00080000#32 = (0x0008#16, 0#8) ∧
    e8ToF32 false 0x03#8 = 0x3BC00000#32 := by decide +kernel

/-- Chapter 2, splitting 1/3: the pieces' values are 170 * 2^-9, 170 * 2^-17 and 171 * 2^-25 (log entry 45). -/
theorem test_split_example : splitPieces 0x3EAAAAAB#32 3 = [0x3EAA#16, 0x3AAA#16, 0x36AB#16] := by decide +kernel

/-- Chapter 0: version 2 is newer than 0xFFFFFFFE. -/
theorem test_wrap_example : seqCmp 2#32 0xFFFFFFFE#32 = .newer ∧ seqCmp 0xFFFFFFFE#32 2#32 = .older := by decide

/-- Chapter 3: window 117 of a tensor with start stack 7 and base index 205 has id 4,224, in stack 4; state slot 5,310
begins at stack offset 0x5_58FC_0000; the W element there lies in channel 25 at channel offset 0x2AC8_9A2A. -/
theorem test_placement_example :
    Img.windowId { tImg with geo := { tImg.geo with active := List.range 20 } } { tTensor with start := 7, base := 205 } 117
      = 4224 ∧ winStack 4224 = 4 ∧
    Cx.slotOff { live with img := { live.img with cfg := some { tImg with lay := { tImg.lay with live := 13374 } } } } 5310
      = 0x558FC0000 ∧
    chanOff 25 0x2AC89A2A = 0x559139A2A := by decide +kernel

/-! ### Small effects -/

/-- A SIGNAL's record sets a sync object to a newer value and leaves an older one alone (R154). -/
theorem test_signal : (live.takeSignal 3 5#64).map (·.sync 3) = some 5#64 ∧
    (Cx.takeSignal { live with syncs := [(3, 9#64)] } 3 5#64).isNone = true := by decide +kernel

/-- COPY without conversion moves bytes from one place of host memory to another (R66). -/
theorem test_copy : (match exec (.copy 0#12) (next 0x01 [(16, hostA 0), (24, hostA 0x100), (32, 4), (40, 0)]
        { live with mem := [(hostA 1, 0x3F#8), (hostA 3, 0xC0#8)] }) with
      | .next t => t.cx.readAt (hostA 0x100) 4 | _ => []) = [0#8, 0x3F#8, 0#8, 0xC0#8] := by decide +kernel

def vaddNewt : Newt :=
  { tNewt [2#8] with
    store := [(0, encodeTad (.vec .vadd 0#3 1#3 2#3))]
    tad := some { pc := 0, a := [], x := [[], 0x3F800000#32 :: List.replicate 63 0#32, 0x40000000#32 :: List.replicate 63 0#32] } }

/-- VADD adds lane by lane: 1 + 2 = 3 in lane 0, 0 + 0 in lane 1 (Table 11.7). -/
theorem test_vadd : (match exec (.tVadd 0 0#3 1#3 2#3) (at_ (withNewt vaddNewt)) with
      | .next t => ((t.cx.newt 0).tad.map fun t => (t.xreg 0#3).take 2) | _ => none) =
    some [0x40400000#32, 0#32] := by decide +kernel

/-- After reset nothing waits, and a step changes nothing. -/
theorem test_idle : step State.reset = .next State.reset := rfl


/-- What `IdleStep` asks of its states and operands can be met. -/
theorem test_meets_idleStep :
  (∃ (s : State),
    s.pending = []) :=
  ⟨State.reset, by decide +kernel⟩

/-- What `QueueFirstInFirstOut` asks of its states and operands can be met. -/
theorem test_meets_queueFirstInFirstOut :
  (∃ (s t : State),
    ((∀ i ∈ s.pending, i.wf = true)) ∧
    step s = .next t) :=
  ⟨at_ live, at_ live, ⟨fun _ h => absurd h (List.not_mem_nil), rfl⟩⟩

/-- What `RuleWordRoundTrip` asks of its states and operands can be met. -/
theorem test_meets_ruleWordRoundTrip :
  (∃ (i : RInstr),
    i.wf = true) ∧
  (∃ (w : BitVec 32) (i : RInstr),
    decodeRule w = some i) :=
  ⟨⟨RInstr.alu2 .div 15#4 0x34#6 0x2F#6 ⟨true, true, 3#2⟩, by decide +kernel⟩,
  ⟨0x04410000#32, RInstr.alu2 .add 1#4 1#6 0#6 noPred, by decide +kernel⟩⟩

/-- What `TadpoleWordRoundTrip` asks of its states and operands can be met. -/
theorem test_meets_tadpoleWordRoundTrip :
  (∃ (i : TInstr),
    i.wf = true) ∧
  (∃ (w : BitVec 32) (i : TInstr),
    decodeTad w = some i) :=
  ⟨⟨TInstr.bcast 7#3 7#3 63#6, by decide +kernel⟩,
  ⟨0xFC000000#32, TInstr.end_, by decide +kernel⟩⟩

/-- What `SyncCommandsComplete` asks of its states and operands can be met. -/
theorem test_meets_syncCommandsComplete :
  (∃ (s : State) (st : StreamId) (num : W32) (cmd : BitVec 512),
    Starts s.cx st 0x00 num cmd) ∧
  (∃ (s : State) (st : StreamId) (num : W32) (cmd : BitVec 512),
    Starts s.cx st 0x10 num cmd ∧
    let c := s.cx.start st num cmd
    let f := newFlight s.cx st num cmd
    c.noMaster st = false ∧
    c.earlier st f = false) ∧
  (∃ (s : State) (st : StreamId) (num : W32) (cmd : BitVec 512),
    Starts s.cx st 0x11 num cmd ∧
    let c := s.cx.start st num cmd
    let f := newFlight s.cx st num cmd
    c.noMaster st = false ∧
    newerEq (c.sync (f.arg 16 12 0)) (BitVec.ofNat 64 (f.arg 24 63 0)) = true) ∧
  (∃ (s : State) (st : StreamId) (num : W32) (cmd : BitVec 512),
    Starts s.cx st 0x11 num cmd ∧
    let c := s.cx.start st num cmd
    let f := newFlight s.cx st num cmd
    newerEq (c.sync (f.arg 16 12 0)) (BitVec.ofNat 64 (f.arg 24 63 0)) = false ∧
    c.noMaster st = false) :=
  ⟨⟨next 0x00 [], 0#12, 0#32, cmdOf 0x00 [], by refine ⟨?_, ?_, ?_, ?_⟩ <;> decide +kernel⟩,
  ⟨next 0x10 [(16, 8191), (24, 1)], 0#12, 0#32, cmdOf 0x10 [(16, 8191), (24, 1)], by refine ⟨⟨?_, ?_, ?_, ?_⟩, ?_, ?_⟩ <;> decide +kernel⟩,
  ⟨next 0x11 [], 0#12, 0#32, cmdOf 0x11 [], by refine ⟨⟨?_, ?_, ?_, ?_⟩, ?_, ?_⟩ <;> decide +kernel⟩,
  ⟨next 0x11 [(24, 1)], 0#12, 0#32, cmdOf 0x11 [(24, 1)], by refine ⟨⟨?_, ?_, ?_, ?_⟩, ?_, ?_⟩ <;> decide +kernel⟩⟩

/-- What `CopyCompletes` asks of its states and operands can be met. -/
theorem test_meets_copyCompletes :
  (∃ (s : State) (st : StreamId) (num : W32) (cmd : BitVec 512),
    Starts s.cx st 0x01 num cmd ∧
    let c := s.cx.start st num cmd
    let f := newFlight s.cx st num cmd
    let src := f.arg 16 63 0
    let dst := f.arg 24 63 0
    let n := f.arg 32 63 0
    let conv := f.arg 40 2 0
    let z := copySize conv
    conv ≠ 7 ∧
    n % z.1 = 0 ∧
    f.bit 40 21 = false ∧
    f.bit 40 22 = false ∧
    c.refuseOperands st f [(.read, 1, src, n), (.write, 2, dst, n / z.1 * z.2)] = none ∧
    c.hubPoison src n = none) ∧
  (∃ (s : State) (st : StreamId) (num : W32) (cmd : BitVec 512) (off : Nat),
    Starts s.cx st 0x01 num cmd ∧
    let c := s.cx.start st num cmd
    let f := newFlight s.cx st num cmd
    let n := f.arg 32 63 0
    let z := copySize (f.arg 40 2 0)
    f.arg 40 2 0 ≠ 7 ∧
    n % z.1 = 0 ∧
    f.bit 40 21 = false ∧
    f.bit 40 22 = false ∧
    c.refuseOperands st f [(.read, 1, f.arg 16 63 0, n), (.write, 2, f.arg 24 63 0, n / z.1 * z.2)] = none ∧
    c.hubPoison (f.arg 16 63 0) n = some off) :=
  ⟨⟨next 0x01 [(16, hostA 0), (24, hostA 0x100), (32, 8), (40, 6)], 0#12, 0#32, cmdOf 0x01 [(16, hostA 0), (24, hostA 0x100), (32, 8), (40, 6)], by refine ⟨⟨?_, ?_, ?_, ?_⟩, ?_, ?_, ?_, ?_, ?_, ?_⟩ <;> decide +kernel⟩,
  ⟨next 0x01 [(16, hostA 64), (24, hostA 0x100), (32, 8), (40, 6)] ({ live with poison := [hostA 64 / 64] }), 0#12, 0#32, cmdOf 0x01 [(16, hostA 64), (24, hostA 0x100), (32, 8), (40, 6)], 0, by refine ⟨⟨?_, ?_, ?_, ?_⟩, ?_, ?_, ?_, ?_, ?_, ?_⟩ <;> decide +kernel⟩⟩

/-- What `ReleaseCommandsComplete` asks of its states and operands can be met. -/
theorem test_meets_releaseCommandsComplete :
  (∃ (s : State) (st : StreamId) (num : W32) (cmd : BitVec 512),
    Starts s.cx st 0x13 num cmd ∧
    let c := s.cx.start st num cmd
    let f := newFlight s.cx st num cmd
    let scope := f.arg 16 2 0
    scope ≤ 3 ∧
    bit (f.arg 16 5 4) 0 = true ∧
    ((scope = 0 → f.arg 24 9 0 < 640 ∧ c.active (f.arg 24 9 0 / 32) = true)) ∧
    ((scope = 1 → f.arg 24 14 10 < 20 ∧ c.active (f.arg 24 14 10) = true)) ∧
    c.earlier st f = false) ∧
  (∃ (s : State) (st : StreamId) (num : W32) (cmd : BitVec 512),
    Starts s.cx st 0x14 num cmd ∧
    let c := s.cx.start st num cmd
    let f := newFlight s.cx st num cmd
    let a := f.arg 16 63 0
    let n := f.arg 24 63 0
    n ≠ 0 ∧
    bits a 63 60 ≤ 1 ∧
    c.badOperand? st f .write 1 a n = none) ∧
  (∃ (s : State) (st : StreamId) (num : W32) (cmd : BitVec 512),
    Starts s.cx st 0x12 num cmd ∧
    let c := s.cx.start st num cmd
    let f := newFlight s.cx st num cmd
    let node := f.arg 16 48 32
    c.fab.unreachable.contains node = false ∧
    c.earlier st f = false ∧
    (c.releaseComplex.strm st.toNat).wroteNodes = []) :=
  ⟨⟨next 0x13 [(16, 16), (24, 31)], 0#12, 0#32, cmdOf 0x13 [(16, 16), (24, 31)], by refine ⟨⟨?_, ?_, ?_, ?_⟩, ?_, ?_, ?_, ?_, ?_⟩ <;> decide +kernel⟩,
  ⟨next 0x14 [(16, 600 * 131072), (24, 0x200)], 0#12, 0#32, cmdOf 0x14 [(16, 600 * 131072), (24, 0x200)], by refine ⟨⟨?_, ?_, ?_, ?_⟩, ?_, ?_, ?_⟩ <;> decide +kernel⟩,
  ⟨next 0x12 [(16, 0x102 * 2 ^ 32)], 0#12, 0#32, cmdOf 0x12 [(16, 0x102 * 2 ^ 32)], by refine ⟨⟨?_, ?_, ?_, ?_⟩, ?_, ?_, ?_⟩ <;> decide +kernel⟩⟩

/-- What `QueueCommandsComplete` asks of its states and operands can be met. -/
theorem test_meets_queueCommandsComplete :
  (∃ (s : State) (st : StreamId) (num : W32) (cmd : BitVec 512),
    Starts s.cx st 0x40 num cmd ∧
    let c := s.cx.start st num cmd
    let f := newFlight s.cx st num cmd
    let src := f.arg 16 63 0
    let q := f.arg 24 8 0
    let n := f.arg 32 63 0
    f.bit 24 26 = false ∧
    n ≤ c.streamsRec.entryBytes ∧
    c.queueOk q = true ∧
    c.badOperand? st f .read 1 src n = none ∧
    c.queueAway (c.dieOf st) q = none ∧
    c.queueFull q = false ∧
    c.myTurn (f.turn st false q) = true ∧
    c.hubPoison src n = none) ∧
  (∃ (s : State) (st : StreamId) (num : W32) (cmd : BitVec 512) (e : QEntry) (rest : List QEntry),
    Starts s.cx st 0x41 num cmd ∧
    let c := s.cx.start st num cmd
    let f := newFlight s.cx st num cmd
    let dst := f.arg 16 63 0
    let q := f.arg 24 8 0
    c.queueOk q = true ∧
    c.queueAway (c.dieOf st) q = none ∧
    c.queue q = e :: rest ∧
    c.badOperand? st f .write 1 dst e.data.length = none ∧
    c.myTurn (f.turn st true q) = true) ∧
  (∃ (s : State) (st : StreamId) (num : W32) (cmd : BitVec 512) (e : QEntry) (rest : List QEntry),
    Starts s.cx st 0x42 num cmd ∧
    let c := s.cx.start st num cmd
    let f := newFlight s.cx st num cmd
    let dst := f.arg 16 63 0
    let q := f.arg 24 8 0
    c.queueOk q = true ∧
    (bits dst 63 60 = 2 ∨ bits dst 63 60 = 4) ∧
    c.queueAway (c.dieOf st) q = none ∧
    c.queue q = e :: rest ∧
    c.badOperand? st f .write 1 dst (64 + e.data.length) = none ∧
    c.myTurn (f.turn st true q) = true) ∧
  (∃ (s : State) (st : StreamId) (num : W32) (cmd : BitVec 512),
    Starts s.cx st 0x43 num cmd ∧
    let c := s.cx.start st num cmd
    let f := newFlight s.cx st num cmd
    let src := f.arg 16 63 0
    let q := f.arg 24 8 0
    let h := c.readAt src 64
    let n := leNat ((h.drop 4).take 4)
    c.queueOk q = true ∧
    (bits src 63 60 = 2 ∨ bits src 63 60 = 4) ∧
    c.queueAway (c.dieOf st) q = none ∧
    c.badOperand? st f .read 1 src 64 = none ∧
    c.poisonIn src 64 = none ∧
    badOffload h c.streamsRec.entryBytes = none ∧
    c.badOperand? st f .read 1 src (64 + n) = none ∧
    c.queueFull q = false ∧
    c.myTurn (f.turn st false q) = true ∧
    c.poisonIn src (64 + n) = none) :=
  ⟨⟨next 0x40 [(16, hostA 0x100), (32, 8)], 0#12, 0#32, cmdOf 0x40 [(16, hostA 0x100), (32, 8)], by refine ⟨⟨?_, ?_, ?_, ?_⟩, ?_, ?_, ?_, ?_, ?_, ?_, ?_, ?_⟩ <;> decide +kernel⟩,
  ⟨next 0x41 [(16, hostA 0x100)] (live.setQueue 0 [⟨7#32, [1#8, 2#8]⟩]), 0#12, 0#32, cmdOf 0x41 [(16, hostA 0x100)], ⟨7#32, [1#8, 2#8]⟩, [], by refine ⟨⟨?_, ?_, ?_, ?_⟩, ?_, ?_, ?_, ?_, ?_⟩ <;> decide +kernel⟩,
  ⟨next 0x42 [(16, hostA 0x100)] (live.setQueue 0 [⟨7#32, [1#8, 2#8]⟩]), 0#12, 0#32, cmdOf 0x42 [(16, hostA 0x100)], ⟨7#32, [1#8, 2#8]⟩, [], by refine ⟨⟨?_, ?_, ?_, ?_⟩, ?_, ?_, ?_, ?_, ?_, ?_⟩ <;> decide +kernel⟩,
  ⟨next 0x43 [(16, hostA 0x100)], 0#12, 0#32, cmdOf 0x43 [(16, hostA 0x100)], by refine ⟨⟨?_, ?_, ?_, ?_⟩, ?_, ?_, ?_, ?_, ?_, ?_, ?_, ?_, ?_, ?_⟩ <;> decide +kernel⟩⟩

/-- What `RemoteAccessMessages` asks of its states and operands can be met. -/
theorem test_meets_remoteAccessMessages :
  (∃ (s : State) (p : Fin 13) (m : Msg),
    m.op.toNat = 0x01 ∧
    s.cx.arrived p m = true ∧
    let c := s.cx.consume p m
    c.remoteCheck (c.msgDie p) .write m.addr.toNat m.data.length = none) ∧
  (∃ (s : State) (p : Fin 13) (m : Msg),
    m.op.toNat = 0x02 ∧
    s.cx.arrived p m = true ∧
    let c := s.cx.consume p m
    c.remoteCheck (c.msgDie p) .read m.addr.toNat m.size = none ∧
    c.hubPoison m.addr.toNat m.size = none) ∧
  (∃ (s : State) (p : Fin 13) (m : Msg),
    m.op.toNat = 0x05 ∧
    s.cx.arrived p m = true) ∧
  (∃ (s : State) (p : Fin 13) (m : Msg),
    m.op.toNat = 0x07 ∧
    s.cx.arrived p m = true) ∧
  (∃ (s : State) (p : Fin 13) (m : Msg),
    m.op.toNat = 0x08 ∧
    s.cx.arrived p m = true ∧
    let c := s.cx.consume p m
    let q := bits m.arg.toNat 8 0
    let t : QueueTurn := { q := q, pop := false, who := 4096 + p.val, num := msgTurn m }
    s.cx.queueOk q = true ∧
    s.cx.queueAway (s.cx.msgDie p) q = none ∧
    s.cx.queueFull q = false ∧
    s.cx.myTurn t = true ∧
    c.queueOk q = true ∧
    c.queueAway (c.msgDie p) q = none ∧
    m.data.length ≤ c.streamsRec.entryBytes) :=
  ⟨⟨gets (msg 1 0 (3 * 2 ^ 60) 0 8 (List.replicate 8 1#8) []) live, 0, (msg 1 0 (3 * 2 ^ 60) 0 8 (List.replicate 8 1#8) []), by refine ⟨?_, ?_, ?_⟩ <;> decide +kernel⟩,
  ⟨gets (msg 2 0 (3 * 2 ^ 60) 0 8 [] []) live, 0, (msg 2 0 (3 * 2 ^ 60) 0 8 [] []), by refine ⟨?_, ?_, ?_, ?_⟩ <;> decide +kernel⟩,
  ⟨gets (msg 5 0 0 0 0 [] []) live, 0, (msg 5 0 0 0 0 [] []), by refine ⟨?_, ?_⟩ <;> decide +kernel⟩,
  ⟨gets (msg 7 0 0 5 0 [] []) live, 0, (msg 7 0 0 5 0 [] []), by refine ⟨?_, ?_⟩ <;> decide +kernel⟩,
  ⟨gets (msg 8 0 0 0 8 (List.replicate 8 1#8) []) live, 0, (msg 8 0 0 0 8 (List.replicate 8 1#8) []), by refine ⟨?_, ?_, ?_, ?_, ?_, ?_, ?_, ?_, ?_⟩ <;> decide +kernel⟩⟩

/-- What `RemoteAccessResponses` asks of its states and operands can be met. -/
theorem test_meets_remoteAccessResponses :
  (∃ (s : State) (p : Fin 13) (m : Msg) (r : Req) (g : Flight),
    s.cx.arrived p m = true ∧
    let c := s.cx.consume p m
    c.req? m.tag = some r ∧
    let d := c.answered r (m.fields.getD 0 0) (remoteResult r m)
    d.flight? r.stream r.command = some g ∧
    g.awaits ≠ [] ∧
    m.op.toNat = 0x03 ∧
    r.op = 0x01) ∧
  (∃ (s : State) (p : Fin 13) (m : Msg) (r : Req) (g : Flight),
    s.cx.arrived p m = true ∧
    let c := s.cx.consume p m
    c.req? m.tag = some r ∧
    let d := c.answered r (m.fields.getD 0 0) (remoteResult r m)
    d.flight? r.stream r.command = some g ∧
    g.awaits ≠ [] ∧
    m.op.toNat = 0x06 ∧
    r.op = 0x05) ∧
  (∃ (s : State) (p : Fin 13) (m : Msg) (r : Req) (g : Flight),
    s.cx.arrived p m = true ∧
    let c := s.cx.consume p m
    c.req? m.tag = some r ∧
    let d := c.answered r (m.fields.getD 0 0) (remoteResult r m)
    d.flight? r.stream r.command = some g ∧
    g.awaits ≠ [] ∧
    m.op.toNat = 0x09 ∧
    r.op = 0x08) ∧
  (∃ (s : State) (p : Fin 13) (m : Msg) (r : Req) (g : Flight),
    s.cx.arrived p m = true ∧
    let c := s.cx.consume p m
    c.req? m.tag = some r ∧
    let d := c.answered r (m.fields.getD 0 0) (remoteResult r m)
    d.flight? r.stream r.command = some g ∧
    g.awaits = [] ∧
    g.status = none ∧
    g.worst ≤ 2 ∧
    m.op.toNat = 0x03 ∧
    r.op = 0x01 ∧
    g.phase = 2) ∧
  (∃ (s : State) (p : Fin 13) (m : Msg) (r : Req) (g : Flight),
    s.cx.arrived p m = true ∧
    let c := s.cx.consume p m
    c.req? m.tag = some r ∧
    let d := c.answered r (m.fields.getD 0 0) (remoteResult r m)
    d.flight? r.stream r.command = some g ∧
    g.awaits = [] ∧
    g.status = none ∧
    g.worst ≤ 2 ∧
    m.op.toNat = 0x06 ∧
    r.op = 0x05 ∧
    g.op = 0x13 ∧
    g.phase = 1 ∧
    bit (g.arg 16 5 4) 1 = false) ∧
  (∃ (s : State) (p : Fin 13) (m : Msg) (r : Req) (g : Flight),
    s.cx.arrived p m = true ∧
    let c := s.cx.consume p m
    c.req? m.tag = some r ∧
    let d := c.answered r (m.fields.getD 0 0) (remoteResult r m)
    d.flight? r.stream r.command = some g ∧
    g.awaits = [] ∧
    g.status = none ∧
    g.worst ≤ 2 ∧
    m.op.toNat = 0x09 ∧
    r.op = 0x08 ∧
    g.phase = 1) ∧
  (∃ (s : State) (p : Fin 13) (m : Msg) (r : Req) (g : Flight),
    s.cx.arrived p m = true ∧
    let c := s.cx.consume p m
    c.req? m.tag = some r ∧
    m.op.toNat = 0x04 ∧
    r.op = 0x02 ∧
    let d := (c.modFlight r.stream r.command fun f => { f with data := putSlice f.data r.off (m.data.take r.len) }).answered
      r (m.fields.getD 0 0) (remoteResult r m)
    d.flight? r.stream r.command = some g ∧
    g.awaits ≠ []) ∧
  (∃ (s : State) (p : Fin 13) (m : Msg) (r : Req) (g : Flight),
    s.cx.arrived p m = true ∧
    let c := s.cx.consume p m
    c.req? m.tag = some r ∧
    m.op.toNat = 0x04 ∧
    r.op = 0x02 ∧
    let d := (c.modFlight r.stream r.command fun f => { f with data := putSlice f.data r.off (m.data.take r.len) }).answered
      r (m.fields.getD 0 0) (remoteResult r m)
    d.flight? r.stream r.command = some g ∧
    g.awaits = [] ∧
    g.status = none ∧
    g.worst ≤ 2 ∧
    g.phase = 1) :=
  ⟨⟨gets (msg 3 1 0 0 1 [] []) ({ flying ({ flight 0x13 [(16, 16), (24, 31)] with awaits := [3, 4], phase := 2 }) with fab := { live.fab with reqs := [{ tag := 3#16, dest := 0x102, op := 1, stream := 0#12, command := 0#32, off := 0, len := 1 }] } }), 0, (msg 3 1 0 0 1 [] []), { tag := 3#16, dest := 0x102, op := 1, stream := 0#12, command := 0#32, off := 0, len := 1 }, { flight 0x13 [(16, 16), (24, 31)] with awaits := [4], phase := 2 }, by refine ⟨?_, ?_, ?_, ?_, ?_, ?_⟩ <;> decide +kernel⟩,
  ⟨gets (msg 6 1 0 0 1 [] []) ({ flying ({ flight 0x13 [(16, 16), (24, 31)] with awaits := [3, 4], phase := 1 }) with fab := { live.fab with reqs := [{ tag := 3#16, dest := 0x102, op := 5, stream := 0#12, command := 0#32, off := 0, len := 1 }] } }), 0, (msg 6 1 0 0 1 [] []), { tag := 3#16, dest := 0x102, op := 5, stream := 0#12, command := 0#32, off := 0, len := 1 }, { flight 0x13 [(16, 16), (24, 31)] with awaits := [4], phase := 1 }, by refine ⟨?_, ?_, ?_, ?_, ?_, ?_⟩ <;> decide +kernel⟩,
  ⟨gets (msg 9 1 0 0 1 [] []) ({ flying ({ flight 0x13 [(16, 16), (24, 31)] with awaits := [3, 4], phase := 1 }) with fab := { live.fab with reqs := [{ tag := 3#16, dest := 0x102, op := 8, stream := 0#12, command := 0#32, off := 0, len := 1 }] } }), 0, (msg 9 1 0 0 1 [] []), { tag := 3#16, dest := 0x102, op := 8, stream := 0#12, command := 0#32, off := 0, len := 1 }, { flight 0x13 [(16, 16), (24, 31)] with awaits := [4], phase := 1 }, by refine ⟨?_, ?_, ?_, ?_, ?_, ?_⟩ <;> decide +kernel⟩,
  ⟨gets (msg 3 1 0 0 1 [] []) ({ flying ({ flight 0x13 [(16, 16), (24, 31)] with awaits := [3], phase := 2 }) with fab := { live.fab with reqs := [{ tag := 3#16, dest := 0x102, op := 1, stream := 0#12, command := 0#32, off := 0, len := 1 }] } }), 0, (msg 3 1 0 0 1 [] []), { tag := 3#16, dest := 0x102, op := 1, stream := 0#12, command := 0#32, off := 0, len := 1 }, { flight 0x13 [(16, 16), (24, 31)] with awaits := [], phase := 2 }, by refine ⟨?_, ?_, ?_, ?_, ?_, ?_, ?_, ?_, ?_⟩ <;> decide +kernel⟩,
  ⟨gets (msg 6 1 0 0 1 [] []) ({ flying ({ flight 0x13 [(16, 16), (24, 31)] with awaits := [3], phase := 1 }) with fab := { live.fab with reqs := [{ tag := 3#16, dest := 0x102, op := 5, stream := 0#12, command := 0#32, off := 0, len := 1 }] } }), 0, (msg 6 1 0 0 1 [] []), { tag := 3#16, dest := 0x102, op := 5, stream := 0#12, command := 0#32, off := 0, len := 1 }, { flight 0x13 [(16, 16), (24, 31)] with awaits := [], phase := 1 }, by refine ⟨?_, ?_, ?_, ?_, ?_, ?_, ?_, ?_, ?_, ?_, ?_⟩ <;> decide +kernel⟩,
  ⟨gets (msg 9 1 0 0 1 [] []) ({ flying ({ flight 0x13 [(16, 16), (24, 31)] with awaits := [3], phase := 1 }) with fab := { live.fab with reqs := [{ tag := 3#16, dest := 0x102, op := 8, stream := 0#12, command := 0#32, off := 0, len := 1 }] } }), 0, (msg 9 1 0 0 1 [] []), { tag := 3#16, dest := 0x102, op := 8, stream := 0#12, command := 0#32, off := 0, len := 1 }, { flight 0x13 [(16, 16), (24, 31)] with awaits := [], phase := 1 }, by refine ⟨?_, ?_, ?_, ?_, ?_, ?_, ?_, ?_, ?_⟩ <;> decide +kernel⟩,
  ⟨gets (msg 4 1 0 0 1 [5#8] []) ({ flying ({ flight 0x13 [(16, 16), (24, 31)] with awaits := [3, 4], phase := 1 }) with fab := { live.fab with reqs := [{ tag := 3#16, dest := 0x102, op := 2, stream := 0#12, command := 0#32, off := 0, len := 1 }] } }), 0, (msg 4 1 0 0 1 [5#8] []), { tag := 3#16, dest := 0x102, op := 2, stream := 0#12, command := 0#32, off := 0, len := 1 }, { flight 0x13 [(16, 16), (24, 31)] with awaits := [4], phase := 1, data := [5#8] }, by refine ⟨?_, ?_, ?_, ?_, ?_, ?_⟩ <;> decide +kernel⟩,
  ⟨gets (msg 4 1 0 0 1 [5#8] []) ({ flying ({ flight 0x13 [(16, 16), (24, 31)] with awaits := [3], phase := 1 }) with fab := { live.fab with reqs := [{ tag := 3#16, dest := 0x102, op := 2, stream := 0#12, command := 0#32, off := 0, len := 1 }] } }), 0, (msg 4 1 0 0 1 [5#8] []), { tag := 3#16, dest := 0x102, op := 2, stream := 0#12, command := 0#32, off := 0, len := 1 }, { flight 0x13 [(16, 16), (24, 31)] with awaits := [], phase := 1, data := [5#8] }, by refine ⟨?_, ?_, ?_, ?_, ?_, ?_, ?_, ?_, ?_⟩ <;> decide +kernel⟩⟩

/-- What `DoorbellsAndFetches` asks of its states and operands can be met. -/
theorem test_meets_doorbellsAndFetches :
  (∃ (s : State) (p : Side) (st : StreamId) (v : W64) (g : Img) (d : Desc),
    let c := s.cx
    let x := c.strm st.toNat
    c.serves p = true ∧
    c.enabled = true ∧
    c.img.cfg = some g ∧
    st.toNat < g.streams.count ∧
    x.serving = some p ∧
    x.routing = none ∧
    x.desc = some d ∧
    x.st ≠ .halted ∧
    x.st ≠ .reinit ∧
    x.fetching = false ∧
    d.poll = false ∧
    d.generation = bellGen v ∧
    x.gen = bellGen v ∧
    newer (bellLast v) x.inForce = true ∧
    (bellLast v - x.done).toNat ≤ 2 ^ d.ringLog2) ∧
  (∃ (s : State) (p : Side) (st : StreamId) (v : W64) (g : Img),
    let c := s.cx
    let x := c.strm st.toNat
    c.serves p = true ∧
    c.enabled = true ∧
    c.img.cfg = some g ∧
    st.toNat < g.streams.count ∧
    x.serving = none ∧
    x.routing = none ∧
    x.st ≠ .halted) ∧
  (∃ (s : State) (st : StreamId) (g : Img) (d : Desc) (e : Side),
    let c := s.cx
    let x := c.strm st.toNat
    let r := c.accessNum d.flagAddr.toNat 8
    c.enabled = true ∧
    c.img.enableBit = true ∧
    c.img.cfg = some g ∧
    st.toNat < g.streams.count ∧
    x.serving = some e ∧
    x.desc = some d ∧
    d.poll = true ∧
    c.serves e = true ∧
    x.st ≠ .halted ∧
    x.st ≠ .reinit ∧
    c.fetchable e d.flagAddr.toNat 8 = true ∧
    x.flag = some (BitVec.ofNat 64 r.2)) ∧
  (∃ (s : State) (st : StreamId) (d : Desc) (e : Side),
    let c := s.cx
    let x := c.strm st.toNat
    let r := c.accessNum (c.descAddr st.toNat) 64
    c.img.enableBit = true ∧
    x.routing = none ∧
    x.fetching = true ∧
    x.serving = some e ∧
    c.fetchable e (c.descAddr st.toNat) 64 = true ∧
    readDesc r.2 = some d ∧
    r.1.descServer e r.2 = e ∧
    d.generation = (x.waiting.head?.map fun w => bellGen w.2).getD x.gen) ∧
  (∃ (s : State) (st : StreamId) (d : Desc) (n : W32) (die : Side),
    let c := s.cx
    let x := c.strm st.toNat
    let a := d.ringBase.toNat + 64 * (n.toNat % 2 ^ d.ringLog2)
    x.desc = some d ∧
    x.toFetch = some n ∧
    x.serving = some die ∧
    x.st = .active ∧
    c.enabled = true ∧
    c.img.enableBit = true ∧
    c.serves die = true ∧
    c.inFlight die < 4096 ∧
    c.fetchable die a 64 = true) :=
  ⟨⟨at_ live, .A, 0#12, 0x3F#64, tImg, tDesc, by refine ⟨?_, ?_, ?_, ?_, ?_, ?_, ?_, ?_, ?_, ?_, ?_, ?_, ?_, ?_, ?_⟩ <;> decide +kernel⟩,
  ⟨at_ live, .A, 1#12, 0x3F#64, tImg, by refine ⟨?_, ?_, ?_, ?_, ?_, ?_, ?_⟩ <;> decide +kernel⟩,
  ⟨at_ (live.modStrm 0 fun x => { x with desc := some { tDesc with poll := true, flagAddr := BitVec.ofNat 64 (hostA 0x9000) }, flag := some 0#64 }), 0#12, tImg, { tDesc with poll := true, flagAddr := BitVec.ofNat 64 (hostA 0x9000) }, .A, by refine ⟨?_, ?_, ?_, ?_, ?_, ?_, ?_, ?_, ?_, ?_, ?_, ?_⟩ <;> decide +kernel⟩,
  ⟨at_ { (live.modStrm 0 fun x => { x with fetching := true }) with mem := [(hostA 0x20001, 0x10#8), (hostA 0x20007, 0x40#8), (hostA 0x20009, 0x80#8), (hostA 0x2000F, 0x40#8), (hostA 0x2001A, 6#8), (hostA 0x2001B, 6#8), (hostA 0x2001C, 1#8)] }, 0#12, tDesc, .A, by refine ⟨?_, ?_, ?_, ?_, ?_, ?_, ?_, ?_⟩ <;> decide +kernel⟩,
  ⟨at_ live, 0#12, tDesc, 0#32, .A, by refine ⟨?_, ?_, ?_, ?_, ?_, ?_, ?_, ?_, ?_⟩ <;> decide +kernel⟩⟩

/-- What `RecordsAndStreamControl` asks of its states and operands can be met. -/
theorem test_meets_recordsAndStreamControl :
  (∃ (s : State) (st : StreamId) (ticks : Nat) (f : Flight) (rest : List Flight) (d : Side) (desc : Desc),
    let c := s.cx
    let x := c.strm st.toNat
    let a := desc.completionBase.toNat + 32 * (f.number.toNat % 2 ^ desc.complLog2)
    x.flights = f :: rest ∧
    x.serving = some d ∧
    f.status ≠ none ∧
    f.owed = 0 ∧
    c.serves d = true ∧
    f.desc = some desc ∧
    ((bits a 63 60 = 4 → (c.port (Side.ofNum (bits a 57 57))).up = true ∧
      (c.port (Side.ofNum (bits a 57 57))).busMaster = true)) ∧
    c.checkRange .write a 32 = none ∧
    c.unreachable? d a = none) ∧
  (∃ (s : State) (st : StreamId) (num : W32) (f : Flight),
    s.cx.flight? st num = some f ∧
    f.status = none ∧
    f.timeout ≠ 0 ∧
    (¬ (f.op = 0x33 ∧ 2 ≤ f.phase))) ∧
  (∃ (s : State) (d : Side),
    s.cx.serves d = true ∧
    s.cx.foreign d = false) ∧
  (∃ (s : State) (d : Side),
    s.cx.serves d = true ∧
    s.cx.foreign d = false ∧
    (s.cx.strm (s.cx.selected d).toNat).flights = [] ∧
    (s.cx.strm (s.cx.selected d).toNat).st ≠ .reinit) ∧
  (∃ (s : State) (d : Side),
    s.cx.serves d = true ∧
    s.cx.foreign d = false ∧
    (s.cx.strm (s.cx.selected d).toNat).flights ≠ [] ∧
    (s.cx.strm (s.cx.selected d).toNat).st ≠ .reinit) ∧
  (∃ (s : State) (d : Side),
    s.cx.serves d = true ∧
    s.cx.foreign d = false ∧
    (s.cx.strm (s.cx.selected d).toNat).st = .reinit) :=
  ⟨⟨at_ (flying { flight 0 [] with status := some 0 }), 0#12, 0, { flight 0 [] with status := some 0 }, [], .A, tDesc, by refine ⟨?_, ?_, ?_, ?_, ?_, ?_, ?_, ?_, ?_⟩ <;> decide +kernel⟩,
  ⟨at_ (flying (flight 0x11 [(20, 5)])), 0#12, 0#32, flight 0x11 [(20, 5)], by refine ⟨?_, ?_, ?_, ?_⟩ <;> decide +kernel⟩,
  ⟨at_ live, .A, by refine ⟨?_, ?_⟩ <;> decide +kernel⟩,
  ⟨at_ live, .A, by refine ⟨?_, ?_, ?_, ?_⟩ <;> decide +kernel⟩,
  ⟨at_ (flying (flight 0 [])), .A, by refine ⟨?_, ?_, ?_, ?_⟩ <;> decide +kernel⟩,
  ⟨at_ (live.modStrm 0 fun x => { x with st := .reinit }), .A, by refine ⟨?_, ?_, ?_⟩ <;> decide +kernel⟩⟩

/-- What `RegisterAccesses` asks of its states and operands can be met. -/
theorem test_meets_registerAccesses :
  (∃ (s : State) (p : Side) (off : BitVec 25) (v : W64) (b : Blk) (o : Nat),
    s.cx.serves p = true ∧
    off.toNat % 4 = 0 ∧
    blockOf off.toNat = some (b, o) ∧
    s.cx.readReg p b o ≠ none ∧
    s.cx.reachable p b o = true) ∧
  (∃ (s : State) (p : Side) (off : BitVec 25) (b : Blk) (o v : Nat),
    s.cx.serves p = true ∧
    off.toNat % 4 = 0 ∧
    blockOf off.toNat = some (b, o) ∧
    s.cx.readReg p b o = some v ∧
    s.cx.reachable p b o = true) ∧
  (∃ (c : Cx) (p : Side) (n : Fin 640) (o off : Nat),
    isRc (.nwt n) o = true) ∧
  (∃ (s : State) (p : Side) (off : BitVec 25) (size : Nat) (v : W64),
    s.cx.serves p = true ∧
    (¬ (size = 4 ∧ off.toNat % 4 = 0)) ∧
    (¬ (size = 8 ∧ off.toNat % 8 = 0))) ∧
  (∃ (s : State) (p : Side) (v : W32),
    s.cx.serves p = true) ∧
  (∃ (s : State) (p : Side) (off : W32) (size : Nat) (bs : List Byte),
    let a := s.cx.apertureAddr p off
    s.cx.serves p = true ∧
    bits a 63 60 ≠ 4 ∧
    s.cx.checkRange .write a bs.length = none ∧
    s.cx.unreachable? p a = none) ∧
  (∃ (s : State) (p : Side) (off : W32) (size : Nat),
    let a := s.cx.apertureAddr p off
    s.cx.serves p = true ∧
    bits a 63 60 ≠ 4 ∧
    s.cx.checkRange .debug a size = none ∧
    s.cx.unreachable? p a = none) ∧
  (∃ (s : State) (p : Side) (off : W32) (size : Nat) (w : Option (List Byte)),
    let a := s.cx.apertureAddr p off
    let n := (w.map List.length).getD size
    s.cx.serves p = true ∧
    (bits a 63 60 = 4 ∨ s.cx.checkRange (if w.isSome then .write else .debug) a n ≠ none)) ∧
  (∃ (c : Cx) (a : Nat) (bs : List Byte),
    c.touchesWindow a bs.length = false) :=
  ⟨⟨at_ live, .A, 0x30080#25, 1#64, .hub .A, 0x80, by refine ⟨?_, ?_, ?_, ?_, ?_⟩ <;> decide +kernel⟩,
  ⟨at_ live, .A, 0x30080#25, .hub .A, 0x80, 0, by refine ⟨?_, ?_, ?_, ?_, ?_⟩ <;> decide +kernel⟩,
  ⟨live, .A, 3, 0x30, 0x1000, by decide +kernel⟩,
  ⟨at_ live, .A, 0x30080#25, 2, 1#64, by refine ⟨?_, ?_, ?_⟩ <;> decide +kernel⟩,
  ⟨at_ live, .A, 0#32, by decide +kernel⟩,
  ⟨at_ { live with portA := { tPort with aperture := 0x4B00000#64 } }, .A, 0#32, 8, [1#8], by refine ⟨?_, ?_, ?_, ?_⟩ <;> decide +kernel⟩,
  ⟨at_ { live with portA := { tPort with aperture := 0x4B00000#64 } }, .A, 0#32, 8, by refine ⟨?_, ?_, ?_, ?_⟩ <;> decide +kernel⟩,
  ⟨at_ { live with portA := { tPort with aperture := 0x4000000000000000#64 } }, .A, 0#32, 8, none, by refine ⟨?_, ?_⟩ <;> decide +kernel⟩,
  ⟨live, 0, [1#8], by decide +kernel⟩⟩

/-- What `FunctionLevelReset` asks of its states and operands can be met. -/
theorem test_meets_functionLevelReset :
  (∃ (s : State) (p : Side),
    s.cx.coreUp p = true) :=
  ⟨at_ live, .A, by decide +kernel⟩

/-- What `EventRings` asks of its states and operands can be met. -/
theorem test_meets_eventRings :
  (∃ (s : State) (n : Nat) (e : Ev),
    s.cx.arb.queue[s.cx.arb.pick n]? = some e ∧
    s.cx.coreUp s.cx.master = true) ∧
  (∃ (s : State) (n : Nat) (r : NanRec),
    s.cx.arb.nans[n]? = some r) ∧
  (∃ (s : State) (p : Side),
    (s.cx.port p).ring.holdoff ≠ 0 ∧
    (s.cx.port p).ring.unsignalled ≠ 0) ∧
  (∃ (s : State) (p : Side) (v : W32),
    let g := (s.cx.port p).ring
    let h := bits v.toNat 15 0
    let m := 2 ^ g.size
    h < m ∧
    (h + m - g.head) % m ≤ (g.tail + m - g.head) % m) ∧
  (∃ (s : State) (p : Side) (v : W32),
    (s.cx.port p).ring.enable = false ∧
    bits v.toNat 11 0 = 0) ∧
  (∃ (s : State) (p : Side) (v : W32),
    (s.cx.port p).ring.enable = false) ∧
  (∃ (s : State) (p : Side) (v : W32),
    ((s.cx.port p).ring.enable = false ∨ ringSize (bits v.toNat 12 8) = (s.cx.port p).ring.size)) :=
  ⟨⟨at_ { live with arb := { live.arb with queue := [{ code := 0x0002, unitClass := 6, sev := 2, die := .A, index := 0, fields := [] }] } }, 0, { code := 0x0002, unitClass := 6, sev := 2, die := .A, index := 0, fields := [] }, by refine ⟨?_, ?_⟩ <;> decide +kernel⟩,
  ⟨at_ { live with arb := { live.arb with nans := [{ step := none, unitClass := 4, index := 0, element := 0 }] } }, 0, { step := none, unitClass := 4, index := 0, element := 0 }, by decide +kernel⟩,
  ⟨at_ { live with portA := { tPort with ring := { tPort.ring with holdoff := 1, unsignalled := 2 } } }, .A, by refine ⟨?_, ?_⟩ <;> decide +kernel⟩,
  ⟨at_ { live with portA := { tPort with ring := { tPort.ring with tail := 5 } } }, .A, 5#32, by refine ⟨?_, ?_⟩ <;> decide +kernel⟩,
  ⟨at_ live, .A, 0x80000000#32, by refine ⟨?_, ?_⟩ <;> decide +kernel⟩,
  ⟨at_ live, .A, 0#32, by decide +kernel⟩,
  ⟨at_ live, .A, 0x801#32, by decide +kernel⟩⟩

/-- What `EventNumbersRise` asks of its states and operands can be met. -/
theorem test_meets_eventNumbersRise :
  (∃ (s : State) (n : Nat) (e : Ev),
    s.cx.arb.queue[s.cx.arb.pick n]? = some e ∧
    s.cx.coreUp s.cx.master = true) :=
  ⟨at_ { live with arb := { live.arb with queue := [{ code := 0x0002, unitClass := 6, sev := 2, die := .A, index := 0, fields := [] }] } }, 0, { code := 0x0002, unitClass := 6, sev := 2, die := .A, index := 0, fields := [] }, by refine ⟨?_, ?_⟩ <;> decide +kernel⟩

/-- What `ImageLifeCycle` asks of its states and operands can be met. -/
theorem test_meets_imageLifeCycle :
  (∃ (s : State) (d : Side),
    s.cx.serves d = true ∧
    (s.cx.img.st = .empty ∨ s.cx.img.st = .loaded ∨ s.cx.img.st = .refused)) ∧
  (∃ (s : State),
    s.cx.img.st = .loading ∧
    s.cx.img.push = none ∧
    s.cx.img.loadLen ≠ 0 ∧
    s.cx.img.loadLen ≤ 0x4000000 ∧
    s.cx.loadable = true) ∧
  (∃ (s : State) (d : Side),
    s.cx.serves d = true ∧
    (s.cx.img.st = .loaded ∨ s.cx.img.st = .refused) ∧
    s.cx.awake .A = true ∧
    s.cx.awake .B = true ∧
    checkFull s.cx (s.cx.staged false) s.cx.hostClaim = none) ∧
  (∃ (s : State) (d : Side) (x : _),
    s.cx.serves d = true ∧
    (s.cx.img.st = .loaded ∨ s.cx.img.st = .refused) ∧
    s.cx.awake .A = true ∧
    s.cx.awake .B = true ∧
    checkFull s.cx (s.cx.staged false) s.cx.hostClaim = some x) ∧
  (∃ (s : State) (d : Side),
    s.cx.serves d = true ∧
    (s.cx.img.st = .loaded ∨ s.cx.img.st = .refused) ∧
    (s.cx.awake .A = false ∨ s.cx.awake .B = false)) ∧
  (∃ (s : State) (g : Img),
    s.cx.img.checked = some g ∧
    s.cx.img.st = .checking ∧
    s.cx.coreUp .A = true ∧
    s.cx.coreUp .B = true) ∧
  (∃ (s : State) (d : Side) (g : Img),
    s.cx.img.cfg = some g ∧
    s.cx.serves d = true ∧
    s.cx.enabled = true ∧
    s.cx.img.part = .loaded ∧
    checkPartial g (s.cx.staged true) s.cx.hostClaim = none) ∧
  (∃ (s : State) (d : Side),
    s.cx.serves d = true ∧
    s.cx.enabled = true ∧
    s.cx.img.enableBit = true) :=
  ⟨⟨at_ { live with img := { st := .loaded } }, .A, by refine ⟨?_, ?_⟩ <;> decide +kernel⟩,
  ⟨at_ { live with img := { st := .loading, loadLen := 64, loadAddr := BitVec.ofNat 64 (hostA 0) } }, by refine ⟨?_, ?_, ?_, ?_, ?_⟩ <;> decide +kernel⟩,
  ⟨at_ fullStaged, .A, ⟨by decide +kernel, by decide, by decide +kernel, by decide +kernel, test_full_image_passes _ staged_tBin⟩⟩,
  ⟨at_ { live with img := { st := .loaded } }, .A, (checkFull (at_ { live with img := { st := .loaded } }).cx ((at_ { live with img := { st := .loaded } }).cx.staged false) (at_ { live with img := { st := .loaded } }).cx.hostClaim).getD (0, 0, 0), by refine ⟨?_, ?_, ?_, ?_, ?_⟩ <;> decide +kernel⟩,
  ⟨at_ { live with img := { st := .loaded }, dieB := { tDie with power := .dew } }, .A, by refine ⟨?_, ?_, ?_⟩ <;> decide +kernel⟩,
  ⟨at_ { live with img := { st := .checking, checked := some tImg } }, tImg, by refine ⟨?_, ?_, ?_, ?_⟩ <;> decide +kernel⟩,
  ⟨at_ partStaged, .A, tImg, by refine ⟨?_, ?_, ?_, ?_, ?_⟩ <;> decide +kernel⟩,
  ⟨at_ live, .A, by refine ⟨?_, ?_, ?_⟩ <;> decide +kernel⟩⟩

/-- What `TelemetryAndTestAccess` asks of its states and operands can be met. -/
theorem test_meets_telemetryAndTestAccess :
  (∃ (s : State) (d : Side),
    s.cx.serves d = true) ∧
  (∃ (s : State) (d : Side) (progress : Bool),
    (s.cx.die d).aon = true ∧
    s.cx.coreUp d = true ∧
    ((s.cx.die d).power = .run ∨ (s.cx.die d).power = .thaw) ∧
    s.cx.governed d = false) ∧
  (∃ (s : State) (d : Side),
    (s.cx.die d).aon = true) :=
  ⟨⟨at_ live, .A, by decide +kernel⟩,
  ⟨at_ live, .A, true, by refine ⟨?_, ?_, ?_, ?_⟩ <;> decide +kernel⟩,
  ⟨at_ live, .A, by decide +kernel⟩⟩

/-- What `SmbusCommands` asks of its states and operands can be met. -/
theorem test_meets_smbusCommands :
  (∃ (s : State) (d : Side),
    (s.cx.die d).aon = true) ∧
  (∃ (s : State) (d : Side) (target : Byte),
    (s.cx.die d).aon = true ∧
    (target.toNat = 0 ∨ target.toNat = 1 ∨ target.toNat = 3)) ∧
  (∃ (s : State) (d : Side) (off v : W32) (b : Blk) (o : Nat),
    (s.cx.die d).aon = true ∧
    blockOf off.toNat = some (b, o) ∧
    off.toNat % 4 = 0 ∧
    s.cx.readReg d b o ≠ none ∧
    (b.isPwr = true ∨ (s.cx.die d).power = .run) ∧
    b.smbReads = true) ∧
  (∃ (s : State) (d : Side) (off v : W32) (b : Blk) (o : Nat),
    (s.cx.die d).aon = true ∧
    blockOf off.toNat = some (b, o) ∧
    off.toNat % 4 = 0 ∧
    s.cx.readReg d b o ≠ none ∧
    (b.isPwr = true ∨ (s.cx.die d).power = .run) ∧
    b.smbWrites o = true) ∧
  (∃ (s : State) (d : Side) (target : Byte) (off v : W32),
    (s.cx.die d).aon = true) :=
  ⟨⟨at_ live, .A, by decide +kernel⟩,
  ⟨at_ live, .A, 3#8, by refine ⟨?_, ?_⟩ <;> decide +kernel⟩,
  ⟨at_ live, .A, 0x30080#32, 0#32, .hub .A, 0x80, by refine ⟨?_, ?_, ?_, ?_, ?_, ?_⟩ <;> decide +kernel⟩,
  ⟨at_ live, .A, 0x30100#32, 0#32, .hub .A, 0x100, by refine ⟨?_, ?_, ?_, ?_, ?_, ?_⟩ <;> decide +kernel⟩,
  ⟨at_ live, .A, 9#8, 0#32, 0#32, by decide +kernel⟩⟩

/-- What `RuleRowsRun` asks of its states and operands can be met. -/
theorem test_meets_ruleRowsRun :
  (∃ (s : State) (at_ : LaneAt) (v : Win) (p : Pass) (t : Tensor) (l : LaneCtx) (d : BitVec 4) (a b k : BitVec 6) (x y z : BitVec 2) (m : Bool) (q : RPred) (r : RInstr × Instr),
    r ∈ ([
      (.alu2 .add d a b q, .rAdd at_ d a b q), (.alu2 .sub d a b q, .rSub at_ d a b q),
      (.alu2 .mul d a b q, .rMul at_ d a b q), (.alu3 .fma d a b k q, .rFma at_ d a b k q),
      (.alu3 .fnma d a b k q, .rFnma at_ d a b k q), (.alu2 .div d a b q, .rDiv at_ d a b q),
      (.alu1 .sqrt d a q, .rSqrt at_ d a q), (.alu1 .rsqrt d a q, .rRsqrt at_ d a q),
      (.alu2 .max d a b q, .rMax at_ d a b q), (.alu2 .min d a b q, .rMin at_ d a b q),
      (.alu1 .abs d a q, .rAbs at_ d a q), (.alu1 .neg d a q, .rNeg at_ d a q),
      (.alu1 .sign d a q, .rSign at_ d a q), (.alu1 .mov d a q, .rMov at_ d a q),
      (.cmp .clt x a b q, .rClt at_ x a b q), (.cmp .cle x a b q, .rCle at_ x a b q),
      (.cmp .ceq x a b q, .rCeq at_ x a b q), (.pand x y z q, .rPand at_ x y z q),
      (.por x y z q, .rPor at_ x y z q), (.pnot x y q, .rPnot at_ x y q), (.ldw d m q, .rLdw at_ d m q),
      (.ldg d q, .rLdg at_ d q), (.ldm d q, .rLdm at_ d q), (.ldb d q, .rLdb at_ d q), (.fac d q, .rFac at_ d q),
      (.stw d m q, .rStw at_ d m q), (.stm d m, .rStm at_ d m), (.stb d, .rStb at_ d), (.ste d y, .rSte at_ d y)] :
        List (RInstr × Instr)) ∧
    LaneRuns s.cx at_ r.1 v p t l) :=
  ⟨passing (tPass (.alu2 .add 1#4 0x10#6 0x11#6 noPred)) (live.modStk 0 fun k => { k with grants := List.range 32 }), ⟨0#19, 0⟩, passWin (tPass (.alu2 .add 1#4 0x10#6 0x11#6 noPred)), tPass (.alu2 .add 1#4 0x10#6 0x11#6 noPred), tTensor, { block := 0 }, 1#4, 0x10#6, 0x11#6, 0x12#6, 0#2, 0#2, 0#2, false, noPred, (.alu2 .add 1#4 0x10#6 0x11#6 noPred, .rAdd ⟨0#19, 0⟩ 1#4 0x10#6 0x11#6 noPred), by refine ⟨List.mem_cons_self .., ⟨?_, ?_, ?_, ?_, ?_, ?_, ?_⟩⟩ <;> decide +kernel⟩

/-- What `RuleLaneValues` asks of its states and operands can be met. -/
theorem test_meets_ruleLaneValues :
  (∃ (c : Cx) (e : RuleEnv) (l : LaneCtx) (i : RInstr) (j : _) (x : _),
    l.v.length = 16 ∧
    laneValue c e l 0 i ≠ none ∧
    j < 64 ∧
    laneValue c e l j i = some x) ∧
  (∃ (c : Cx) (e : RuleEnv) (l : LaneCtx) (i : RInstr) (r : _),
    l.v.length = 16 ∧
    laneValue c e l 0 i ≠ none ∧
    r ≠ i.dest) ∧
  (∃ (c : Cx) (e : RuleEnv) (l : LaneCtx) (i : RInstr),
    l.v.length = 16 ∧
    laneValue c e l 0 i ≠ none) :=
  ⟨⟨live, tEnv (.alu2 .add 1#4 0x10#6 0x11#6 noPred), { block := 0 }, .alu2 .add 1#4 0x10#6 0x11#6 noPred, 63, 0#32, by refine ⟨?_, ?_, ?_, ?_⟩ <;> decide +kernel⟩,
  ⟨live, tEnv (.alu2 .add 1#4 0x10#6 0x11#6 noPred), { block := 0 }, .alu2 .add 1#4 0x10#6 0x11#6 noPred, 2, by refine ⟨?_, ?_, ?_⟩ <;> decide +kernel⟩,
  ⟨live, tEnv (.alu2 .add 1#4 0x10#6 0x11#6 noPred), { block := 0 }, .alu2 .add 1#4 0x10#6 0x11#6 noPred, by refine ⟨?_, ?_⟩ <;> decide +kernel⟩⟩

/-- What `RulePredicateBits` asks of its states and operands can be met. -/
theorem test_meets_rulePredicateBits :
  (∃ (c : Cx) (e : RuleEnv) (l : LaneCtx) (i : RInstr) (j : _) (x : _),
    l.p.length = 4 ∧
    laneBit e l 0 i ≠ none ∧
    j < 64 ∧
    laneBit e l j i = some x) ∧
  (∃ (c : Cx) (e : RuleEnv) (l : LaneCtx) (i : RInstr) (r : _),
    l.p.length = 4 ∧
    laneBit e l 0 i ≠ none ∧
    r ≠ i.dest) ∧
  (∃ (c : Cx) (e : RuleEnv) (l : LaneCtx) (i : RInstr),
    l.p.length = 4 ∧
    laneBit e l 0 i ≠ none) :=
  ⟨⟨live, tEnv (.cmp .clt 1#2 0x10#6 0x11#6 noPred), { block := 0 }, .cmp .clt 1#2 0x10#6 0x11#6 noPred, 63, false, by refine ⟨?_, ?_, ?_, ?_⟩ <;> decide +kernel⟩,
  ⟨live, tEnv (.cmp .clt 1#2 0x10#6 0x11#6 noPred), { block := 0 }, .cmp .clt 1#2 0x10#6 0x11#6 noPred, 2, by refine ⟨?_, ?_, ?_⟩ <;> decide +kernel⟩,
  ⟨live, tEnv (.cmp .clt 1#2 0x10#6 0x11#6 noPred), { block := 0 }, .cmp .clt 1#2 0x10#6 0x11#6 noPred, by refine ⟨?_, ?_⟩ <;> decide +kernel⟩⟩

/-- What `RuleStoresFrame` asks of its states and operands can be met. -/
theorem test_meets_ruleStoresFrame :
  (∃ (s : State) (at_ : LaneAt) (i : RInstr) (v : Win) (p : Pass) (t : Tensor) (l : LaneCtx),
    LaneRuns s.cx at_ i v p t l ∧
    i.isFstat = false ∧
    l.pc + 1 < p.prog.length) :=
  ⟨passing (tPass (.stw 1#4 false noPred)) (live.modStk 0 fun k => { k with grants := List.range 32 }), ⟨0#19, 0⟩, .stw 1#4 false noPred, passWin (tPass (.stw 1#4 false noPred)), tPass (.stw 1#4 false noPred), tTensor, { block := 0 }, by refine ⟨⟨?_, ?_, ?_, ?_, ?_, ?_, ?_⟩, ?_, ?_⟩ <;> decide +kernel⟩

/-- What `FstatRuns` asks of its states and operands can be met. -/
theorem test_meets_fstatRuns :
  (∃ (s : State) (w : BitVec 19) (a b k : BitVec 6) (v : Win) (p : Pass) (t : Tensor),
    kget? s.cx.wins w.toNat = some v ∧
    v.pass = some p ∧
    s.cx.tensor? v.tensor = some t ∧
    p.fstatDone = false ∧
    p.prog.head?.bind decodeRule = some (.fstat a b k) ∧
    t.factored = false) ∧
  (∃ (s : State) (w : BitVec 19) (a b k : BitVec 6) (v : Win) (p : Pass) (t : Tensor),
    kget? s.cx.wins w.toNat = some v ∧
    v.pass = some p ∧
    s.cx.tensor? v.tensor = some t ∧
    p.fstatDone = false ∧
    p.prog.head?.bind decodeRule = some (.fstat a b k) ∧
    let e := s.cx.ruleEnv w.toNat v p t 0 0
    let r := s.cx.statRun e a b k
    t.factored = true ∧
    r.ran = true) ∧
  (∃ (s : State) (w : BitVec 19) (a b k : BitVec 6) (v : Win) (p : Pass) (t : Tensor),
    kget? s.cx.wins w.toNat = some v ∧
    v.pass = some p ∧
    s.cx.tensor? v.tensor = some t ∧
    p.fstatDone = false ∧
    p.prog.head?.bind decodeRule = some (.fstat a b k) ∧
    let st := winStack w.toNat
    let e := s.cx.ruleEnv w.toNat v p t 0 0
    let r := s.cx.statRun e a b k
    t.factored = true ∧
    r.ran = false ∧
    s.cx.fstatReady st t p.step (match v.st with | .writeRun _ d => d | _ => false) = true) :=
  ⟨⟨passing (tPass (.fstat 0x10#6 0x11#6 0x12#6) false) , 0#19, 0x10#6, 0x11#6, 0x12#6, passWin (tPass (.fstat 0x10#6 0x11#6 0x12#6) false), tPass (.fstat 0x10#6 0x11#6 0x12#6) false, tTensor, by refine ⟨?_, ?_, ?_, ?_, ?_, ?_⟩ <;> decide +kernel⟩,
  ⟨passing (tPass (.fstat 0x10#6 0x11#6 0x12#6) false) (({ live with img := { live.img with cfg := some { tImg with tensors := [{ tTensor with factored := true, rows := 10, columns := 13 }] } } } : Cx).modStk 0 fun k => { k with engine := { k.engine with runs := [{ tensor := 5, step := 3#48, clip := 0x3F800000#32, consts := [], ran := true }] } }), 0#19, 0x10#6, 0x11#6, 0x12#6, passWin (tPass (.fstat 0x10#6 0x11#6 0x12#6) false), tPass (.fstat 0x10#6 0x11#6 0x12#6) false, { tTensor with factored := true, rows := 10, columns := 13 }, by refine ⟨?_, ?_, ?_, ?_, ?_, ?_, ?_⟩ <;> decide +kernel⟩,
  ⟨passing (tPass (.fstat 0x10#6 0x11#6 0x12#6) false) ({ live with img := { live.img with cfg := some { tImg with tensors := [{ tTensor with factored := true, rows := 10, columns := 13 }] } } }), 0#19, 0x10#6, 0x11#6, 0x12#6, passWin (tPass (.fstat 0x10#6 0x11#6 0x12#6) false), tPass (.fstat 0x10#6 0x11#6 0x12#6) false, { tTensor with factored := true, rows := 10, columns := 13 }, by refine ⟨?_, ?_, ?_, ?_, ?_, ?_, ?_, ?_⟩ <;> decide +kernel⟩⟩

/-- What `TadpoleControlRows` asks of its states and operands can be met. -/
theorem test_meets_tadpoleControlRows :
  (∃ (s : State) (ch : Fin 640) (j : Job) (t : Tad) (f1 f2 : BitVec 3) (imm : _),
    TadRuns s.cx ch (.sets f1 imm) j t) ∧
  (∃ (s : State) (ch : Fin 640) (j : Job) (t : Tad) (f1 f2 : BitVec 3) (imm : BitVec 17),
    TadRuns s.cx ch (.adda f1 imm) j t) ∧
  (∃ (s : State) (ch : Fin 640) (j : Job) (t : Tad) (f1 f2 : BitVec 3),
    TadRuns s.cx ch (.seta f1 f2) j t) ∧
  (∃ (s : State) (ch : Fin 640) (j : Job) (t : Tad) (f1 f2 : BitVec 3) (target : BitVec 8),
    TadRuns s.cx ch (.loop f1 target) j t) ∧
  (∃ (s : State) (ch : Fin 640) (j : Job) (t : Tad) (f1 f2 : BitVec 3) (q : BitVec 4),
    TadRuns s.cx ch (.rand f1 q) j t) ∧
  (∃ (s : State) (ch : Fin 640) (j : Job) (t : Tad) (f1 f2 : BitVec 3) (n : BitVec 7),
    TadRuns s.cx ch (.csend f1 n) j t) ∧
  (∃ (s : State) (ch : Fin 640) (j : Job) (t : Tad) (f1 f2 : BitVec 3),
    TadRuns s.cx ch (.crecv f1) j t ∧
    (s.cx.newt ch).buffer = none) ∧
  (∃ (s : State) (ch : Fin 640) (j : Job) (t : Tad) (f1 f2 : BitVec 3) (r : ChainRec),
    TadRuns s.cx ch (.crecv f1) j t ∧
    (s.cx.newt ch).buffer = some r ∧
    r.poison = false) ∧
  (∃ (s : State) (ch : Fin 640) (j : Job) (t : Tad) (f1 f2 : BitVec 3),
    TadRuns s.cx ch .end_ j t) :=
  ⟨⟨at_ (withNewt (tadAt (.sets 0#3 5#17))), 0, tJob [2#8], tTad, 0#3, 1#3, 5#17, by refine ⟨?_, ?_, ?_, ?_, ?_⟩ <;> decide +kernel⟩,
  ⟨at_ (withNewt (tadAt (.adda 0#3 5#17))), 0, tJob [2#8], tTad, 0#3, 1#3, 5#17, by refine ⟨?_, ?_, ?_, ?_, ?_⟩ <;> decide +kernel⟩,
  ⟨at_ (withNewt (tadAt (.seta 0#3 1#3))), 0, tJob [2#8], tTad, 0#3, 1#3, by refine ⟨?_, ?_, ?_, ?_, ?_⟩ <;> decide +kernel⟩,
  ⟨at_ (withNewt (tadAt (.loop 0#3 9#8))), 0, tJob [2#8], tTad, 0#3, 1#3, 9#8, by refine ⟨?_, ?_, ?_, ?_, ?_⟩ <;> decide +kernel⟩,
  ⟨at_ (withNewt (tadAt (.rand 0#3 1#4))), 0, tJob [2#8], tTad, 0#3, 1#3, 1#4, by refine ⟨?_, ?_, ?_, ?_, ?_⟩ <;> decide +kernel⟩,
  ⟨at_ (withNewt (tadAt (.csend 0#3 64#7))), 0, tJob [2#8], tTad, 0#3, 1#3, 64#7, by refine ⟨?_, ?_, ?_, ?_, ?_⟩ <;> decide +kernel⟩,
  ⟨at_ (withNewt (tadAt (.crecv 0#3))), 0, tJob [2#8], tTad, 0#3, 1#3, by refine ⟨⟨?_, ?_, ?_, ?_, ?_⟩, ?_⟩ <;> decide +kernel⟩,
  ⟨at_ (withNewt ({ tadAt (.crecv 0#3) with buffer := some ⟨[1#32], false⟩ })), 0, tJob [2#8], tTad, 0#3, 1#3, ⟨[1#32], false⟩, by refine ⟨⟨?_, ?_, ?_, ?_, ?_⟩, ?_, ?_⟩ <;> decide +kernel⟩,
  ⟨at_ (withNewt (tadAt (.end_))), 0, tJob [2#8], tTad, 0#3, 1#3, by refine ⟨?_, ?_, ?_, ?_, ?_⟩ <;> decide +kernel⟩⟩

/-- What `TadpoleMemoryRows` asks of its states and operands can be met. -/
theorem test_meets_tadpoleMemoryRows :
  (∃ (s : State) (ch : Fin 640) (j : Job) (t : Tad) (f1 f2 f3 : BitVec 3) (adv : Bool) (p r : _),
    TadRuns s.cx ch (.ldv f1 f2 adv) j t ∧
    s.cx.access ch t f2 = .go p r) ∧
  (∃ (s : State) (ch : Fin 640) (j : Job) (t : Tad) (f1 f2 f3 : BitVec 3) (adv : Bool) (rto p r : _),
    TadRuns s.cx ch (.stv f1 f2 adv rto) j t ∧
    s.cx.access ch t f2 = .go p r) ∧
  (∃ (s : State) (ch : Fin 640) (j : Job) (t : Tad) (f1 f2 f3 : BitVec 3) (adv : Bool) (lane : BitVec 6) (p r q u : _),
    TadRuns s.cx ch (.dot f1 f2 f3 lane adv) j t ∧
    s.cx.access ch t f2 = .go p r ∧
    s.cx.access ch t f3 = .go q u) ∧
  (∃ (s : State) (ch : Fin 640) (j : Job) (t : Tad) (f1 f2 f3 : BitVec 3) (adv : Bool) (off : _),
    TadRuns s.cx ch (.ldv f1 f2 adv) j t ∧
    s.cx.access ch t f2 = .fault off) ∧
  (∃ (s : State) (ch : Fin 640) (j : Job) (t : Tad) (f1 f2 f3 : BitVec 3) (adv : Bool),
    TadRuns s.cx ch (.ldv f1 f2 adv) j t ∧
    s.cx.access ch t f2 = .wait) :=
  ⟨⟨at_ (withNewt (tadAt (.ldv 0#3 0#3 true))), 0, tJob [2#8], tTad, 0#3, 0#3, 0#3, true, ⟨true, 0, 1, 0, 0x4000⟩, ⟨true, 0, 1⟩, by refine ⟨⟨?_, ?_, ?_, ?_, ?_⟩, ?_⟩ <;> decide +kernel⟩,
  ⟨at_ (withNewt (tadAt (.stv 0#3 0#3 true false))), 0, tJob [2#8], tTad, 0#3, 0#3, 0#3, true, false, ⟨true, 0, 1, 0, 0x4000⟩, ⟨true, 0, 1⟩, by refine ⟨⟨?_, ?_, ?_, ?_, ?_⟩, ?_⟩ <;> decide +kernel⟩,
  ⟨at_ (withNewt (tadAt (.dot 0#3 0#3 0#3 63#6 true))), 0, tJob [2#8], tTad, 0#3, 0#3, 0#3, true, 63#6, ⟨true, 0, 1, 0, 0x4000⟩, ⟨true, 0, 1⟩, ⟨true, 0, 1, 0, 0x4000⟩, ⟨true, 0, 1⟩, by refine ⟨⟨?_, ?_, ?_, ?_, ?_⟩, ?_, ?_⟩ <;> decide +kernel⟩,
  ⟨at_ (withNewt (tadAt (.ldv 0#3 2#3 true))), 0, tJob [2#8], tTad, 0#3, 2#3, 0#3, true, 8, by refine ⟨⟨?_, ?_, ?_, ?_, ?_⟩, ?_⟩ <;> decide +kernel⟩,
  ⟨at_ (withNewt (tadAt (.ldv 0#3 1#3 true))), 0, tJob [2#8], tTad, 0#3, 1#3, 0#3, true, by refine ⟨⟨?_, ?_, ?_, ?_, ?_⟩, ?_⟩ <;> decide +kernel⟩⟩

/-- What `NewtJobsTaken` asks of its states and operands can be met. -/
theorem test_meets_newtJobsTaken :
  (∃ (s : State) (ch : Fin 640) (off : Nat) (bs : List Byte),
    (s.cx.newt ch).window ≠ none ∧
    windowEntry off bs.length = some 0 ∧
    off < 0x80) ∧
  (∃ (s : State) (ch : Fin 640) (v : W64),
    let n := s.cx.newt ch
    let j : Job := { desc := n.staged, tag := v.setWidth 32, path := 0 }
    n.window ≠ none ∧
    n.mode = true ∧
    n.exiting = false ∧
    n.retired = false ∧
    n.job = none ∧
    s.cx.checkDesc ch j = none) ∧
  (∃ (s : State) (ch : Fin 640) (tag : W32),
    let n := s.cx.newt ch
    let j : Job := { desc := s.cx.descRegs ch, tag := tag, path := 1 }
    n.mode = true ∧
    n.exiting = false ∧
    n.retired = false ∧
    n.job = none ∧
    s.cx.checkDesc ch j = none) ∧
  (∃ (s : State) (ch : Fin 640) (tag : W32) (k : Job),
    let n := s.cx.newt ch
    let j : Job := { desc := s.cx.descRegs ch, tag := tag, path := 1 }
    n.mode = true ∧
    n.exiting = false ∧
    n.retired = false ∧
    n.job = some k ∧
    n.wait = none ∧
    s.cx.checkDesc ch j = none) ∧
  (∃ (s : State) (ch : Fin 640) (off size : Nat) (bs : List Byte),
    (s.cx.newt ch).window ≠ none ∧
    (s.cx.newt ch).ready = true ∧
    0x8000 ≤ off ∧
    windowEntry off bs.length = some 3) ∧
  (∃ (s : State) (ch : Fin 640) (off size : Nat) (bs : List Byte),
    (s.cx.newt ch).window ≠ none ∧
    (s.cx.newt ch).ready = true ∧
    0x8000 ≤ off ∧
    windowEntry off size = some 3) :=
  ⟨⟨at_ (withNewt { (tNewt [2#8]) with window := some (600 * 4096), job := none }), 0, 0x40, (List.replicate 64 7#8), by refine ⟨?_, ?_, ?_⟩ <;> decide +kernel⟩,
  ⟨at_ (withNewt { (tNewt [2#8]) with window := some (600 * 4096), job := none, staging := tDot }), 0, 9#64, by refine ⟨?_, ?_, ?_, ?_, ?_, ?_⟩ <;> decide +kernel⟩,
  ⟨at_ { withNewt { (tNewt [2#8]) with window := some (600 * 4096), job := none } with regs := tDotRegs }, 0, 9#32, by refine ⟨?_, ?_, ?_, ?_, ?_⟩ <;> decide +kernel⟩,
  ⟨at_ { withNewt { (tNewt [2#8]) with window := none } with regs := tDotRegs }, 0, 9#32, tJob [2#8], by refine ⟨?_, ?_, ?_, ?_, ?_, ?_⟩ <;> decide +kernel⟩,
  ⟨at_ (withNewt { (tNewt [2#8]) with window := some (600 * 4096), job := none }), 0, 0xFFC0, 8, (List.replicate 64 7#8), by refine ⟨?_, ?_, ?_, ?_⟩ <;> decide +kernel⟩,
  ⟨at_ (withNewt { (tNewt [2#8]) with window := some (600 * 4096), job := none }), 0, 0x8000, 64, [], by refine ⟨?_, ?_, ?_, ?_⟩ <;> decide +kernel⟩⟩

/-- What `NewtJobsRun` asks of its states and operands can be met. -/
theorem test_meets_newtJobsRun :
  (∃ (s : State) (ch : Fin 640) (j : Job),
    s.cx.runningJob ch 0 = some j) ∧
  (∃ (s : State) (ch : Fin 640) (j : Job),
    s.cx.runningJob ch 1 = some j ∧
    (s.cx.newt ch).partialTriple = none) ∧
  (∃ (s : State) (ch : Fin 640) (j : Job),
    (s.cx.newt ch).job = some j ∧
    j.kind = 2 ∧
    (s.cx.newt ch).tad = none) ∧
  (∃ (s : State) (ch : Fin 640) (r : ChainRec),
    (s.cx.newt ch).arriving = some r ∧
    (s.cx.newt ch).buffer = none ∧
    (s.cx.newt ch).partialTriple = none) ∧
  (∃ (s : State) (stk : Fin 20) (k : Nat),
    (s.cx.grantsHeld stk).length < s.cx.grantLimit stk ∧
    s.cx.nextGrant stk = some k) ∧
  (∃ (s : State) (ch : Fin 640),
    s.cx.hasGrant ch = true) ∧
  (∃ (s : State) (ch : Fin 640),
    s.cx.streaming ch = true) ∧
  (∃ (s : State) (ch : Fin 640) (forced : Bool),
    s.cx.streaming ch = false) ∧
  (∃ (s : State) (ch : Fin 640),
    (s.cx.newt ch).suspended = true ∧
    (s.cx.newt ch).asked = false ∧
    (s.cx.newt ch).forced = false) :=
  ⟨⟨at_ (withNewt { tNewt [] with job := some tDotJob }), 0, tDotJob, by decide +kernel⟩,
  ⟨at_ (withNewt (tNewt [1#8])), 0, tJob [1#8], by refine ⟨?_, ?_⟩ <;> decide +kernel⟩,
  ⟨at_ (withNewt (tNewt [2#8])), 0, tJob [2#8], by refine ⟨?_, ?_, ?_⟩ <;> decide +kernel⟩,
  ⟨at_ (withNewt { tNewt [] with arriving := some ⟨[1#32], false⟩ }), 0, ⟨[1#32], false⟩, by refine ⟨?_, ?_, ?_⟩ <;> decide +kernel⟩,
  ⟨at_ { (live.modStk 0 fun k => { k with grantQueue := [3, 1] }) with wins := [(0, passWin (tPass (.alu2 .add 1#4 0x10#6 0x11#6 noPred)))] }, 0, 3, by refine ⟨?_, ?_⟩ <;> decide +kernel⟩,
  ⟨at_ { (live.modStk 0 fun k => { k with grants := [0] }) with wins := [(0, passWin (tPass (.alu2 .add 1#4 0x10#6 0x11#6 noPred)))] }, 0, by decide +kernel⟩,
  ⟨at_ (withNewt (tNewt ([2#8] ++ List.replicate 15 0#8 ++ [64#8])) (live.modStk 0 fun k => { k with grants := [0] })), 0, by decide +kernel⟩,
  ⟨at_ live, 0, true, by decide +kernel⟩,
  ⟨at_ (withNewt { tNewt [2#8] with suspended := true }), 0, by refine ⟨?_, ?_, ?_⟩ <;> decide +kernel⟩⟩

/-- What `NewtCommandsComplete` asks of its states and operands can be met. -/
theorem test_meets_newtCommandsComplete :
  (∃ (s : State) (st : StreamId) (num : W32) (cmd : BitVec 512),
    Starts s.cx st 0x50 num cmd ∧
    let c := s.cx.start st num cmd
    let f := newFlight s.cx st num cmd
    let k := f.arg 16 4 0
    let gs := maskChannels k (f.arg 24 31 0)
    k < 20 ∧
    c.active k = true ∧
    f.arg 24 31 0 ≠ 0 ∧
    f.bit 16 32 = false ∧
    f.bit 16 33 = false ∧
    f.arg 32 31 0 % 65536 = 0 ∧
    c.stackBusy k = false ∧
    c.needsTwin (c.dieOf st) k = false ∧
    ((∀ g ∈ gs, (c.newt g).retired = false)) ∧
    (c.changeAll gs fun c g => c.tryEnter g none).2 = []) ∧
  (∃ (c : Cx) (g : Nat) (w : Option Nat),
    (c.newt g).exiting = false ∧
    (c.newt g).mode = false) ∧
  (∃ (s : State) (st : StreamId) (num : W32) (cmd : BitVec 512),
    Starts s.cx st 0x51 num cmd ∧
    let c := s.cx.start st num cmd
    let f := newFlight s.cx st num cmd
    let a := f.arg 16 63 0
    let n := f.arg 24 12 0
    let rd := c.hubRead a (128 * n)
    let js := (List.range n).map fun i => ({ desc := (rd.2.drop (128 * i)).take 128 } : Job)
    0 < n ∧
    n ≤ 4096 ∧
    a % 128 = 0 ∧
    (bits a 63 60 = 0 ∨ bits a 63 60 = 3 ∨ bits a 63 60 = 4) ∧
    c.badOperand? st f .read 1 a (128 * n) = none ∧
    c.hubPoison a (128 * n) = none ∧
    ((∀ j ∈ js, rd.1.badJob j = none ∧ (rd.1.newt j.channel).retired = false ∧
      rd.1.stackBusy (j.channel / 32) = false ∧ rd.1.needsTwin (rd.1.dieOf st) (j.channel / 32) = false)) ∧
    f.bit 24 32 = false) :=
  ⟨⟨next 0x50 [(24, 3)], 0#12, 0#32, cmdOf 0x50 [(24, 3)], by refine ⟨⟨?_, ?_, ?_, ?_⟩, ?_, ?_, ?_, ?_, ?_, ?_, ?_, ?_, ?_, ?_⟩ <;> decide +kernel⟩,
  ⟨live, 0, none, by refine ⟨?_, ?_⟩ <;> decide +kernel⟩,
  ⟨next 0x51 [(16, hostA 0x10000), (24, 1)] ({ live with mem := memA 0x10000 tDot }), 0#12, 0#32, cmdOf 0x51 [(16, hostA 0x10000), (24, 1)], by refine ⟨⟨?_, ?_, ?_, ?_⟩, ?_, ?_, ?_, ?_, ?_, ?_, ?_, ?_⟩ <;> decide +kernel⟩⟩

/-- What `VersionReadsComplete` asks of its states and operands can be met. -/
theorem test_meets_versionReadsComplete :
  (∃ (s : State) (st : StreamId) (num : W32) (cmd : BitVec 512) (t : Tensor),
    Starts s.cx st 0x20 num cmd ∧
    let c := s.cx.start st num cmd
    let f := newFlight s.cx st num cmd
    let e := f.arg 16 63 24
    let n := f.arg 24 31 0
    let ver : Version := BitVec.ofNat 32 (f.arg 24 63 32)
    let latest := f.bit 40 0
    let parts := c.runParts t e n 0
    let ws := parts.map (·.1)
    c.tensor? f.tensor = some t ∧
    0 < n ∧
    e + n ≤ t.count ∧
    f.arg 40 4 2 = 0 ∧
    f.bit 40 1 = false ∧
    f.bit 40 5 = false ∧
    c.badOperand? st f .write 3 (f.arg 32 63 0) (2 * n) = none ∧
    c.boundAway st f.tensor = false ∧
    ((∀ w ∈ ws, c.needsTwin (c.dieOf st) (winStack w) = false)) ∧
    c.demandAll ws = (c, true) ∧
    ((∀ w ∈ ws, c.readStatus w latest ver false 0 = none)) ∧
    ((∀ p ∈ parts, c.hubPoisonIn (c.versionKey p.1 latest ver false 0 p.2.1) p.2.2 = none))) ∧
  (∃ (s : State) (st : StreamId) (num : W32) (cmd : BitVec 512) (t : Tensor) (ws : List Nat),
    Starts s.cx st 0x24 num cmd ∧
    let c := s.cx.start st num cmd
    let f := newFlight s.cx st num cmd
    let ver : Version := BitVec.ofNat 32 (f.arg 24 63 32)
    let dest := f.arg 32 63 0
    let latest := f.bit 40 0
    let key := f.arg 40 3 1
    c.runOf f = some (t, ws) ∧
    (bits dest 63 60 = 2 ∨ bits dest 63 60 = 4) ∧
    c.badKey key = false ∧
    c.badOperand? st f .write 3 dest (t.imageBytes f.first f.count) = none ∧
    c.boundAway st f.tensor = false ∧
    ((∀ w ∈ ws, c.needsTwin (c.dieOf st) (winStack w) = false)) ∧
    c.demandAll ws = (c, true) ∧
    ((∀ w ∈ ws, c.readStatus w latest ver false 0 = none)) ∧
    ((∀ i, i < f.count →
      c.hubPoisonIn (c.versionKey (ws.getD i 0) latest ver false 0 0) (2 * t.valid (f.first + i)) = none))) ∧
  (∃ (s : State) (m : Fin 64) (hdr : BitVec 256) (t : Tensor) (v : Win),
    let c := s.cx
    let f := fun hi lo => bits hdr.toNat hi lo
    let w := c.windowId t (f 79 40 / 1048576)
    let latest := bit hdr.toNat 8
    let ver : Version := BitVec.ofNat 32 (f 159 128)
    let key := c.versionKey w latest ver false 0 (2 * (f 79 40 % 1048576))
    kget? c.modules m.val ≠ none ∧
    c.enabled = true ∧
    c.shellServes (moduleDie m.val) = true ∧
    c.badRun (f 39 16) (f 79 40) (f 92 80) 4096 (f 7 0 != 3 || f 15 9 != 0 || f 95 93 != 0 || f 127 112 != 0 ||
      f 255 160 != 0) = none ∧
    c.tensor? (f 39 16) = some t ∧
    c.win? w = some v ∧
    c.stackBusy (winStack w) = false ∧
    c.needsTwin (moduleDie m.val) (winStack w) = false ∧
    c.readStatus w latest ver false 0 = none ∧
    v.resident = true ∧
    c.hubPoisonIn key (2 * f 92 80) = none) ∧
  (∃ (s : State) (m : Fin 64) (hdr : BitVec 256) (t : Tensor) (v : Win),
    let c := s.cx
    let f := fun hi lo => bits hdr.toNat hi lo
    let w := c.windowId t (f 79 40 / 1048576)
    let latest := bit hdr.toNat 8
    let ver : Version := BitVec.ofNat 32 (f 159 128)
    kget? c.modules m.val ≠ none ∧
    c.enabled = true ∧
    c.shellServes (moduleDie m.val) = true ∧
    c.badRun (f 39 16) (f 79 40) (f 92 80) 4096 (f 7 0 != 3 || f 15 9 != 0 || f 95 93 != 0 || f 127 112 != 0 ||
      f 255 160 != 0) = none ∧
    c.tensor? (f 39 16) = some t ∧
    c.win? w = some v ∧
    c.stackBusy (winStack w) = false ∧
    c.needsTwin (moduleDie m.val) (winStack w) = false ∧
    c.readStatus w latest ver false 0 = none ∧
    v.resident = false) ∧
  (∃ (s : State) (m : Fin 64) (hdr : BitVec 256) (t : Tensor) (v : Win) (dt : Nat),
    let c := s.cx
    let f := fun hi lo => bits hdr.toNat hi lo
    let w := c.windowId t (f 79 40 / 1048576)
    let latest := bit hdr.toNat 8
    let ver : Version := BitVec.ofNat 32 (f 159 128)
    let key := c.versionKey w latest ver false 0 (2 * (f 79 40 % 1048576))
    kget? c.modules m.val ≠ none ∧
    c.enabled = true ∧
    c.shellServes (moduleDie m.val) = true ∧
    c.badRun (f 39 16) (f 79 40) (f 92 80) 4096 (f 7 0 != 3 || f 15 9 != 0 || f 95 93 != 0 || f 127 112 != 0 ||
      f 255 160 != 0) = none ∧
    c.tensor? (f 39 16) = some t ∧
    c.win? w = some v ∧
    c.stackBusy (winStack w) = false ∧
    c.needsTwin (moduleDie m.val) (winStack w) = false ∧
    c.readStatus w latest ver false 0 = none ∧
    v.resident = true ∧
    c.hubPoisonIn key (2 * f 92 80) = none) :=
  ⟨⟨next 0x20 [(16, 5), (24, 130), (32, hostA 0x10000), (40, 1)], 0#12, 0#32, cmdOf 0x20 [(16, 5), (24, 130), (32, hostA 0x10000), (40, 1)], tTensor, by refine ⟨⟨?_, ?_, ?_, ?_⟩, ?_, ?_, ?_, ?_, ?_, ?_, ?_, ?_, ?_, ?_, ?_, ?_⟩ <;> decide +kernel⟩,
  ⟨next 0x24 [(16, 5), (24, 1), (32, hostA 0x10000), (40, 1)], 0#12, 0#32, cmdOf 0x24 [(16, 5), (24, 1), (32, hostA 0x10000), (40, 1)], tTensor, [0], by refine ⟨⟨?_, ?_, ?_, ?_⟩, ?_, ?_, ?_, ?_, ?_, ?_, ?_, ?_, ?_⟩ <;> decide +kernel⟩,
  ⟨at_ live, 0, BitVec.ofNat 256 (3 + 2 ^ 8 + 5 * 2 ^ 16 + 130 * 2 ^ 80), tTensor, tWin, by refine ⟨?_, ?_, ?_, ?_, ?_, ?_, ?_, ?_, ?_, ?_, ?_⟩ <;> decide +kernel⟩,
  ⟨at_ (oneWin { tWin with resident := false }), 0, BitVec.ofNat 256 (3 + 2 ^ 8 + 5 * 2 ^ 16 + 130 * 2 ^ 80), tTensor, { tWin with resident := false }, by refine ⟨?_, ?_, ?_, ?_, ?_, ?_, ?_, ?_, ?_, ?_⟩ <;> decide +kernel⟩,
  ⟨at_ live, 0, BitVec.ofNat 256 (3 + 2 ^ 8 + 5 * 2 ^ 16 + 130 * 2 ^ 80), tTensor, tWin, 0, by refine ⟨?_, ?_, ?_, ?_, ?_, ?_, ?_, ?_, ?_, ?_, ?_⟩ <;> decide +kernel⟩⟩

/-- What `GradientsComplete` asks of its states and operands can be met. -/
theorem test_meets_gradientsComplete :
  (∃ (s : State) (m : Fin 64) (hdr : BitVec 128) (vals : List W16) (t : Tensor) (v : Win),
    let g := gradHdr hdr
    let w := s.cx.windowId t (g.start / 1048576)
    let k := winStack w
    let c := s.cx.modWin w fun v => { v with mode := some g.ordered
                                             promoting := v.promoting || (v.mode.isNone && !v.resident)
                                             writingBack := v.writingBack && v.mode.isSome }
    kget? s.cx.modules m.val ≠ none ∧
    s.cx.shellServes (moduleDie m.val) = true ∧
    s.cx.badRun g.tensor g.start g.count 512 g.reserved = none ∧
    s.cx.tensor? g.tensor = some t ∧
    kget? s.cx.wins w = some v ∧
    (v.mode = none ∨ v.mode = some g.ordered) ∧
    s.cx.gradStatus w (moduleDie m.val) = none ∧
    c.gradBehind m.val k = false ∧
    c.gradDup m.val k g = true) ∧
  (∃ (s : State) (m : Fin 64) (hdr : BitVec 128) (vals : List W16) (t : Tensor) (v : Win),
    let g := gradHdr hdr
    let w := s.cx.windowId t (g.start / 1048576)
    let k := winStack w
    let i := g.start % 1048576
    let c := s.cx.modWin w fun v => { v with mode := some g.ordered
                                             promoting := v.promoting || (v.mode.isNone && !v.resident)
                                             writingBack := v.writingBack && v.mode.isSome }
    kget? s.cx.modules m.val ≠ none ∧
    s.cx.shellServes (moduleDie m.val) = true ∧
    s.cx.badRun g.tensor g.start g.count 512 g.reserved = none ∧
    s.cx.tensor? g.tensor = some t ∧
    kget? s.cx.wins w = some v ∧
    (v.mode = none ∨ v.mode = some g.ordered) ∧
    s.cx.gradStatus w (moduleDie m.val) = none ∧
    c.gradBehind m.val k = false ∧
    c.gradDup m.val k g = false ∧
    c.accRoom w v.openEpoch g.slot i g.count = true) ∧
  (∃ (s : State) (m : Fin 64) (hdr : BitVec 128) (vals : List W16) (t : Tensor) (v : Win),
    let g := gradHdr hdr
    let w := s.cx.windowId t (g.start / 1048576)
    let k := winStack w
    let i := g.start % 1048576
    let c := s.cx.modWin w fun v => { v with mode := some g.ordered
                                             promoting := v.promoting || (v.mode.isNone && !v.resident)
                                             writingBack := v.writingBack && v.mode.isSome }
    let d := Cx.makeRoom (c.accWindows k).length w v.openEpoch g.slot i g.count c
    kget? s.cx.modules m.val ≠ none ∧
    s.cx.shellServes (moduleDie m.val) = true ∧
    s.cx.badRun g.tensor g.start g.count 512 g.reserved = none ∧
    s.cx.tensor? g.tensor = some t ∧
    kget? s.cx.wins w = some v ∧
    (v.mode = none ∨ v.mode = some g.ordered) ∧
    s.cx.gradStatus w (moduleDie m.val) = none ∧
    c.gradBehind m.val k = false ∧
    c.gradDup m.val k g = false ∧
    d.accRoom w v.openEpoch g.slot i g.count = true ∧
    d.gradDup m.val k g = false) ∧
  (∃ (s : State) (m : Fin 64) (hdr : BitVec 128) (vals : List W16) (t : Tensor) (v : Win),
    let g := gradHdr hdr
    let w := s.cx.windowId t (g.start / 1048576)
    let k := winStack w
    let i := g.start % 1048576
    let c := s.cx.modWin w fun v => { v with mode := some g.ordered
                                             promoting := v.promoting || (v.mode.isNone && !v.resident)
                                             writingBack := v.writingBack && v.mode.isSome }
    let d := Cx.makeRoom (c.accWindows k).length w v.openEpoch g.slot i g.count c
    kget? s.cx.modules m.val ≠ none ∧
    s.cx.shellServes (moduleDie m.val) = true ∧
    s.cx.badRun g.tensor g.start g.count 512 g.reserved = none ∧
    s.cx.tensor? g.tensor = some t ∧
    kget? s.cx.wins w = some v ∧
    (v.mode = none ∨ v.mode = some g.ordered) ∧
    s.cx.gradStatus w (moduleDie m.val) = none ∧
    (c.gradBehind m.val k = true ∨ (c.gradDup m.val k g = false ∧ d.accRoom w v.openEpoch g.slot i g.count = false))) ∧
  (∃ (s : State) (st : StreamId) (num : W32) (cmd : BitVec 512) (t : Tensor) (ws : List Nat),
    Starts s.cx st 0x21 num cmd ∧
    let c := s.cx.start st num cmd
    let f := newFlight s.cx st num cmd
    c.runOf f = some (t, ws) ∧
    (f.fused.map finitePositive).getD true = true ∧
    c.boundAway st f.tensor = false ∧
    windowsRefused st c ws = none ∧
    let d := ws.foldl (fun c w => c.takeCut st f f.fused w)
      (c.modFlight st num fun g => { g with phase := 1, wins := ws.map fun w => (w, WinOut.todo) })
    d.demandAll ws = (d, true) ∧
    ((d.flight? st num).map Flight.settled).getD false = false) ∧
  (∃ (s : State) (st : StreamId) (f : Flight) (t : Tensor) (ws : List Nat),
    Resumes s.cx st 0x21 f ∧
    s.cx.runOf f = some (t, ws) ∧
    (f.fused.map finitePositive).getD true = true ∧
    s.cx.boundAway st f.tensor = false ∧
    f.phase = 1 ∧
    f.settled = true) ∧
  (∃ (s : State) (w : BitVec 19) (v : Win) (own : StreamId × W32),
    s.cx.win? w.toNat = some v ∧
    v.cut = some own ∧
    v.hold = false ∧
    v.specValid = false ∧
    v.st = .quiet ∧
    v.resident = true ∧
    v.fenced = false ∧
    s.cx.lateValues w.toNat (v.eD + 1#3).toNat = false ∧
    s.cx.engineHalted (winStack w.toNat) = false) ∧
  (∃ (s : State) (st : StreamId) (num : W32) (cmd : BitVec 512) (t : Tensor) (ws : List Nat) (g : Flight),
    Starts s.cx st 0x22 num cmd ∧
    let c := s.cx.start st num cmd
    let f := newFlight s.cx st num cmd
    c.runOf f = some (t, ws) ∧
    c.boundAway st f.tensor = false ∧
    windowsRefused st c ws = none ∧
    let d := (c.arm f.step).modFlight st num fun g => { g with
      phase := 1, wins := ws.map fun w => (w, WinOut.todo), result := 0#64 }
    d.demandAll ws = (d, true) ∧
    let e := ws.foldl (fun c w => c.pass1Try st f t f.step w) d
    e.flight? st num = some g ∧
    g.settled = true) ∧
  (∃ (s : State) (st : StreamId) (num : W32) (cmd : BitVec 512) (t : Tensor) (w : Nat) (v : Win),
    Starts s.cx st 0x22 num cmd ∧
    let c := s.cx.start st num cmd
    let f := newFlight s.cx st num cmd
    c.runOf f = some (t, [w]) ∧
    c.boundAway st f.tensor = false ∧
    windowsRefused st c [w] = none ∧
    let d := (c.arm f.step).modFlight st num fun g => { g with phase := 1, wins := [(w, WinOut.todo)], result := 0#64 }
    d.demandAll [w] = (d, true) ∧
    d.win? w = some v ∧
    v.resident = true ∧
    v.st = .quiet ∧
    v.cut = none ∧
    d.verdictFor v f.step ≠ some .abandon) ∧
  (∃ (c : Cx) (st : StreamId) (f : Flight) (t : Tensor) (n : Step) (w : Nat) (v : Win),
    c.win? w = some v ∧
    v.resident = true ∧
    v.st = .quiet ∧
    c.verdictFor v n ≠ some .abandon ∧
    v.cut = none) ∧
  (∃ (s : State) (tensor : BitVec 24) (t : Tensor) (g : Img) (n : Step),
    s.cx.tensor? tensor.toNat = some t ∧
    s.cx.img.cfg = some g ∧
    s.cx.reported t = some n ∧
    t.factored = true ∧
    s.cx.coreUp (s.cx.owner t.start) = true) :=
  ⟨⟨at_ { live with seqs := [(0, 5#16)] }, 0, BitVec.ofNat 128 (2 + 5 * 2 ^ 16 + 3 * 2 ^ 80), [1#16, 2#16, 3#16], tTensor, tWin, by refine ⟨?_, ?_, ?_, ?_, ?_, ?_, ?_, ?_, ?_⟩ <;> decide +kernel⟩,
  ⟨at_ live, 0, BitVec.ofNat 128 (2 + 5 * 2 ^ 16 + 3 * 2 ^ 80), [1#16, 2#16, 3#16], tTensor, tWin, by refine ⟨?_, ?_, ?_, ?_, ?_, ?_, ?_, ?_, ?_, ?_⟩ <;> decide +kernel⟩,
  ⟨at_ live, 0, BitVec.ofNat 128 (2 + 5 * 2 ^ 16 + 3 * 2 ^ 80), [1#16, 2#16, 3#16], tTensor, tWin, by refine ⟨?_, ?_, ?_, ?_, ?_, ?_, ?_, ?_, ?_, ?_, ?_⟩ <;> decide +kernel⟩,
  ⟨at_ { live with gradHeld := [{ m := 0, epoch := 1, hdr := BitVec.ofNat 128 (2 + 5 * 2 ^ 16 + 3 * 2 ^ 80), vals := [1#16, 2#16, 3#16], since := 0, slow := false, die := .A }] }, 0, BitVec.ofNat 128 (2 + 5 * 2 ^ 16 + 3 * 2 ^ 80), [1#16, 2#16, 3#16], tTensor, tWin, by refine ⟨?_, ?_, ?_, ?_, ?_, ?_, ?_, ?_⟩ <;> decide +kernel⟩,
  ⟨next 0x21 [(16, 5), (24, 1)], 0#12, 0#32, cmdOf 0x21 [(16, 5), (24, 1)], tTensor, [0], by refine ⟨⟨?_, ?_, ?_, ?_⟩, ?_, ?_, ?_, ?_, ?_, ?_⟩ <;> decide +kernel⟩,
  ⟨at_ (flying ({ flight 0x21 [(16, 5), (24, 1)] with phase := 1, wins := [(0, WinOut.replayed)] })), 0#12, { flight 0x21 [(16, 5), (24, 1)] with phase := 1, wins := [(0, WinOut.replayed)] }, tTensor, [0], by refine ⟨⟨noStart ?_, ?_, ?_, ?_⟩, ?_, ?_, ?_, ?_, ?_⟩ <;> decide +kernel⟩,
  ⟨at_ (oneWin { tWin with cuts := [{ own := (0#12, 0#32), scale := none }] }), 0#19, { tWin with cuts := [{ own := (0#12, 0#32), scale := none }] }, (0#12, 0#32), by refine ⟨?_, ?_, ?_, ?_, ?_, ?_, ?_, ?_, ?_⟩ <;> decide +kernel⟩,
  ⟨next 0x22 [(16, 5), (24, 1), (32, 3)] ({ live with verdicts := [(5, 3#48, .abandon)] }), 0#12, 0#32, cmdOf 0x22 [(16, 5), (24, 1), (32, 3)], tTensor, [0], ((([0].foldl (fun c w => c.pass1Try 0#12 (newFlight ((next 0x22 [(16, 5), (24, 1), (32, 3)] ({ live with verdicts := [(5, 3#48, .abandon)] })).cx) 0#12 0#32 (cmdOf 0x22 [(16, 5), (24, 1), (32, 3)])) tTensor 3#48 w) ((((next 0x22 [(16, 5), (24, 1), (32, 3)] ({ live with verdicts := [(5, 3#48, .abandon)] })).cx.start 0#12 0#32 (cmdOf 0x22 [(16, 5), (24, 1), (32, 3)])).arm 3#48).modFlight 0#12 0#32 fun g => { g with phase := 1, wins := [(0, WinOut.todo)], result := 0#64 })).flight? 0#12 0#32).getD (flight 0 [])), by refine ⟨⟨?_, ?_, ?_, ?_⟩, ?_, ?_, ?_, ?_, ?_, ?_⟩ <;> decide +kernel⟩,
  ⟨next 0x22 [(16, 5), (24, 1), (32, 3)], 0#12, 0#32, cmdOf 0x22 [(16, 5), (24, 1), (32, 3)], tTensor, 0, tWin, by refine ⟨⟨?_, ?_, ?_, ?_⟩, ?_, ?_, ?_, ?_, ?_, ?_, ?_, ?_, ?_⟩ <;> decide +kernel⟩,
  ⟨live, 0#12, flight 0x22 [], tTensor, 3#48, 0, tWin, by refine ⟨?_, ?_, ?_, ?_, ?_⟩ <;> decide +kernel⟩,
  ⟨at_ { oneWin { tWin with sumSq := some (3#48, 5#32) } with img := { live.img with cfg := some { tImg with tensors := [{ tTensor with factored := true, rows := 10, columns := 13 }] } } }, 5#24, { tTensor with factored := true, rows := 10, columns := 13 }, { tImg with tensors := [{ tTensor with factored := true, rows := 10, columns := 13 }] }, 3#48, by refine ⟨?_, ?_, ?_, ?_, ?_⟩ <;> decide +kernel⟩⟩

/-- What `UpdateProtocol` asks of its states and operands can be met. -/
theorem test_meets_updateProtocol :
  (∃ (s : State) (st : StreamId) (num : W32) (cmd : BitVec 512) (t : Tensor) (ws : List Nat) (tb : StepTable),
    Starts s.cx st 0x23 num cmd ∧
    let c := s.cx.start st num cmd
    let f := newFlight s.cx st num cmd
    let a := c.arm f.step
    c.runOf f = some (t, ws) ∧
    f.mode = 0 ∧
    a.boundAway st f.tensor = false ∧
    a.takeTable st f t ws = .inl tb ∧
    a.allFenced ws = false ∧
    let outs := ws.map fun w => (w, WinOut.todo)
    let d := a.modFlight st num fun g => { g with table := some tb, phase := 1, wins := outs }
    let os := outs.map (d.idleOutcome f.step false)
    let todo := (os.filter fun p => p.2 == .todo).map (·.1)
    let e := d.modFlight st num fun g => { g with wins := os, phase := 1 }
    todo ≠ [] ∧
    e.anyBusy ws = false ∧
    e.cutOff st ws = false ∧
    e.demandAll todo = (e, true) ∧
    ((∀ w ∈ todo, (e.win? w).any (fun v => !v.resident) = false))) ∧
  (∃ (s : State) (st : StreamId) (f : Flight) (t : Tensor) (ws : List Nat),
    Resumes s.cx st 0x23 f ∧
    s.cx.runOf f = some (t, ws) ∧
    (f.mode = 0 ∨ f.mode = 1) ∧
    f.phase = 1 ∧
    let os := f.wins.map (s.cx.idleOutcome f.step (f.mode = 1))
    let c := s.cx.modFlight st f.number fun g => { g with wins := os, phase := 1 }
    ((∀ p ∈ os, p.2 ≠ .todo)) ∧
    (c.allFenced ws = false ∨ (∀ p ∈ os, p.2 ≠ .untouched))) ∧
  (∃ (s : State) (st : StreamId) (num : W32) (cmd : BitVec 512) (t : Tensor) (ws : List Nat),
    Starts s.cx st 0x23 num cmd ∧
    let c := s.cx.start st num cmd
    let f := newFlight s.cx st num cmd
    let a := c.arm f.step
    let act := ws.filter (a.abandonable f.step)
    c.runOf f = some (t, ws) ∧
    f.mode = 2 ∧
    f.arg 40 63 0 = 0 ∧
    c.boundAway st f.tensor = false ∧
    c.cutOff st ws = false ∧
    act ≠ [] ∧
    ws.filter (a.finishing f.step) = []) ∧
  (∃ (s : State) (w : BitVec 19) (v : Win) (t : Tensor) (n : Step) (q : StreamId × Flight) (slot : Nat) (tb : StepTable),
    s.cx.win? w.toNat = some v ∧
    s.cx.tensor? v.tensor = some t ∧
    v.pass = none ∧
    v.fenced = false ∧
    v.resident = true ∧
    s.cx.engineHalted (winStack w.toNat) = false ∧
    s.cx.pyroBlocked w.toNat v = false ∧
    v.st = .held n ∧
    v.stale n = false ∧
    s.cx.demand? w.toNat (some n) false = some q ∧
    s.cx.running (winStack w.toNat) < 8 ∧
    s.cx.verdictFor v n = none ∧
    s.cx.freeSlot (winStack w.toNat) = some slot ∧
    q.2.table = some tb ∧
    ((hasFstat (s.cx.programOf w.toNat t) && !s.cx.statsRan (winStack w.toNat) t.handle n f32One) = false ∨
      s.cx.fstatReady (winStack w.toNat) t n false = true)) ∧
  (∃ (s : State) (w : BitVec 19) (v u : Win) (p q : Pass) (t : Tensor),
    s.cx.win? w.toNat = some v ∧
    v.pass = some p ∧
    s.cx.tensor? v.tensor = some t ∧
    s.cx.engineHalted (winStack w.toNat) = false ∧
    s.cx.grantLimit (winStack w.toNat) ≠ 0 ∧
    p.fstatDone = true ∧
    (s.cx.runAll w.toNat).win? w.toNat = some u ∧
    u.pass = some q) ∧
  (∃ (s : State) (w : BitVec 19) (v : Win) (n : Step) (m : _),
    s.cx.win? w.toNat = some v ∧
    v.st = .committing n ∧
    v.commitHeld = true ∧
    s.cx.commitsWait (winStack w.toNat) = false ∧
    v.importStep = some m) ∧
  (∃ (s : State) (w : BitVec 19) (v : Win) (n : Step) (t : _),
    s.cx.win? w.toNat = some v ∧
    v.st = .committing n ∧
    v.commitHeld = true ∧
    s.cx.commitsWait (winStack w.toNat) = false ∧
    v.importStep = none ∧
    s.cx.tensor? v.tensor = some t ∧
    (s.cx.remap w.toNat v (some n)).tensor? v.tensor = some t ∧
    ((∀ k, s.cx.verdictFor v n ≠ some (.replay k)))) ∧
  (∃ (s : State) (w : BitVec 19) (v : Win) (n : Step) (t : _) (k : _),
    s.cx.win? w.toNat = some v ∧
    v.st = .committing n ∧
    v.commitHeld = true ∧
    s.cx.commitsWait (winStack w.toNat) = false ∧
    v.importStep = none ∧
    s.cx.tensor? v.tensor = some t ∧
    (s.cx.remap w.toNat v (some n)).tensor? v.tensor = some t ∧
    s.cx.verdictFor v n = some (.replay k)) ∧
  (∃ (s : State) (w : BitVec 19) (v : Win) (n slot : Nat) (rest : List (Nat × Nat)),
    s.cx.win? w.toNat = some v ∧
    v.copies = (n, slot) :: rest) ∧
  (∃ (s : State) (stk : Fin 20) (slot : BitVec 20),
    (s.cx.stk stk).releasing.contains slot.toNat = true ∧
    (s.cx.heldSlots stk).contains slot.toNat = false) :=
  ⟨⟨next 0x23 [(16, 5), (24, 1), (32, 3 + 0 * 2 ^ 48), (40, hostA 0x10000)] ({ live with mem := memA 0x10000 [(0x8A, 0x80#8), (0x8B, 0x3F#8)] }), 0#12, 0#32, cmdOf 0x23 [(16, 5), (24, 1), (32, 3 + 0 * 2 ^ 48), (40, hostA 0x10000)], tTensor, [0], (readTable (({ live with mem := memA 0x10000 [(0x8A, 0x80#8), (0x8B, 0x3F#8)] } : Cx).readAt (hostA 0x10000) 256)), by refine ⟨⟨?_, ?_, ?_, ?_⟩, ?_, ?_, ?_, ?_, ?_, ?_, ?_, ?_, ?_, ?_⟩ <;> decide +kernel⟩,
  ⟨at_ (flying ({ flight 0x23 [(16, 5), (24, 1), (32, 3 + 0 * 2 ^ 48), (40, hostA 0x10000)] with phase := 1, wins := [(0, WinOut.committed)], table := some (readTable (({ live with mem := memA 0x10000 [(0x8A, 0x80#8), (0x8B, 0x3F#8)] } : Cx).readAt (hostA 0x10000) 256)) })), 0#12, { flight 0x23 [(16, 5), (24, 1), (32, 3 + 0 * 2 ^ 48), (40, hostA 0x10000)] with phase := 1, wins := [(0, WinOut.committed)], table := some (readTable (({ live with mem := memA 0x10000 [(0x8A, 0x80#8), (0x8B, 0x3F#8)] } : Cx).readAt (hostA 0x10000) 256)) }, tTensor, [0], by refine ⟨⟨noStart ?_, ?_, ?_, ?_⟩, ?_, ?_, ?_, ?_, ?_⟩ <;> decide +kernel⟩,
  ⟨next 0x23 [(16, 5), (24, 1), (32, 3 + 2 * 2 ^ 48), (40, 0)] (oneWin { tWin with st := .held 3#48, hold := true }), 0#12, 0#32, cmdOf 0x23 [(16, 5), (24, 1), (32, 3 + 2 * 2 ^ 48), (40, 0)], tTensor, [0], by refine ⟨⟨?_, ?_, ?_, ?_⟩, ?_, ?_, ?_, ?_, ?_, ?_, ?_⟩ <;> decide +kernel⟩,
  ⟨at_ (flying ({ flight 0x23 [(16, 5), (24, 1), (32, 3 + 0 * 2 ^ 48), (40, hostA 0x10000)] with phase := 1, wins := [(0, WinOut.todo)], table := some (readTable (({ live with mem := memA 0x10000 [(0x8A, 0x80#8), (0x8B, 0x3F#8)] } : Cx).readAt (hostA 0x10000) 256)) }) (oneWin { tWin with st := .held 3#48, hold := true })), 0#19, { tWin with st := .held 3#48, hold := true }, tTensor, 3#48, (0#12, { flight 0x23 [(16, 5), (24, 1), (32, 3 + 0 * 2 ^ 48), (40, hostA 0x10000)] with phase := 1, wins := [(0, WinOut.todo)], table := some (readTable (({ live with mem := memA 0x10000 [(0x8A, 0x80#8), (0x8B, 0x3F#8)] } : Cx).readAt (hostA 0x10000) 256)) }), 1, (readTable (({ live with mem := memA 0x10000 [(0x8A, 0x80#8), (0x8B, 0x3F#8)] } : Cx).readAt (hostA 0x10000) 256)), by refine ⟨?_, ?_, ?_, ?_, ?_, ?_, ?_, ?_, ?_, ?_, ?_, ?_, ?_, ?_, ?_⟩ <;> decide +kernel⟩,
  ⟨passing { tPass (.alu2 .add 1#4 0x10#6 0x11#6 noPred) with lanes := [] }, 0#19, passWin { tPass (.alu2 .add 1#4 0x10#6 0x11#6 noPred) with lanes := [] }, passWin { tPass (.alu2 .add 1#4 0x10#6 0x11#6 noPred) with lanes := [] }, { tPass (.alu2 .add 1#4 0x10#6 0x11#6 noPred) with lanes := [] }, { tPass (.alu2 .add 1#4 0x10#6 0x11#6 noPred) with lanes := [] }, tTensor, by refine ⟨?_, ?_, ?_, ?_, ?_, ?_, ?_, ?_⟩ <;> decide +kernel⟩,
  ⟨at_ (oneWin { tWin with st := .committing 3#48, hold := true, specValid := true, specSlot := 1, commitSent := true, commitHeld := true, importStep := some (some 3#48) }), 0#19, { tWin with st := .committing 3#48, hold := true, specValid := true, specSlot := 1, commitSent := true, commitHeld := true, importStep := some (some 3#48) }, 3#48, some 3#48, by refine ⟨?_, ?_, ?_, ?_, ?_⟩ <;> decide +kernel⟩,
  ⟨at_ (oneWin { tWin with st := .committing 3#48, hold := true, specValid := true, specSlot := 1, commitSent := true, commitHeld := true, verdict := some .commit }), 0#19, { tWin with st := .committing 3#48, hold := true, specValid := true, specSlot := 1, commitSent := true, commitHeld := true, verdict := some .commit }, 3#48, tTensor, by refine ⟨?_, ?_, ?_, ?_, ?_, ?_, ?_, fun k => ?_⟩ <;> [decide +kernel; decide +kernel; decide +kernel; decide +kernel; decide +kernel; decide +kernel; decide +kernel; (rw [show Cx.verdictFor _ _ _ = some Verdict.commit by decide +kernel]; simp)]⟩,
  ⟨at_ { oneWin { tWin with st := .committing 3#48, hold := true, specValid := true, specSlot := 1, commitSent := true, commitHeld := true } with verdicts := [(5, 3#48, .replay 0x3F000000#32)] }, 0#19, { tWin with st := .committing 3#48, hold := true, specValid := true, specSlot := 1, commitSent := true, commitHeld := true }, 3#48, tTensor, 0x3F000000#32, by refine ⟨?_, ?_, ?_, ?_, ?_, ?_, ?_, ?_⟩ <;> decide +kernel⟩,
  ⟨at_ (oneWin { tWin with copies := [(2, 5)] }), 0#19, { tWin with copies := [(2, 5)] }, 2, 5, [], by refine ⟨?_, ?_⟩ <;> decide +kernel⟩,
  ⟨at_ (live.modStk 0 fun k => { k with releasing := [3] }), 0, 3#20, by refine ⟨?_, ?_⟩ <;> decide +kernel⟩⟩

/-- What `CommitRemapsWindow` asks of its states and operands can be met. -/
theorem test_meets_commitRemapsWindow :
  (∃ (s : State) (w : BitVec 19) (v : Win) (n : Step),
    s.cx.win? w.toNat = some v ∧
    v.st = .committing n ∧
    v.commitHeld = true ∧
    s.cx.commitsWait (winStack w.toNat) = false ∧
    s.cx.gradHeld = []) :=
  ⟨at_ (oneWin { tWin with st := .committing 3#48, hold := true, specValid := true, specSlot := 1, commitSent := true, commitHeld := true, verdict := some .commit }), 0#19, { tWin with st := .committing 3#48, hold := true, specValid := true, specSlot := 1, commitSent := true, commitHeld := true, verdict := some .commit }, 3#48, by refine ⟨?_, ?_, ?_, ?_, ?_⟩ <;> decide +kernel⟩

/-- What `ImportAndTenantsComplete` asks of its states and operands can be met. -/
theorem test_meets_importAndTenantsComplete :
  (∃ (s : State) (st : StreamId) (num : W32) (cmd : BitVec 512) (t : Tensor) (ws : List Nat) (imgs : List (List Byte)),
    Starts s.cx st 0x25 num cmd ∧
    let c := s.cx.start st num cmd
    let f := newFlight s.cx st num cmd
    let src := f.arg 32 63 0
    let step : Step := BitVec.ofNat 48 (f.arg 40 47 0)
    let key := f.arg 40 51 49
    let ps := (List.range f.count).map fun i =>
      (ws.getD i 0, t.imageOff f.first i, t.imageOff f.first (i + 1) - t.imageOff f.first i)
    let ids := ps.map (·.1)
    let a := c.arm step
    c.runOf f = some (t, ws) ∧
    (bits src 63 60 = 2 ∨ bits src 63 60 = 4) ∧
    c.badKey key = false ∧
    c.overPool ws = false ∧
    c.badOperand? st f .read 3 src (t.imageBytes f.first f.count) = none ∧
    c.boundAway st f.tensor = false ∧
    ((∀ w ∈ ws, (c.win? w).any (·.fenced) = false)) ∧
    c.cutOff st ws = false ∧
    c.anyBusy ws = false ∧
    f.bit 40 48 = false ∧
    a.demandAll ids = (a, true) ∧
    ids.all a.winIdle = true ∧
    a.slotsFor ids = true ∧
    a.readImages src key ps = .ok imgs) ∧
  (∃ (s : State) (st : StreamId) (f : Flight),
    Resumes s.cx st 0x25 f ∧
    f.phase = 2 ∧
    f.settled = true) ∧
  (∃ (s : State) (st : StreamId) (num : W32) (cmd : BitVec 512) (l : List Byte) (imgs : List (List Byte)),
    Starts s.cx st 0x60 num cmd ∧
    let c := s.cx.start st num cmd
    let f := newFlight s.cx st num cmd
    let g := { f with data := l }
    let tenant := f.arg 16 13 0
    let src := f.arg 40 63 0
    let step : Step := BitVec.ofNat 48 (f.arg 48 47 0)
    let key := f.arg 32 26 24
    let hs := g.stageTensors
    let ps := c.stageParts hs
    let ids := ps.map (·.1)
    let a := (c.arm step).modFlight st num fun x => { x with data := l }
    (bits src 63 60 = 2 ∨ bits src 63 60 = 4) ∧
    c.badKey key = false ∧
    c.listOperand st f 2 (f.arg 24 63 0) (4 * f.arg 32 23 0) = .inr l ∧
    ((∀ h ∈ hs, c.tensor? h ≠ none ∧ c.stageForeign st tenant h = false)) ∧
    repeated hs = false ∧
    c.overPool ids = false ∧
    c.badOperand? st f .read 4 src (partsLen ps) = none ∧
    c.overStackQuota tenant (hs.map (c.stageCharge tenant)).sum = false ∧
    ((∀ w ∈ ids, (c.win? w).any (·.fenced) = false)) ∧
    c.cutOff st ids = false ∧
    c.anyBusy ids = false ∧
    a.demandAll ids = (a, true) ∧
    ids.all a.winIdle = true ∧
    a.slotsFor ids = true ∧
    a.readImages src key ps = .ok imgs) ∧
  (∃ (s : State) (st : StreamId) (f : Flight),
    Resumes s.cx st 0x60 f ∧
    f.phase = 2 ∧
    f.settled = true ∧
    s.cx.noMaster st = false) ∧
  (∃ (s : State) (st : StreamId) (num : W32) (cmd : BitVec 512),
    Starts s.cx st 0x61 num cmd ∧
    let c := s.cx.start st num cmd
    let f := newFlight s.cx st num cmd
    let tenant := f.arg 16 13 0
    let ws := c.boundWindows tenant
    c.anyBusy ws = false ∧
    c.cutOff st ws = false ∧
    ((∀ w ∈ ws, ((c.win? w).map fun v => v.st) = some .quiet ∧ (c.win? w).any (·.fenced) = false))) ∧
  (∃ (s : State) (st : StreamId) (f : Flight),
    Resumes s.cx st 0x61 f ∧
    f.phase = 2 ∧
    s.cx.noMaster st = false ∧
    let ws := f.wins.map (·.1)
    ((∀ w ∈ ws, ∀ v, s.cx.win? w = some v → v.commitHeld = true))) ∧
  (∃ (s : State) (slot : Fin 4) (word : Fin 16) (v : W32),
    s.cx.serves s.cx.master = true ∧
    slot.val + 1 ≤ s.cx.stagedSlots ∧
    s.cx.keyInUse (slot.val + 1) = false ∧
    let n := slot.val + 1
    let c := ({ s.cx with keyWords := kput s.cx.keyWords (16 * n + word.val) v } : Cx)
    c.keyPending n = none) ∧
  (∃ (s : State) (slot : Fin 4) (word : Fin 16) (v : W32) (ks : _),
    s.cx.serves s.cx.master = true ∧
    slot.val + 1 ≤ s.cx.stagedSlots ∧
    s.cx.keyInUse (slot.val + 1) = false ∧
    let n := slot.val + 1
    let c := ({ s.cx with keyWords := kput s.cx.keyWords (16 * n + word.val) v } : Cx)
    c.keyPending n = some ks ∧
    ks.take 8 ≠ ks.drop 8) ∧
  (∃ (s : State) (slot : Fin 4) (word : Fin 16) (v : W32) (ks : _),
    s.cx.serves s.cx.master = true ∧
    slot.val + 1 ≤ s.cx.stagedSlots ∧
    s.cx.keyInUse (slot.val + 1) = false ∧
    let n := slot.val + 1
    let c := ({ s.cx with keyWords := kput s.cx.keyWords (16 * n + word.val) v } : Cx)
    c.keyPending n = some ks ∧
    ks.take 8 = ks.drop 8) ∧
  (∃ (s : State) (slot : Fin 4),
    s.cx.serves s.cx.master = true ∧
    s.cx.keyInUse (slot.val + 1) = false) :=
  ⟨⟨next 0x25 [(16, 5), (24, 1), (32, hostA 0x40000), (40, 3)] ({ live with wins := [(0, { tWin with valid := 1 })], img := { live.img with cfg := some { tImg with tensors := [{ tTensor with count := 1 }] } }, mem := imgMem }), 0#12, 0#32, cmdOf 0x25 [(16, 5), (24, 1), (32, hostA 0x40000), (40, 3)], { tTensor with count := 1 }, [0], [({ live with mem := imgMem } : Cx).readAt (hostA 0x40000) 128], by refine ⟨⟨?_, ?_, ?_, ?_⟩, ?_, ?_, ?_, ?_, ?_, ?_, ?_, ?_, ?_, ?_, ?_, ?_, ?_, ?_⟩ <;> decide +kernel⟩,
  ⟨at_ (flying ({ flight 0x25 [(16, 5), (24, 1), (32, hostA 0x40000), (40, 3)] with phase := 2, wins := [(0, WinOut.committed)] })), 0#12, { flight 0x25 [(16, 5), (24, 1), (32, hostA 0x40000), (40, 3)] with phase := 2, wins := [(0, WinOut.committed)] }, by refine ⟨⟨noStart ?_, ?_, ?_, ?_⟩, ?_, ?_⟩ <;> decide +kernel⟩,
  ⟨next 0x60 [(16, 2), (24, hostA 0x50000), (32, 1), (40, hostA 0x40000), (48, 3)] ({ live with wins := [(0, { tWin with valid := 1 })], img := { live.img with cfg := some { tImg with tensors := [{ tTensor with count := 1 }] } }, mem := imgMem ++ [(hostA 0x50000, 5#8)] }), 0#12, 0#32, cmdOf 0x60 [(16, 2), (24, hostA 0x50000), (32, 1), (40, hostA 0x40000), (48, 3)], [5#8, 0#8, 0#8, 0#8], [({ live with mem := imgMem } : Cx).readAt (hostA 0x40000) 128], by refine ⟨⟨?_, ?_, ?_, ?_⟩, ?_, ?_, ?_, ?_, ?_, ?_, ?_, ?_, ?_, ?_, ?_, ?_, ?_, ?_, ?_⟩ <;> decide +kernel⟩,
  ⟨at_ (flying ({ flight 0x60 [(16, 2), (24, hostA 0x50000), (32, 1), (40, hostA 0x40000), (48, 3)] with phase := 2, wins := [(0, WinOut.committed)] })), 0#12, { flight 0x60 [(16, 2), (24, hostA 0x50000), (32, 1), (40, hostA 0x40000), (48, 3)] with phase := 2, wins := [(0, WinOut.committed)] }, by refine ⟨⟨noStart ?_, ?_, ?_, ?_⟩, ?_, ?_, ?_⟩ <;> decide +kernel⟩,
  ⟨next 0x61 [(16, 2)] ({ live with binding := [(5, 2)] }), 0#12, 0#32, cmdOf 0x61 [(16, 2)], by refine ⟨⟨?_, ?_, ?_, ?_⟩, ?_, ?_, ?_⟩ <;> decide +kernel⟩,
  ⟨at_ (flying ({ flight 0x61 [(16, 2)] with phase := 2, wins := [(0, WinOut.committed)] }) (oneWin { tWin with commitHeld := true })), 0#12, { flight 0x61 [(16, 2)] with phase := 2, wins := [(0, WinOut.committed)] }, by refine ⟨⟨noStart ?_, ?_, ?_, ?_⟩, ?_, ?_, ?_⟩ <;> decide +kernel⟩,
  ⟨at_ live, 0, 0, 7#32, by refine ⟨?_, ?_, ?_, ?_⟩ <;> decide +kernel⟩,
  ⟨at_ { live with keyWords := (List.range 16).map fun i => (16 + i, 7#32) }, 0, 0, 8#32, 8#32 :: List.replicate 15 7#32, by refine ⟨?_, ?_, ?_, ?_, ?_⟩ <;> decide +kernel⟩,
  ⟨at_ { live with keyWords := (List.range 16).map fun i => (16 + i, 7#32) }, 0, 0, 7#32, List.replicate 16 7#32, by refine ⟨?_, ?_, ?_, ?_, ?_⟩ <;> decide +kernel⟩,
  ⟨at_ live, 0, by refine ⟨?_, ?_⟩ <;> decide +kernel⟩⟩

/-- What `CollectivesComplete` asks of its states and operands can be met. -/
theorem test_meets_collectivesComplete :
  (∃ (s : State) (st : StreamId) (num : W32) (cmd : BitVec 512) (a b : List Byte) (own : W64 × Flags),
    Starts s.cx st 0x32 num cmd ∧
    let c := s.cx.start st num cmd
    let f := newFlight s.cx st num cmd
    let g := { f with data := a ++ b, phase := 1 }
    let x := Fmt.f64.unpack (f.arg 32 63 0)
    0 < f.normCount ∧
    x.isNan = false ∧
    x.lt (.fin false 0 0) = false ∧
    f.shards = 1 ∧
    f.shardRank = 0 ∧
    listTagOk (f.arg 16 63 0) = true ∧
    listTagOk (f.arg 48 63 0) = true ∧
    c.listOperand st f 1 (f.arg 16 63 0) (4 * f.normCount) = .inr a ∧
    c.listOperand st f 5 (f.arg 48 63 0) (4 * f.shards) = .inr b ∧
    ((∀ h ∈ g.normTensors, c.tensor? h ≠ none ∧ c.boundAway st h = false)) ∧
    repeated g.normTensors = false ∧
    c.noMasterFor st g.normTensors = false ∧
    let d := (c.arm f.normStep).modFlight st num fun x => { x with data := g.data, phase := 1 }
    g.normNodes.find? (fun x => d.fab.unreachable.contains x) = none ∧
    g.normNodes.length = 1 ∧
    d.shardSum g.normTensors g.normStep = some own) ∧
  (∃ (s : State) (p : Fin 13) (m : Msg),
    m.op.toNat = 0x12 ∧
    s.cx.arrived p m = true ∧
    let c := s.cx.consume p m
    let n : Step := BitVec.ofNat 48 (m.fields.getD 0 0)
    c.waitingNorm n = none) ∧
  (∃ (s : State) (st : StreamId) (num : W32) (cmd : BitVec 512) (t : Tensor) (ws : List Nat) (l : List Byte),
    Starts s.cx st 0x30 num cmd ∧
    let c := s.cx.start st num cmd
    let f := newFlight s.cx st num cmd
    let g := { f with data := l, phase := 1, wins := ws.map fun w => (w, WinOut.todo) }
    c.runOf f = some (t, ws) ∧
    0 < f.ranks ∧
    f.ranks ≤ 4096 ∧
    f.ownRank < f.ranks ∧
    ((f.rsOrdered = true → f.ranks ≤ 16)) ∧
    (f.fused.map finitePositive).getD true = true ∧
    let a := c.arm (BitVec.ofNat 48 f.rsStep)
    listTagOk (f.arg 40 63 0) = true ∧
    a.listOperand st f 4 (f.arg 40 63 0) (4 * f.ranks) = .inr l ∧
    g.rsNodes.getD f.ownRank 0 = a.node.toNat ∧
    a.boundAway st f.tensor = false) ∧
  (∃ (c : Cx) (st : StreamId) (f g : Flight) (t : Tensor) (ws : List Nat),
    c.runOf f = some (t, ws) ∧
    f.rsNodes.find? (fun x => c.fab.unreachable.contains x) = none ∧
    windowsRefused st c ws = none ∧
    c.demandAll ws = (c, true) ∧
    (c.tryReceipts.rsWindows st f.number ws).flight? st f.number = some g) ∧
  (∃ (s : State) (p : Fin 13) (m : Msg) (st : StreamId) (f : Flight) (v : Win) (t : Tensor) (d : Cx),
    let w := m.fields.getD 0 0
    let bs := (blocksIn (m.fields.getD 3 0) (m.fields.getD 5 0) m.data).filter fun b => b.1 < 16384
    m.op.toNat = 0x10 ∧
    s.cx.arrived p m = true ∧
    s.cx.rsApplied w (m.fields.getD 1 0) (m.fields.getD 2 0) = false ∧
    s.cx.rsTaker w (m.fields.getD 1 0) = some (st, f) ∧
    s.cx.win? w = some v ∧
    s.cx.tensor? v.tensor = some t ∧
    (v.mode = none ∨ v.mode = some f.rsOrdered) ∧
    bs ≠ [] ∧
    m.fields.getD 4 0 ≠ 1 ∧
    s.cx.addBlocks w t v (if f.rsOrdered then m.fields.getD 2 0 else 0) (m.fields.getD 1 0) bs = some d) ∧
  (∃ (s : State) (p : Fin 13) (m : Msg),
    m.op.toNat = 0x11 ∧
    s.cx.arrived p m = true) ∧
  (∃ (s : State) (st : StreamId) (num : W32) (cmd : BitVec 512) (l : List Byte),
    Starts s.cx st 0x31 num cmd ∧
    let c := s.cx.start st num cmd
    let f := newFlight s.cx st num cmd
    let n := f.arg 24 12 0
    let dest := f.arg 32 63 0
    let es := agEntries l n
    0 < n ∧
    n ≤ 4096 ∧
    (bits dest 63 60 = 0 ∨ bits dest 63 60 = 2 ∨ bits dest 63 60 = 3 ∨ bits dest 63 60 = 4) ∧
    c.listOperand st f 1 (f.arg 16 63 0) (32 * n) = .inr l ∧
    ((∀ e ∈ es, e.reserved = false ∧ e.off % 64 = 0 ∧ c.fab.unreachable.contains e.node = false)) ∧
    agOverlap es = false ∧
    c.badOperand? st f .write 3 dest ((es.map fun e => e.off + e.len).foldl max 0) = none) ∧
  (∃ (s : State) (p : Fin 13) (m : Msg) (t : Tensor) (l : List AgWin),
    let k := m.fields.getD 1 0
    let n := m.fields.getD 2 0
    let ver : Version := BitVec.ofNat 32 (m.fields.getD 3 0)
    m.op.toNat = 0x15 ∧
    s.cx.arrived p m = true ∧
    s.cx.tensor? (m.fields.getD 0 0) = some t ∧
    0 < n ∧
    k + n ≤ t.windows ∧
    s.cx.demandAll (s.cx.windowIds t k n) = (s.cx, true) ∧
    let c := s.cx.consume p m
    c.agSelect t k n (m.fields.getD 4 0 = 1) ver = .inr l) ∧
  (∃ (s : State) (p : Fin 13) (m : Msg) (r : Req),
    m.op.toNat = 0x16 ∧
    s.cx.arrived p m = true ∧
    let c := s.cx.consume p m
    c.req? m.tag = some r ∧
    r.op = 0x15 ∧
    m.fields.getD 0 0 = 0) ∧
  (∃ (s : State) (p : Fin 13) (m : Msg) (r : Req) (f : Flight),
    m.op.toNat = 0x17 ∧
    s.cx.arrived p m = true ∧
    let c := s.cx.consume p m
    m.fields.getD 0 0 = 1 ∧
    m.fields.getD 1 0 = 0 ∧
    c.req? m.tag = some r ∧
    c.flight? r.stream r.command = some f ∧
    r.op = 0x17 ∧
    f.status = none) ∧
  (∃ (s : State) (p : Fin 13) (m : Msg),
    m.op.toNat = 0x18 ∧
    s.cx.arrived p m = true) :=
  ⟨⟨next 0x32 [(16, 3 * 2 ^ 60), (24, 1), (32, 0x3FF0000000000000), (40, 3), (48, 3 * 2 ^ 60 + 64), (56, 1)] ({ live with mem := [(sramKey .A 0, 5#8)], wins := [(0, { tWin with sumSq := some (3#48, 0x3F800000#32) })] }), 0#12, 0#32, cmdOf 0x32 [(16, 3 * 2 ^ 60), (24, 1), (32, 0x3FF0000000000000), (40, 3), (48, 3 * 2 ^ 60 + 64), (56, 1)], [5#8, 0#8, 0#8, 0#8], [0#8, 0#8, 0#8, 0#8], ((({ live with mem := [(sramKey .A 0, 5#8)], wins := [(0, { tWin with sumSq := some (3#48, 0x3F800000#32) })] } : Cx).shardSum [5] 3#48).getD (0#64, 0#8)), by refine ⟨⟨?_, ?_, ?_, ?_⟩, ?_, ?_, ?_, ?_, ?_, ?_, ?_, ?_, ?_, ?_, ?_, ?_, ?_, ?_, ?_⟩ <;> decide +kernel⟩,
  ⟨gets (msg 18 2 0 0 0 [] [3, 0, 0]) live, 0, (msg 18 2 0 0 0 [] [3, 0, 0]), by refine ⟨?_, ?_, ?_⟩ <;> decide +kernel⟩,
  ⟨next 0x30 [(16, 5), (24, 1), (40, 3 * 2 ^ 60), (48, 1), (56, 3)] ({ live with mem := [(sramKey .A 0, 1#8), (sramKey .A 1, 1#8)] }), 0#12, 0#32, cmdOf 0x30 [(16, 5), (24, 1), (40, 3 * 2 ^ 60), (48, 1), (56, 3)], tTensor, [0], [1#8, 1#8, 0#8, 0#8], by refine ⟨⟨?_, ?_, ?_, ?_⟩, ?_, ?_, ?_, ?_, ?_, ?_, ?_, ?_, ?_, ?_⟩ <;> decide +kernel⟩,
  ⟨flying ({ flight 0x30 [(16, 5), (24, 1), (40, 3 * 2 ^ 60), (48, 1), (56, 3)] with data := [1#8, 1#8, 0#8, 0#8], phase := 1, wins := [(0, .untouched)] }), 0#12, { flight 0x30 [(16, 5), (24, 1), (40, 3 * 2 ^ 60), (48, 1), (56, 3)] with data := [1#8, 1#8, 0#8, 0#8], phase := 1, wins := [(0, .untouched)] }, { flight 0x30 [(16, 5), (24, 1), (40, 3 * 2 ^ 60), (48, 1), (56, 3)] with data := [1#8, 1#8, 0#8, 0#8], phase := 1, wins := [(0, .untouched)] }, tTensor, [0], by refine ⟨?_, ?_, ?_, ?_, ?_⟩ <;> decide +kernel⟩,
  ⟨gets (msg 16 2 0 0 128 (List.replicate 128 0#8) [0, 3, 0, 0, 0, 1]) (flying ({ flight 0x30 [(16, 5), (24, 1), (40, 3 * 2 ^ 60), (48, 1), (56, 3)] with data := [1#8, 1#8, 0#8, 0#8], phase := 1, wins := [(0, .replayed)] })), 0, (msg 16 2 0 0 128 (List.replicate 128 0#8) [0, 3, 0, 0, 0, 1]), 0#12, { flight 0x30 [(16, 5), (24, 1), (40, 3 * 2 ^ 60), (48, 1), (56, 3)] with data := [1#8, 1#8, 0#8, 0#8], phase := 1, wins := [(0, .replayed)] }, tWin, tTensor, ((gets (msg 0x10 2 0 0 128 (List.replicate 128 0#8) [0, 3, 0, 0, 0, 1]) (flying ({ flight 0x30 [(16, 5), (24, 1), (40, 3 * 2 ^ 60), (48, 1), (56, 3)] with data := [1#8, 1#8, 0#8, 0#8], phase := 1, wins := [(0, .replayed)] }))).cx.addBlocks 0 tTensor tWin 0 3 (blocksIn 0 1 (List.replicate 128 0#8))).getD live, by refine ⟨?_, ?_, ?_, ?_, ?_, ?_, ?_, ?_, ?_, ?_⟩ <;> decide +kernel⟩,
  ⟨gets (msg 17 2 0 0 0 [] []) live, 0, (msg 17 2 0 0 0 [] []), by refine ⟨?_, ?_⟩ <;> decide +kernel⟩,
  ⟨next 0x31 [(16, 3 * 2 ^ 60), (24, 1), (32, hostA 0x20000)], 0#12, 0#32, cmdOf 0x31 [(16, 3 * 2 ^ 60), (24, 1), (32, hostA 0x20000)], List.replicate 32 0#8, by refine ⟨⟨?_, ?_, ?_, ?_⟩, ?_, ?_, ?_, ?_, ?_, ?_, ?_⟩ <;> decide +kernel⟩,
  ⟨gets (msg 21 2 0 0 0 [] [5, 0, 1, 0, 1]) live, 0, (msg 21 2 0 0 0 [] [5, 0, 1, 0, 1]), tTensor, [⟨0, false, 0, 0#32, none⟩], by refine ⟨?_, ?_, ?_, ?_, ?_, ?_, ?_⟩ <;> decide +kernel⟩,
  ⟨gets (msg 22 2 0 0 0 [] [0]) ({ live with fab := { live.fab with reqs := [{ tag := 3#16, dest := 0x102, op := 21, stream := 0#12, command := 0#32, off := 0, len := 1 }] } }), 0, (msg 22 2 0 0 0 [] [0]), { tag := 3#16, dest := 0x102, op := 21, stream := 0#12, command := 0#32, off := 0, len := 1 }, by refine ⟨?_, ?_, ?_, ?_, ?_⟩ <;> decide +kernel⟩,
  ⟨gets (msg 23 2 0 0 0 [] [1, 0]) ({ flying (flight 0x31 []) with fab := { live.fab with reqs := [{ tag := 3#16, dest := 0x102, op := 23, stream := 0#12, command := 0#32, off := 0, len := 1 }] } }), 0, (msg 23 2 0 0 0 [] [1, 0]), { tag := 3#16, dest := 0x102, op := 23, stream := 0#12, command := 0#32, off := 0, len := 1 }, flight 0x31 [], by refine ⟨?_, ?_, ?_, ?_, ?_, ?_, ?_, ?_⟩ <;> decide +kernel⟩,
  ⟨gets (msg 24 2 0 0 0 [] [0]) live, 0, (msg 24 2 0 0 0 [] [0]), by refine ⟨?_, ?_⟩ <;> decide +kernel⟩⟩

/-- What `StackMaintenance` asks of its states and operands can be met. -/
theorem test_meets_stackMaintenance :
  (∃ (s : State) (ch : Fin 640) (t : Byte),
    let k0 := s.cx.stk (ch.val / 32)
    let k := { k0 with temps := kput k0.temps (ch.val % 32) t.toInt }
    k.hottest < 100 ∧
    k0.thermalTrip = false ∧
    tempRow k0.row k.hottest ≤ k0.row ∧
    k0.linkReset = false) ∧
  (∃ (s : State) (ch : Fin 640) (bank row : Nat) (off : W32),
    let st := ch.val / 32
    let key := (ch.val % 32 + 32 * bank) * 2 ^ 20 + row % 2 ^ 20
    let c := ((s.cx.eccAt ch off.toNat).bump (stkReg st 0x40) 31 (homeDie st)).modStk st fun x =>
      { x with ceChan := kput x.ceChan (ch.val % 32) (min 65535 (kget 0 x.ceChan (ch.val % 32) + 1)) }
    (s.cx.stk st).trained = true ∧
    kget 0 (c.stk st).eccRows key < 3) ∧
  (∃ (s : State) (ch : Fin 640) (bank row : Nat) (off : W32),
    let st := ch.val / 32
    let key := (ch.val % 32 + 32 * bank) * 2 ^ 20 + row % 2 ^ 20
    let c := ((s.cx.eccAt ch off.toNat).bump (stkReg st 0x40) 31 (homeDie st)).modStk st fun x =>
      { x with ceChan := kput x.ceChan (ch.val % 32) (min 65535 (kget 0 x.ceChan (ch.val % 32) + 1)) }
    (s.cx.stk st).trained = true ∧
    3 ≤ kget 0 (c.stk st).eccRows key ∧
    0 < (c.stk st).sparesLeft (ch.val % 32) bank) ∧
  (∃ (s : State) (ch : Fin 640) (bank row : Nat) (off : W32),
    let st := ch.val / 32
    let key := (ch.val % 32 + 32 * bank) * 2 ^ 20 + row % 2 ^ 20
    let c := ((s.cx.eccAt ch off.toNat).bump (stkReg st 0x40) 31 (homeDie st)).modStk st fun x =>
      { x with ceChan := kput x.ceChan (ch.val % 32) (min 65535 (kget 0 x.ceChan (ch.val % 32) + 1)) }
    (s.cx.stk st).trained = true ∧
    3 ≤ kget 0 (c.stk st).eccRows key ∧
    (c.stk st).sparesLeft (ch.val % 32) bank = 0) ∧
  (∃ (s : State) (ch : Fin 640) (bank row : Nat) (off : W32),
    let st := ch.val / 32
    let key := (ch.val % 32 + 32 * bank) * 2 ^ 20 + row % 2 ^ 20
    let c := (((s.cx.eccAt ch off.toNat).bump (stkReg st 0x44) 31 (homeDie st)).poisonRange
      (chanKey ch (off.toNat / 64 * 64)) 64).modStk st fun x => { x with eccRows := kdel x.eccRows key }
    let left := (c.stk st).sparesLeft (ch.val % 32) bank
    (s.cx.stk st).trained = true ∧
    0 < left) ∧
  (∃ (s : State) (stk : Fin 20),
    s.cx.stackUp stk = true ∧
    s.cx.serves (s.cx.owner stk) = true) ∧
  (∃ (s : State) (stk : Fin 20) (x : Nat),
    (s.cx.stk stk).retired = some x ∧
    (s.cx.stk stk).rebuilding = true ∧
    (s.cx.stk stk).lost = false ∧
    s.cx.peersOwe stk = false) ∧
  (∃ (s : State) (stk : Fin 20) (d : Delta) (rest : List Delta),
    (s.cx.stk stk).deltas = d :: rest ∧
    (s.cx.stk stk).linkReset = false) ∧
  (∃ (s : State) (stk : Fin 20),
    (s.cx.stk stk).linkReset = false ∧
    (s.cx.stk stk).rebuilding = false ∧
    (s.cx.stk stk).lost = false) ∧
  (∃ (s : State) (stk : Fin 20),
    (s.cx.stk stk).trained = true ∧
    (s.cx.stk stk).linkReset = true) ∧
  (∃ (s : State) (stk : Fin 20),
    s.cx.rebuildable stk = true ∧
    (s.cx.stk stk).rebuilding = false) ∧
  (∃ (s : State) (stk : Fin 20),
    s.cx.rebuildable stk = true ∧
    (s.cx.stk stk).rebuilding = true) ∧
  (∃ (s : State) (ch : Fin 640) (off : W32) (data : List Byte),
    (s.cx.die (homeDie (ch.val / 32))).jtag = 6 ∧
    s.cx.enabled = false ∧
    (s.cx.die (homeDie (ch.val / 32))).core = false ∧
    data ≠ [] ∧
    off.toNat + data.length ≤ channelBytes) :=
  ⟨⟨at_ live, 0, 40#8, by refine ⟨?_, ?_, ?_, ?_⟩ <;> decide +kernel⟩,
  ⟨at_ live, 0, 0, 7, 0#32, by refine ⟨?_, ?_⟩ <;> decide +kernel⟩,
  ⟨at_ (live.modStk 0 fun k => { k with eccRows := [((0 + 32 * 0) * 2 ^ 20 + 7, 3)] }), 0, 0, 7, 0#32, by refine ⟨?_, ?_, ?_⟩ <;> decide +kernel⟩,
  ⟨at_ (live.modStk 0 fun k => { k with eccRows := [((0 + 32 * 0) * 2 ^ 20 + 7, 3)], spares := [(0, 0)] }), 0, 0, 7, 0#32, by refine ⟨?_, ?_, ?_⟩ <;> decide +kernel⟩,
  ⟨at_ live, 0, 0, 7, 0#32, by refine ⟨?_, ?_⟩ <;> decide +kernel⟩,
  ⟨at_ live, 0, by refine ⟨?_, ?_⟩ <;> decide +kernel⟩,
  ⟨at_ (live.modStk 0 fun k => { k with retired := some 3, rebuilding := true }), 0, 3, by refine ⟨?_, ?_, ?_, ?_⟩ <;> decide +kernel⟩,
  ⟨at_ (live.modStk 0 fun k => { k with deltas := [{ granule := 0, xors := [] }] }), 0, { granule := 0, xors := [] }, [], by refine ⟨?_, ?_⟩ <;> decide +kernel⟩,
  ⟨at_ live, 0, by refine ⟨?_, ?_, ?_⟩ <;> decide +kernel⟩,
  ⟨at_ (live.modStk 0 fun k => { k with thermalTrip := true }), 0, by refine ⟨?_, ?_⟩ <;> decide +kernel⟩,
  ⟨at_ { (live.modStk 0 fun k => { k with lost := true }) with img := { live.img with cfg := some { tImg with geo := { tImg.geo with parity := 1 } } } }, 0, by refine ⟨?_, ?_⟩ <;> decide +kernel⟩,
  ⟨at_ { (live.modStk 0 fun k => { k with lost := true, rebuilding := true }) with img := { live.img with cfg := some { tImg with geo := { tImg.geo with parity := 1 } } } }, 0, by refine ⟨?_, ?_⟩ <;> decide +kernel⟩,
  ⟨at_ { live with img := {}, dieA := { tDie with jtag := 6, core := false } }, 0, 0#32, [1#8], by refine ⟨?_, ?_, ?_, ?_, ?_⟩ <;> decide +kernel⟩⟩

/-- What `StackLinksAndTiers` asks of its states and operands can be met. -/
theorem test_meets_stackLinksAndTiers :
  (∃ (s : State) (stk : Fin 20),
    s.cx.ownerServes stk = true ∧
    (s.cx.stk stk).retrainP = false) ∧
  (∃ (s : State) (stk : Fin 20),
    s.cx.ownerServes stk = true ∧
    (s.cx.stk stk).retrainS = false ∧
    (s.cx.stk stk).retrainP = false) ∧
  (∃ (s : State) (stk : Fin 20),
    2 ≤ (s.cx.stk stk).primary ∧
    (s.cx.stk stk).retrainP = false) ∧
  (∃ (s : State) (stk : Fin 20),
    2 ≤ (s.cx.stk stk).standby ∧
    (s.cx.stk stk).retrainS = false) ∧
  (∃ (s : State) (stk : Fin 20) (failed dur : Nat),
    (s.cx.stk stk).retrainP = true ∧
    (s.cx.stk stk).marginHolds = false ∧
    (s.cx.stk stk).standbyWaits = false) ∧
  (∃ (s : State) (stk : Fin 20) (failed dur : Nat),
    (s.cx.stk stk).retrainS = true) ∧
  (∃ (s : State) (stk : Fin 20),
    s.cx.ownerServes stk = true ∧
    (s.cx.stk stk).marginBusy = false) ∧
  (∃ (s : State) (d : Side),
    s.cx.serves d = true ∧
    (s.cx.die d).marginBusy = false ∧
    s.cx.enabled = false) ∧
  (∃ (s : State) (stk : Fin 20) (errors : Nat),
    (s.cx.stk stk).marginBusy = true) ∧
  (∃ (s : State) (d : Side) (errors : Nat),
    (s.cx.die d).marginBusy = true) ∧
  (∃ (s : State) (w : BitVec 19) (v : Win) (slot : Nat),
    let st := winStack w.toNat
    s.cx.win? w.toNat = some v ∧
    v.resident = false ∧
    v.promoting = true ∧
    s.cx.stackBusy st = false ∧
    s.cx.coreUp (homeDie st) = true ∧
    s.cx.freePromo st = some slot ∧
    (s.cx.die (homeDie st)).slowUp = true ∧
    s.cx.hubPoisonIn (slowImageKey w.toNat v) slotBytes = none) ∧
  (∃ (s : State) (w : BitVec 19) (v : Win),
    s.cx.win? w.toNat = some v ∧
    s.cx.canWriteBack w.toNat v = true ∧
    v.writingBack = false) ∧
  (∃ (s : State) (w : BitVec 19) (v : Win),
    s.cx.win? w.toNat = some v ∧
    s.cx.canWriteBack w.toNat v = true ∧
    v.writingBack = true) :=
  ⟨⟨at_ live, 0, by refine ⟨?_, ?_⟩ <;> decide +kernel⟩,
  ⟨at_ live, 0, by refine ⟨?_, ?_, ?_⟩ <;> decide +kernel⟩,
  ⟨at_ live, 0, by refine ⟨?_, ?_⟩ <;> decide +kernel⟩,
  ⟨at_ live, 0, by refine ⟨?_, ?_⟩ <;> decide +kernel⟩,
  ⟨at_ (live.modStk 0 fun k => { k with retrainP := true }), 0, 2, 5, by refine ⟨?_, ?_, ?_⟩ <;> decide +kernel⟩,
  ⟨at_ (live.modStk 0 fun k => { k with retrainS := true }), 0, 2, 5, by decide +kernel⟩,
  ⟨at_ { live with img := {} }, 0, by refine ⟨?_, ?_⟩ <;> decide +kernel⟩,
  ⟨at_ { live with img := {} }, .A, by refine ⟨?_, ?_, ?_⟩ <;> decide +kernel⟩,
  ⟨at_ (live.modStk 0 fun k => { k with marginBusy := true }), 0, 4, by decide +kernel⟩,
  ⟨at_ { live with dieA := { tDie with marginBusy := true } }, .A, 4, by decide +kernel⟩,
  ⟨at_ (oneWin { tWin with resident := false, promoting := true, slowHome := true } { live with img := { live.img with cfg := some { tImg with geo := { tImg.geo with slowType := [1, 1], positions := [1, 1], gib := [64, 64] } } } }), 0#19, { tWin with resident := false, promoting := true, slowHome := true }, 4, by refine ⟨?_, ?_, ?_, ?_, ?_, ?_, ?_, hubPoisonIn_none _ rfl rfl rfl ?_ _ _⟩ <;> decide +kernel⟩,
  ⟨at_ (oneWin { tWin with slowHome := true }), 0#19, { tWin with slowHome := true }, by refine ⟨?_, ?_, ?_⟩ <;> decide +kernel⟩,
  ⟨at_ (oneWin { tWin with slowHome := true, writingBack := true }), 0#19, { tWin with slowHome := true, writingBack := true }, by refine ⟨?_, ?_, ?_⟩ <;> decide +kernel⟩⟩

/-- What `AuditMessages` asks of its states and operands can be met. -/
theorem test_meets_auditMessages :
  (∃ (s : State) (st : StreamId) (num : W32) (cmd : BitVec 512) (v : Win),
    Starts s.cx st 0x33 num cmd ∧
    let c := s.cx.start st num cmd
    let f := newFlight s.cx st num cmd
    let w := f.dgWindow
    let a := c.arm (BitVec.ofNat 48 f.dgStep)
    c.dgHalts f = false ∧
    f.dgMode = 2 ∧
    a.win? w = some v ∧
    a.boundAway st v.tensor = false ∧
    a.stackBusy (winStack w) = false ∧
    a.cutOff st [w] = false) ∧
  (∃ (s : State) (st : StreamId) (num : W32) (cmd : BitVec 512) (b : List Byte),
    Starts s.cx st 0x33 num cmd ∧
    let c := s.cx.start st num cmd
    let f := newFlight s.cx st num cmd
    let g := { f with data := b, phase := 1 }
    c.dgHalts f = false ∧
    f.dgMode = 0 ∧
    f.dgCount = 0 ∧
    f.ranks = 1 ∧
    let a := c.arm (BitVec.ofNat 48 f.dgStep)
    a.listOperand st f 4 (f.arg 40 63 0) 4 = .inr b ∧
    a.fab.unreachable = [] ∧
    a.cutOff st (a.dgWindows g) = false) ∧
  (∃ (s : State) (p : Fin 13) (m : Msg),
    m.op.toNat = 0x13 ∧
    s.cx.arrived p m = true) ∧
  (∃ (s : State) (p : Fin 13) (m : Msg),
    m.op.toNat = 0x14 ∧
    s.cx.arrived p m = true) ∧
  (∃ (s : State) (p : Fin 13) (m : Msg) (v : Win),
    let w := m.fields.getD 1 0
    let off := m.fields.getD 2 0
    let n := m.fields.getD 3 0
    m.op.toNat = 0x19 ∧
    s.cx.arrived p m = true ∧
    s.cx.win? w = some v ∧
    m.fields.getD 0 0 = 0 ∧
    off + n ≤ slotBytes ∧
    s.cx.stackBusy (winStack w) = false ∧
    v.resident = true ∧
    s.cx.hubPoisonIn (s.cx.stateKey w v off) n = none) ∧
  (∃ (s : State) (p : Fin 13) (m : Msg) (r : Req),
    m.op.toNat = 0x1A ∧
    s.cx.arrived p m = true ∧
    (s.cx.consume p m).req? m.tag = some r ∧
    r.op = opRebuildFetch) ∧
  (∃ (s : State) (p : Fin 13) (m : Msg) (r : Req),
    m.op.toNat = 0x1A ∧
    s.cx.arrived p m = true ∧
    (s.cx.consume p m).req? m.tag = some r ∧
    r.op = 0x19 ∧
    r.op ≠ opRebuildFetch) ∧
  (∃ (s : State) (tag : W16) (r : Req) (f : Flight),
    s.cx.req? tag = some r ∧
    r.op ≠ opRebuildFetch ∧
    r.op ≠ 0x19 ∧
    let d := ((({ s.cx with fab := { s.cx.fab with unreachable := nput s.cx.fab.unreachable r.dest } } : Cx).dropReq
      tag).modFlight r.stream r.command fun f =>
        { f with awaits := f.awaits.filter (· != tag.toNat), worst := stFenced, result := BitVec.ofNat 64 r.dest })
    d.flight? r.stream r.command = some f) :=
  ⟨⟨next 0x33 [(32, 2 * 2 ^ 48), (48, 1)], 0#12, 0#32, cmdOf 0x33 [(32, 2 * 2 ^ 48), (48, 1)], tWin, by refine ⟨⟨?_, ?_, ?_, ?_⟩, ?_, ?_, ?_, ?_, ?_, ?_⟩ <;> decide +kernel⟩,
  ⟨next 0x33 [(40, 3 * 2 ^ 60), (48, 1)], 0#12, 0#32, cmdOf 0x33 [(40, 3 * 2 ^ 60), (48, 1)], [0#8, 0#8, 0#8, 0#8], by refine ⟨⟨?_, ?_, ?_, ?_⟩, ?_, ?_, ?_, ?_, ?_, ?_, ?_⟩ <;> decide +kernel⟩,
  ⟨gets (msg 19 2 0 0 0 [] []) live, 0, (msg 19 2 0 0 0 [] []), by refine ⟨?_, ?_⟩ <;> decide +kernel⟩,
  ⟨gets (msg 20 2 0 0 0 [] []) live, 0, (msg 20 2 0 0 0 [] []), by refine ⟨?_, ?_⟩ <;> decide +kernel⟩,
  ⟨gets (msg 25 2 0 0 0 [] [0, 0, 0, 64]) live, 0, (msg 25 2 0 0 0 [] [0, 0, 0, 64]), tWin, by refine ⟨?_, ?_, ?_, ?_, ?_, ?_, ?_, ?_⟩ <;> decide +kernel⟩,
  ⟨gets (msg 26 2 0 0 0 [] []) ({ live with fab := { live.fab with reqs := [{ tag := 3#16, dest := 0x102, op := opRebuildFetch, stream := 0#12, command := 0#32, off := 0, len := 1 }] } }), 0, (msg 26 2 0 0 0 [] []), { tag := 3#16, dest := 0x102, op := opRebuildFetch, stream := 0#12, command := 0#32, off := 0, len := 1 }, by refine ⟨?_, ?_, ?_, ?_⟩ <;> decide +kernel⟩,
  ⟨gets (msg 26 2 0 0 0 [] []) ({ live with fab := { live.fab with reqs := [{ tag := 3#16, dest := 0x102, op := 25, stream := 0#12, command := 0#32, off := 0, len := 1 }] } }), 0, (msg 26 2 0 0 0 [] []), { tag := 3#16, dest := 0x102, op := 25, stream := 0#12, command := 0#32, off := 0, len := 1 }, by refine ⟨?_, ?_, ?_, ?_, ?_⟩ <;> decide +kernel⟩,
  ⟨at_ { flying (flight 0x13 []) with fab := { live.fab with reqs := [{ tag := 3#16, dest := 0x102, op := 1, stream := 0#12, command := 0#32, off := 0, len := 1 }] } }, 3#16, { tag := 3#16, dest := 0x102, op := 1, stream := 0#12, command := 0#32, off := 0, len := 1 }, { flight 0x13 [] with worst := stFenced, result := 0x102#64 }, by refine ⟨?_, ?_, ?_, ?_⟩ <;> decide +kernel⟩⟩

/-- What `FramesTaken` asks of its states and operands can be met. -/
theorem test_meets_framesTaken :
  (∃ (s : State) (p : Fin 12) (f : Frame),
    (s.cx.fp p).st = .up ∧
    f.good = false) ∧
  (∃ (s : State) (p : Fin 12) (f : Frame),
    (s.cx.fp p).st = .up ∧
    f.good = true ∧
    f.type = 0) ∧
  (∃ (s : State) (p : Fin 12) (f : Frame),
    (s.cx.fp p).st = .up ∧
    f.good = true ∧
    (f.type = 1 ∨ f.type = 2) ∧
    let d := s.cx.takeControl p f
    (d.fp p).st = .up ∧
    f.seq = (d.fp p).rxNext) ∧
  (∃ (s : State) (p : Fin 12) (f : Frame),
    (s.cx.fp p).st = .up ∧
    f.good = true ∧
    (f.type = 1 ∨ f.type = 2) ∧
    let d := s.cx.takeControl p f
    (d.fp p).st = .up ∧
    seqCmp f.seq (d.fp p).rxNext = .older) ∧
  (∃ (s : State) (p : Fin 12) (f : Frame),
    (s.cx.fp p).st = .up ∧
    f.good = true ∧
    (f.type = 1 ∨ f.type = 2) ∧
    let d := s.cx.takeControl p f
    (d.fp p).st = .up ∧
    seqCmp f.seq (d.fp p).rxNext = .newer ∧
    (d.fp p).nakSent = false) ∧
  (∃ (s : State) (p : Fin 12) (f : Frame),
    (s.cx.fp p).st = .up ∧
    f.good = true ∧
    (f.type = 1 ∨ f.type = 2) ∧
    let d := s.cx.takeControl p f
    (d.fp p).st = .up ∧
    seqCmp f.seq (d.fp p).rxNext = .newer ∧
    (d.fp p).nakSent = true) :=
  ⟨⟨at_ live, 0, ⟨1#64, [], 0#32⟩, by refine ⟨?_, ?_⟩ <;> decide +kernel⟩,
  ⟨at_ live, 0, frameOf 0, by refine ⟨?_, ?_, ?_⟩ <;> decide +kernel⟩,
  ⟨at_ live, 0, frameOf 1, by refine ⟨?_, ?_, ?_, ?_, ?_⟩ <;> decide +kernel⟩,
  ⟨at_ live, 0, frameOf (1 + 0xFFF * 64), by refine ⟨?_, ?_, ?_, ?_, ?_⟩ <;> decide +kernel⟩,
  ⟨at_ live, 0, frameOf (2 + 5 * 64), by refine ⟨?_, ?_, ?_, ?_, ?_, ?_⟩ <;> decide +kernel⟩,
  ⟨at_ (port0 fun q => { q with nakSent := true }), 0, frameOf (1 + 2047 * 64), by refine ⟨?_, ?_, ?_, ?_, ?_, ?_⟩ <;> decide +kernel⟩⟩

/-- What `AcksAndCredits` asks of its states and operands can be met. -/
theorem test_meets_acksAndCredits :
  (∃ (c : Cx) (p : Nat) (f : Frame),
    f.ackValid = true ∧
    newerEq f.ack (c.fp p).nextSeq = false ∧
    ((∀ a, (c.fp p).newestAck = some a → seqCmp f.ack a ≠ .older))) ∧
  (∃ (c : Cx) (p : Nat) (f : Frame),
    p < 12 ∧
    f.ackValid = true ∧
    newerEq f.ack (c.fp p).nextSeq = true ∧
    (c.fp p).st = .up) ∧
  (∃ (c : Cx) (p : Nat) (f : Frame),
    f.ackValid = false) ∧
  (∃ (c : Cx) (p : Nat) (f : Frame),
    (c.fp p).avail.length = 4 ∧
    (c.fp p).lastTotal.length = 4) ∧
  (∃ (c : Cx) (p : Nat) (f : Frame) (v : _),
    (c.fp p).avail.length = 4 ∧
    (c.fp p).lastTotal.length = 4 ∧
    v ≠ f.creditVc) ∧
  (∃ (c : Cx) (p q : Nat) (f : Frame),
    q ≠ p) :=
  ⟨⟨port0 fun q => { q with nextSeq := 5#12 }, 0, frameOf (2 ^ 30 + 4 * 2 ^ 18), by refine ⟨?_, ?_, ?_⟩ <;> decide +kernel⟩,
  ⟨live, 0, frameOf (2 ^ 30 + 4 * 2 ^ 18), by refine ⟨?_, ?_, ?_, ?_⟩ <;> decide +kernel⟩,
  ⟨live, 0, frameOf 0, by decide +kernel⟩,
  ⟨live, 0, frameOf (255 * 2 ^ 40), by refine ⟨?_, ?_⟩ <;> decide +kernel⟩,
  ⟨live, 0, frameOf (3 * 2 ^ 38), 0, by refine ⟨?_, ?_, ?_⟩ <;> decide +kernel⟩,
  ⟨live, 0, 1, frameOf 0, by decide +kernel⟩⟩

/-- What `LinkTimersAndResets` asks of its states and operands can be met. -/
theorem test_meets_linkTimersAndResets :
  (∃ (s : State) (p : Fin 12),
    let q := s.cx.fp p
    q.st = .up ∧
    (q.ackPending = true ∨ q.nakPending = true ∨ q.totals ≠ q.reported)) ∧
  (∃ (s : State) (p : Fin 12),
    let q := s.cx.fp p
    q.st = .up ∧
    q.replay ≠ []) ∧
  (∃ (s : State) (p : Fin 12) (f : Frame),
    (s.cx.fp p).st = .up ∧
    f.good = true ∧
    f.type = 9) ∧
  (∃ (s : State) (p : Fin 12) (f : Frame),
    (s.cx.fp p).st = .up) ∧
  (∃ (s : State) (p : Fin 12) (f : Frame) (n : _),
    (s.cx.fp p).st = .up ∧
    1000 < n) ∧
  (∃ (s : State) (p : Fin 12) (n : Nat),
    n ≤ 1000) ∧
  (∃ (s : State) (p : Fin 12),
    (s.cx.fp p).departing = true) ∧
  (∃ (s : State) (p : Fin 13) (m : Msg),
    m.op.toNat = 0x2A ∧
    s.cx.arrived p m = true) :=
  ⟨⟨at_ (port0 fun q => { q with ackPending := true }), 0, by refine ⟨?_, ?_⟩ <;> decide +kernel⟩,
  ⟨at_ (port0 fun q => { q with replay := [⟨0#12, 0#12, 0, msg 1 0 0 0 0 [] [], 0⟩] }), 0, by refine ⟨?_, ?_⟩ <;> decide +kernel⟩,
  ⟨at_ live, 0, frameOf 9, by refine ⟨?_, ?_, ?_⟩ <;> decide +kernel⟩,
  ⟨at_ live, 0, frameOf 9, by decide +kernel⟩,
  ⟨at_ live, 0, frameOf 9, 1001, by refine ⟨?_, ?_⟩ <;> decide +kernel⟩,
  ⟨at_ live, 0, 1000, by decide +kernel⟩,
  ⟨at_ (port0 fun q => { q with departing := true }), 0, by decide +kernel⟩,
  ⟨gets (msg 42 3 0 0 0 [] []) live, 0, (msg 42 3 0 0 0 [] []), by refine ⟨?_, ?_⟩ <;> decide +kernel⟩⟩

/-- What `LinkTraining` asks of its states and operands can be met. -/
theorem test_meets_linkTraining :
  (∃ (s : State) (p : Fin 12) (l : LaneForm),
    ((s.cx.fp p).st = .training ∨ (s.cx.fp p).st = .reset) ∧
    (s.cx.fp p).bootstrap = true ∧
    (((s.cx.fp p).force4 = true → l.width4 = true)) ∧
    (((s.cx.fp p).force56 = true → l.speed56 = true))) ∧
  (∃ (s : State) (p : Fin 12) (l : LaneForm),
    ((s.cx.fp p).st = .training ∨ (s.cx.fp p).st = .reset)) ∧
  (∃ (s : State) (p : Fin 12) (l : LaneForm),
    ((s.cx.fp p).st = .training ∨ (s.cx.fp p).st = .reset) ∧
    (s.cx.fp p).force4 = true ∧
    l.width4 = false) ∧
  (∃ (s : State) (p : Fin 12),
    (s.cx.fp p).st = .hello) ∧
  (∃ (s : State) (p : Fin 12) (f : Frame),
    f.good = true ∧
    (s.cx.fp p).st = .hello ∧
    f.type = 8 ∧
    let q := s.cx.fp p
    let v := leNat f.payload
    let g := fun o n => v / 256 ^ o % 256 ^ n
    q.bootstrap = true ∧
    g 13 1 = 3 ∧
    bit (g 15 1) 2 = true) ∧
  (∃ (s : State) (p : Fin 12) (f : Frame),
    f.good = true ∧
    (s.cx.fp p).st = .hello ∧
    f.type = 8 ∧
    let q := s.cx.fp p
    let v := leNat f.payload
    let g := fun o n => v / 256 ^ o % 256 ^ n
    q.bootstrap = true ∧
    g 13 1 = 3 ∧
    bit (g 15 1) 2 = false) ∧
  (∃ (s : State) (p : Fin 12),
    (s.cx.fp p).resetting ≠ 0 ∧
    (s.cx.fp p).st = .reset ∧
    s.cx.img.push = none ∧
    let q := s.cx.fp p
    q.heldMsgs = []) ∧
  (∃ (s : State) (p : Fin 12) (n : _),
    (s.cx.fp p).resetting ≠ 0 ∧
    (s.cx.fp p).st = .reset ∧
    s.cx.img.push = none ∧
    let q := s.cx.fp p
    q.heldMsgs ≠ [] ∧
    q.partnerNode = some n) :=
  ⟨⟨at_ (port0 fun q => { q with st := .training, bootstrap := true }), 0, ⟨false, true⟩, by refine ⟨?_, ?_, ?_, ?_⟩ <;> decide +kernel⟩,
  ⟨at_ (port0 fun q => { q with st := .reset }), 0, ⟨true, true⟩, by decide +kernel⟩,
  ⟨at_ (port0 fun q => { q with st := .training, force4 := true }), 0, ⟨false, true⟩, by refine ⟨?_, ?_, ?_⟩ <;> decide +kernel⟩,
  ⟨at_ (port0 fun q => { q with st := .hello }), 0, by decide +kernel⟩,
  ⟨at_ (port0 fun q => { q with st := .hello, bootstrap := true }), 0, frameOf (8 + 2 * 2 ^ 32) (([0, 0, 0, 0, 0, 0, 0, 0, 0, 0, 0, 0, 0, 3, 1, 4] : List Nat).map (BitVec.ofNat 8)), by refine ⟨?_, ?_, ?_, ?_, ?_, ?_⟩ <;> decide +kernel⟩,
  ⟨at_ (port0 fun q => { q with st := .hello, bootstrap := true }), 0, frameOf (8 + 2 * 2 ^ 32) (([0, 0, 0, 0, 0, 0, 0, 0, 0, 0, 0, 0, 0, 3, 1, 0] : List Nat).map (BitVec.ofNat 8)), by refine ⟨?_, ?_, ?_, ?_, ?_, ?_⟩ <;> decide +kernel⟩,
  ⟨at_ (port0 fun q => { q with st := .reset, resetting := 2 }), 0, by refine ⟨?_, ?_, ?_, ?_⟩ <;> decide +kernel⟩,
  ⟨at_ (port0 fun q => { q with st := .reset, resetting := 2, replay := [⟨0#12, 0#12, 0, msg 1 0 0 0 0 [] [], 0⟩], partnerNode := some 0x102#17 }), 0, 0x102#17, by refine ⟨?_, ?_, ?_, ?_, ?_⟩ <;> decide +kernel⟩⟩

/-- What `SalvageAnswers` asks of its states and operands can be met. -/
theorem test_meets_salvageAnswers :
  (∃ (s : State) (p : Fin 13) (m : Msg),
    m.op.toNat = 0x27 ∧
    s.cx.arrived p m = true ∧
    m.fields.getD 0 0 = 0 ∧
    let c := s.cx.consume p m
    let port := m.fields.getD 1 0 % 12
    c.coreUp (portDie port) = true) ∧
  (∃ (s : State) (p : Fin 13) (m : Msg),
    m.op.toNat = 0x27 ∧
    s.cx.arrived p m = true ∧
    m.fields.getD 0 0 = 0 ∧
    let c := s.cx.consume p m
    let port := m.fields.getD 1 0 % 12
    c.coreUp (portDie port) = false) ∧
  (∃ (q : FabPort),
    q.parts = []) ∧
  (∃ (q : FabPort) (v : Nat) (x : RxPart),
    q.parts = [(v, x)] ∧
    newer q.rxNext x.seq = true) ∧
  (∃ (s : State) (p : Fin 13) (m : Msg),
    m.op.toNat = 0x27 ∧
    s.cx.arrived p m = true ∧
    m.fields.getD 0 0 = 1 ∧
    let c := s.cx.consume p m
    let port := m.fields.getD 1 0 % 12
    let q := c.fp port
    let again := (q.salvage.filter fun x => newerEq x.1 (BitVec.ofNat 12 (m.fields.getD 2 0))).map (·.2)
    q.salvaging = true ∧
    (again.all fun x => !x.linkLocal) = true) ∧
  (∃ (s : State) (p : Fin 12),
    (s.cx.fp p).salvaging = true) :=
  ⟨⟨gets (msg 39 3 0 0 0 [] [0, 5]) live, 0, (msg 39 3 0 0 0 [] [0, 5]), by refine ⟨?_, ?_, ?_, ?_⟩ <;> decide +kernel⟩,
  ⟨gets (msg 39 3 0 0 0 [] [0, 6]) ({ live with dieB := {} }), 0, (msg 39 3 0 0 0 [] [0, 6]), by refine ⟨?_, ?_, ?_, ?_⟩ <;> decide +kernel⟩,
  ⟨{}, by decide +kernel⟩,
  ⟨{ parts := [(0, ⟨1#12, 0#256, [], 1⟩)], rxNext := 3#12 }, 0, ⟨1#12, 0#256, [], 1⟩, by refine ⟨?_, ?_⟩ <;> decide +kernel⟩,
  ⟨gets (msg 39 3 0 0 0 [] [1, 0]) ((port0 fun q => { q with salvaging := true, salvage := [(3#12, msg 1 0 0 0 0 [] [])] })), 0, (msg 39 3 0 0 0 [] [1, 0]), by refine ⟨?_, ?_, ?_, ?_, ?_⟩ <;> decide +kernel⟩,
  ⟨at_ (port0 fun q => { q with salvaging := true }), 0, by decide +kernel⟩⟩

/-- What `ElectionRuns` asks of its states and operands can be met. -/
theorem test_meets_electionRuns :
  (∃ (s : State) (p : Fin 13) (m : Msg),
    m.op.toNat = 0x20 ∧
    s.cx.arrived p m = true ∧
    let c := s.cx.consume p m
    let k := (m.fields.getD 0 0, m.fields.getD 1 0)
    let dist := m.fields.getD 2 0
    c.fab.st ≠ 0 ∧
    c.betterElect p k dist = true) ∧
  (∃ (s : State) (k : Nat × Nat),
    s.cx.fab.best = some k ∧
    s.cx.fab.st = 1 ∧
    s.cx.offer = some k) ∧
  (∃ (s : State) (k : Nat × Nat),
    s.cx.fab.best = some k ∧
    s.cx.fab.st = 1 ∧
    s.cx.offer ≠ some k) ∧
  (∃ (s : State),
    s.cx.fab.root = true) ∧
  (∃ (s : State) (p : Fin 13) (m : Msg),
    m.op.toNat = 0x25 ∧
    s.cx.arrived p m = true ∧
    let c := s.cx.consume p m
    c.fab.st ≠ 0 ∧
    c.fab.root = false ∧
    c.fab.parent = p) ∧
  (∃ (s : State) (p : Fin 13) (m : Msg),
    m.op.toNat = 0x21 ∧
    s.cx.arrived p m = true ∧
    let c := s.cx.consume p m
    c.fab.st = 2 ∧
    c.fab.root = true) ∧
  (∃ (s : State) (p : Fin 13) (m : Msg),
    m.op.toNat = 0x21 ∧
    s.cx.arrived p m = true ∧
    let c := s.cx.consume p m
    c.fab.st ≠ 0 ∧
    c.fab.root = false) ∧
  (∃ (s : State) (p : Fin 13) (m : Msg),
    m.op.toNat = 0x26 ∧
    s.cx.arrived p m = true ∧
    let c := s.cx.consume p m
    c.fab.st ≠ 0 ∧
    c.fab.root = true) ∧
  (∃ (s : State) (p : Fin 13) (m : Msg),
    m.op.toNat = 0x26 ∧
    s.cx.arrived p m = true ∧
    let c := s.cx.consume p m
    c.fab.st ≠ 0 ∧
    c.fab.root = false) ∧
  (∃ (s : State),
    s.cx.fab.st ≠ 0 ∧
    s.cx.fab.root = false) :=
  ⟨⟨gets (msg 32 3 0 0 0 [] [1, 5, 0]) ({ live with fab := { live.fab with st := 1 } }), 0, (msg 32 3 0 0 0 [] [1, 5, 0]), by refine ⟨?_, ?_, ?_, ?_⟩ <;> decide +kernel⟩,
  ⟨at_ { live with fab := { live.fab with st := 1, best := some (1, 9) }, img := { live.img with cfg := some { tImg with fabric := { role := 2 } } } }, (1, 9), by refine ⟨?_, ?_, ?_⟩ <;> decide +kernel⟩,
  ⟨at_ { live with fab := { live.fab with st := 1, best := some (0, 5) }, img := { live.img with cfg := some { tImg with fabric := { role := 2 } } } }, (0, 5), by refine ⟨?_, ?_, ?_⟩ <;> decide +kernel⟩,
  ⟨at_ { live with fab := { live.fab with root := true } }, by decide +kernel⟩,
  ⟨gets (msg 37 3 0 0 0 [] [0]) live, 0, (msg 37 3 0 0 0 [] [0]), by refine ⟨?_, ?_, ?_, ?_, ?_⟩ <;> decide +kernel⟩,
  ⟨gets (msg 33 3 0 0 0 [] []) ({ live with fab := { live.fab with st := 2, root := true } }), 0, (msg 33 3 0 0 0 [] []), by refine ⟨?_, ?_, ?_, ?_⟩ <;> decide +kernel⟩,
  ⟨gets (msg 33 3 0 0 0 [] []) ({ live with fab := { live.fab with st := 2 } }), 0, (msg 33 3 0 0 0 [] []), by refine ⟨?_, ?_, ?_, ?_⟩ <;> decide +kernel⟩,
  ⟨gets (msg 38 3 0 0 0 [] []) ({ live with fab := { live.fab with root := true } }), 0, (msg 38 3 0 0 0 [] []), by refine ⟨?_, ?_, ?_, ?_⟩ <;> decide +kernel⟩,
  ⟨gets (msg 38 3 0 0 0 [] []) live, 0, (msg 38 3 0 0 0 [] []), by refine ⟨?_, ?_, ?_, ?_⟩ <;> decide +kernel⟩,
  ⟨at_ live, by refine ⟨?_, ?_⟩ <;> decide +kernel⟩⟩

/-- What `TablesInstalled` asks of its states and operands can be met. -/
theorem test_meets_tablesInstalled :
  (∃ (s : State),
    s.cx.fab.root = true ∧
    s.cx.fab.st = 2) ∧
  (∃ (s : State) (p : Fin 13) (m : Msg),
    m.op.toNat = 0x22 ∧
    s.cx.arrived p m = true ∧
    let c := s.cx.consume p m
    c.fab.st ≠ 0 ∧
    m.fields.getD 0 0 = c.fab.uid.toNat) ∧
  (∃ (s : State) (p : Fin 13) (m : Msg),
    m.op.toNat = 0x23 ∧
    s.cx.arrived p m = true ∧
    let c := s.cx.consume p m
    c.fab.st ≠ 0 ∧
    m.fields.getD 0 0 = c.fab.uid.toNat ∧
    m.fields.getD 2 0 = 0) ∧
  (∃ (s : State) (p : Fin 13) (m : Msg),
    m.op.toNat = 0x23 ∧
    s.cx.arrived p m = true ∧
    let c := s.cx.consume p m
    c.fab.st ≠ 0 ∧
    m.fields.getD 0 0 = c.fab.uid.toNat ∧
    m.fields.getD 2 0 ≠ 0) ∧
  (∃ (c : Cx) (t : NewTables),
    t.assigned = true ∧
    t.parts.contains 0 = true ∧
    t.parts.contains 1 = true) ∧
  (∃ (s : State) (p : Fin 13) (m : Msg),
    m.op.toNat = 0x24 ∧
    s.cx.arrived p m = true ∧
    let c := s.cx.consume p m
    c.fab.root = true ∧
    c.fab.st = 3 ∧
    m.fields.getD 1 0 = c.fab.nextEpoch.toNat) :=
  ⟨⟨at_ { live with fab := { live.fab with root := true, st := 2 } }, by refine ⟨?_, ?_⟩ <;> decide +kernel⟩,
  ⟨gets (msg 34 3 0 0 0 [] [9]) live, 0, (msg 34 3 0 0 0 [] [9]), by refine ⟨?_, ?_, ?_, ?_⟩ <;> decide +kernel⟩,
  ⟨gets (msg 35 3 0 0 0 [] [9, 1, 0]) live, 0, (msg 35 3 0 0 0 [] [9, 1, 0]), by refine ⟨?_, ?_, ?_, ?_, ?_⟩ <;> decide +kernel⟩,
  ⟨gets (msg 35 3 0 0 0 [] [9, 1, 1]) live, 0, (msg 35 3 0 0 0 [] [9, 1, 1]), by refine ⟨?_, ?_, ?_, ?_, ?_⟩ <;> decide +kernel⟩,
  ⟨live, { epoch := 1#32, assigned := true, parts := [0, 1] }, by refine ⟨?_, ?_, ?_⟩ <;> decide +kernel⟩,
  ⟨gets (msg 36 3 0 0 0 [] [0, 7]) ({ live with fab := { live.fab with root := true, st := 3, nextEpoch := 7#32 } }), 0, (msg 36 3 0 0 0 [] [0, 7]), by refine ⟨?_, ?_, ?_, ?_, ?_⟩ <;> decide +kernel⟩⟩

/-- What `ImagePushRuns` asks of its states and operands can be met. -/
theorem test_meets_imagePushRuns :
  (∃ (s : State) (p : Fin 12),
    (s.cx.fp p).st = .up ∧
    (s.cx.fp p).pushing = none ∧
    [0, 2, 3, 4].contains (bits (pushAddr s.cx p) 63 60) = true ∧
    0 < pushLen s.cx p ∧
    s.cx.checkRange .read (pushAddr s.cx p) (pushLen s.cx p) = none ∧
    s.cx.away? (portDie p) (pushAddr s.cx p) = none ∧
    s.cx.poisonIn (pushAddr s.cx p) (pushLen s.cx p) = none) ∧
  (∃ (s : State) (p : Fin 13) (m : Msg) (off len : Nat),
    m.op.toNat = 0x29 ∧
    s.cx.arrived p m = true ∧
    let c := s.cx.consume p m
    (c.fp p).pushing = some (off, len) ∧
    m.fields.getD 0 0 = stOk ∧
    off + 4096 < len) ∧
  (∃ (s : State) (p : Fin 13) (m : Msg) (off len : Nat),
    m.op.toNat = 0x29 ∧
    s.cx.arrived p m = true ∧
    let c := s.cx.consume p m
    (c.fp p).pushing = some (off, len) ∧
    m.fields.getD 0 0 = stOk ∧
    len ≤ off + 4096) ∧
  (∃ (s : State) (p : Fin 13) (m : Msg) (off len : Nat),
    m.op.toNat = 0x29 ∧
    s.cx.arrived p m = true ∧
    let c := s.cx.consume p m
    (c.fp p).pushing = some (off, len) ∧
    m.fields.getD 0 0 ≠ stOk) ∧
  (∃ (s : State) (p : Fin 13) (m : Msg),
    m.op.toNat = 0x28 ∧
    s.cx.arrived p m = true ∧
    0x4000000 < m.arg.toNat) ∧
  (∃ (s : State) (p : Fin 13) (m : Msg),
    m.op.toNat = 0x28 ∧
    s.cx.arrived p m = true ∧
    let c := s.cx.consume p m
    0 < m.arg.toNat ∧
    m.arg.toNat ≤ 0x4000000 ∧
    m.addr.toNat + m.data.length < m.arg.toNat ∧
    c.img.st = .empty ∧
    (c.die .A).imgAccept = true ∧
    c.img.push = none) ∧
  (∃ (s : State) (m : Fin 64) (minor : Byte),
    (s.cx.die (moduleDie m)).shell = true ∧
    kget? s.cx.modules m.val = none ∧
    s.cx.img.cfg = none) :=
  ⟨⟨at_ { live with regs := [(fabOff 0 0x84, 0x40000000#32), (fabOff 0 0x88, 64#32)] }, 0, by refine ⟨?_, ?_, ?_, ?_, ?_, ?_, ?_⟩ <;> decide +kernel⟩,
  ⟨gets (msg 41 2 0 0 0 [] [0]) (port0 fun q => { q with pushing := some (0, 8192) }), 0, (msg 41 2 0 0 0 [] [0]), 0, 8192, by refine ⟨?_, ?_, ?_, ?_, ?_⟩ <;> decide +kernel⟩,
  ⟨gets (msg 41 2 0 0 0 [] [0]) (port0 fun q => { q with pushing := some (0, 4096) }), 0, (msg 41 2 0 0 0 [] [0]), 0, 4096, by refine ⟨?_, ?_, ?_, ?_, ?_⟩ <;> decide +kernel⟩,
  ⟨gets (msg 41 2 0 0 0 [] [1]) (port0 fun q => { q with pushing := some (0, 4096) }), 0, (msg 41 2 0 0 0 [] [1]), 0, 4096, by refine ⟨?_, ?_, ?_, ?_⟩ <;> decide +kernel⟩,
  ⟨gets (msg 40 2 0 0x4000001 64 (List.replicate 64 1#8) []) live, 0, (msg 40 2 0 0x4000001 64 (List.replicate 64 1#8) []), by refine ⟨?_, ?_, ?_⟩ <;> decide +kernel⟩,
  ⟨gets (msg 40 2 0 128 64 (List.replicate 64 1#8) []) ({ live with img := {}, dieA := { tDie with imgAccept := true } }), 0, (msg 40 2 0 128 64 (List.replicate 64 1#8) []), by refine ⟨?_, ?_, ?_, ?_, ?_, ?_, ?_, ?_⟩ <;> decide +kernel⟩,
  ⟨at_ { live with modules := [], img := {} }, 0, 2#8, by refine ⟨?_, ?_, ?_⟩ <;> decide +kernel⟩⟩

/-- What `TwinSuspected` asks of its states and operands can be met. -/
theorem test_meets_twinSuspected :
  (∃ (s : State) (d : Side),
    s.cx.bridge = true ∧
    s.cx.coreUp d = true ∧
    (s.cx.die d).power = .run) ∧
  (∃ (s : State) (d : Side),
    s.cx.canSuspect d = true) ∧
  (∃ (s : State) (d : Side),
    s.cx.canSuspect d = true ∧
    (s.cx.die d.twin).coreAlive = false) ∧
  (∃ (s : State) (d : Side),
    let c := s.cx.modDie d fun k => { k with lastBeat := false }
    c.canSuspect d = true ∧
    (s.cx.die d).power = .run ∧
    (s.cx.die d.twin).coreAlive = false) ∧
  (∃ (s : State) (d : Side),
    let c := s.cx.modDie d fun k => { k with lastBeat := false }
    c.canSuspect d = true ∧
    (s.cx.die d).power = .run ∧
    (s.cx.die d.twin).coreAlive = true ∧
    s.cx.bridge = true ∧
    (s.cx.die d.twin).power = .run ∧
    s.cx.coreUp d.twin = true) ∧
  (∃ (s : State) (d : Side),
    s.cx.coreUp d = true ∧
    (s.cx.die d).power = .run) ∧
  (∃ (s : State) (d : Side),
    s.cx.coreUp d = true) ∧
  (∃ (s : State) (d : Side),
    (s.cx.die d.twin).fenceLine = true ∧
    (s.cx.die d).aon = true ∧
    (s.cx.die d).shell = true ∧
    (s.cx.die d).fenced = false) ∧
  (∃ (s : State) (d : Side),
    (s.cx.die d).fenceLine = true ∧
    s.cx.coreUp d = true) :=
  ⟨⟨at_ live, .A, by refine ⟨?_, ?_, ?_⟩ <;> decide +kernel⟩,
  ⟨at_ live, .A, by decide +kernel⟩,
  ⟨at_ { live with dieB := { tDie with coreAlive := false } }, .A, by refine ⟨?_, ?_⟩ <;> decide +kernel⟩,
  ⟨at_ { live with dieB := { tDie with coreAlive := false } }, .A, by refine ⟨?_, ?_, ?_⟩ <;> decide +kernel⟩,
  ⟨at_ live, .A, by refine ⟨?_, ?_, ?_, ?_, ?_, ?_⟩ <;> decide +kernel⟩,
  ⟨at_ live, .A, by refine ⟨?_, ?_⟩ <;> decide +kernel⟩,
  ⟨at_ live, .A, by decide +kernel⟩,
  ⟨at_ { live with dieB := { tDie with fenceLine := true } }, .A, by refine ⟨?_, ?_, ?_, ?_⟩ <;> decide +kernel⟩,
  ⟨at_ { live with dieA := { tDie with fenceLine := true } }, .A, by refine ⟨?_, ?_⟩ <;> decide +kernel⟩⟩

/-- What `TwinTakesOver` asks of its states and operands can be met. -/
theorem test_meets_twinTakesOver :
  (∃ (s : State) (stk : Fin 20) (quiet : Bool),
    let f := homeDie stk
    let d := f.twin
    (s.cx.die d).twinSt = .failover ∧
    s.cx.owner stk = f ∧
    (s.cx.stk stk).refusedOwner = false ∧
    ((s.cx.die d).fenceAnswered = true ∨ quiet = true) ∧
    2 ≤ (s.cx.stk stk).standby) ∧
  (∃ (s : State) (stk : Fin 20) (quiet : Bool),
    let f := homeDie stk
    let d := f.twin
    (s.cx.die d).twinSt = .failover ∧
    s.cx.owner stk = f ∧
    (s.cx.stk stk).refusedOwner = false ∧
    (((s.cx.die d).fenceAnswered = false ∧ quiet = false) ∨ (s.cx.stk stk).standby < 2)) ∧
  (∃ (s : State) (d : Side),
    (s.cx.die d).twinSt = .failover ∧
    s.cx.coreUp d = true) ∧
  (∃ (s : State) (d : Side),
    (s.cx.die d).twinSt = .solo ∧
    s.cx.coreUp d = true) ∧
  (∃ (s : State) (d : Side),
    ((s.cx.die d).twinSt = .solo ∨ (s.cx.die d).twinSt = .rejoining) ∧
    s.cx.coreUp d = true) ∧
  (∃ (s : State),
    s.cx.bridge = false ∧
    s.cx.coreUp .A = true ∧
    s.cx.coreUp .B = true) ∧
  (∃ (s : State) (d : Side),
    s.cx.coreUp d = true) ∧
  (∃ (s : State) (d : Side) (key : Byte),
    key ≠ 0xC5#8) :=
  ⟨⟨at_ { live with dieB := { tDie with twinSt := .failover } }, 0, true, by refine ⟨?_, ?_, ?_, ?_, ?_⟩ <;> decide +kernel⟩,
  ⟨at_ { live with dieB := { tDie with twinSt := .failover } }, 9, false, by refine ⟨?_, ?_, ?_, ?_⟩ <;> decide +kernel⟩,
  ⟨at_ { live with dieA := { tDie with twinSt := .failover } }, .A, by refine ⟨?_, ?_⟩ <;> decide +kernel⟩,
  ⟨at_ { live with dieA := { tDie with twinSt := .solo } }, .A, by refine ⟨?_, ?_⟩ <;> decide +kernel⟩,
  ⟨at_ { live with dieA := { tDie with twinSt := .rejoining } }, .A, by refine ⟨?_, ?_⟩ <;> decide +kernel⟩,
  ⟨at_ { live with bridge := false }, by refine ⟨?_, ?_, ?_⟩ <;> decide +kernel⟩,
  ⟨at_ live, .A, by decide +kernel⟩,
  ⟨at_ live, .A, 0#8, by decide +kernel⟩⟩

/-- What `JournalWritten` asks of its states and operands can be met. -/
theorem test_meets_journalWritten :
  (∃ (s : State) (i : Nat) (e : JEntry),
    s.cx.enabled = true ∧
    s.cx.coreUp s.cx.master = true ∧
    s.cx.journal.entries.length < journalSize ∧
    s.cx.journal.queue.findIdx? s.cx.canReach = some i ∧
    s.cx.journal.queue[i]? = some e ∧
    let j := s.cx.journal
    let c := ({ s.cx with journal := { j with queue := j.queue.eraseIdx i, seq := j.seq + 1#64
                                              entries := j.entries ++ [{ e with seq := j.seq + 1#64, written := true }] } } : Cx)
    c.alone = false) ∧
  (∃ (s : State) (i : Nat) (e : JEntry),
    s.cx.enabled = true ∧
    s.cx.coreUp s.cx.master = true ∧
    s.cx.journal.entries.length < journalSize ∧
    s.cx.journal.queue.findIdx? s.cx.canReach = some i ∧
    s.cx.journal.queue[i]? = some e ∧
    let j := s.cx.journal
    let c := ({ s.cx with journal := { j with queue := j.queue.eraseIdx i, seq := j.seq + 1#64
                                              entries := j.entries ++ [{ e with seq := j.seq + 1#64, written := true }] } } : Cx)
    c.alone = true) ∧
  (∃ (s : State) (e : JEntry),
    s.cx.alone = false ∧
    (s.cx.journal.entries.find? fun e => !e.acked) = some e) ∧
  (∃ (s : State),
    s.cx.alone = true) :=
  ⟨⟨at_ { live with journal := { queue := [{ from_ := .A, body := .sync 3 1#64 }] } }, 0, { from_ := .A, body := .sync 3 1#64 }, by refine ⟨?_, ?_, ?_, ?_, ?_, ?_⟩ <;> decide +kernel⟩,
  ⟨at_ { live with bridge := false, journal := { queue := [{ from_ := .A, body := .sync 3 1#64 }] } }, 0, { from_ := .A, body := .sync 3 1#64 }, by refine ⟨?_, ?_, ?_, ?_, ?_, ?_⟩ <;> decide +kernel⟩,
  ⟨at_ { live with journal := { entries := [{ from_ := .A, body := .sync 3 1#64, written := true }] } }, { from_ := .A, body := .sync 3 1#64, written := true }, by refine ⟨?_, ?_⟩ <;> decide +kernel⟩,
  ⟨at_ { live with bridge := false }, by decide +kernel⟩⟩

/-- What `PowerStatesChange` asks of its states and operands can be met. -/
theorem test_meets_powerStatesChange :
  (∃ (s : State) (d : Side),
    (s.cx.die d).dewPending = true) ∧
  (∃ (s : State) (d : Side),
    (s.cx.die d).aon = true ∧
    (s.cx.die d).dewPending = false ∧
    let t := bits (s.cx.reg (pwrBase d + 4)).toNat 1 0
    t = 1 ∧
    (s.cx.die d).power = .run ∧
    s.cx.idle d = true) ∧
  (∃ (s : State) (d : Side),
    (s.cx.die d).aon = true ∧
    (s.cx.die d).dewPending = false ∧
    let t := bits (s.cx.reg (pwrBase d + 4)).toNat 1 0
    t = 1 ∧
    (s.cx.die d).power = .run ∧
    s.cx.idle d = false) ∧
  (∃ (s : State) (d : Side),
    (s.cx.die d).aon = true ∧
    (s.cx.die d).dewPending = false ∧
    let t := bits (s.cx.reg (pwrBase d + 4)).toNat 1 0
    t = 2) ∧
  (∃ (s : State) (d : Side),
    (s.cx.die d).power = .run ∧
    s.cx.coreUp d = true ∧
    s.cx.idle d = true ∧
    ((s.cx.die d).dewPending = true ∨ (s.cx.enabled = true ∧ s.cx.powerRec.dewIdleUs ≠ 0))) ∧
  (∃ (s : State) (d : Side) (cause : BitVec 4),
    (s.cx.die d).power = .dew) ∧
  (∃ (s : State) (d : Side) (us : W16),
    (s.cx.die d).power = .thaw ∧
    (s.cx.die d).core = true) ∧
  (∃ (s : State) (tile a b : Nat) (l : List Nat),
    l.length = 20) ∧
  (∃ (s : State),
    let p := s.cx.powerRec
    let x := Config.projected s.cx.gov.samples
    4 * (p.tileCap - 60) ≤ x ∧
    x ≤ 4 * (p.tileCap - 40)) ∧
  (∃ (s : State) (d : Side) (t : Byte),
    105 ≤ t.toInt ∧
    t.toInt < 113 ∧
    (s.cx.die d).thermal = false) :=
  ⟨⟨at_ { live with dieA := { tDie with dewPending := true } }, .A, by decide +kernel⟩,
  ⟨at_ { live with regs := [(pwrBase .A + 4, 1#32)] }, .A, by refine ⟨?_, ?_, ?_, ?_, ?_⟩ <;> decide +kernel⟩,
  ⟨at_ { flying (flight 0 []) with regs := [(pwrBase .A + 4, 1#32)] }, .A, by refine ⟨?_, ?_, ?_, ?_, ?_⟩ <;> decide +kernel⟩,
  ⟨at_ { live with regs := [(pwrBase .A + 4, 2#32)] }, .A, by refine ⟨?_, ?_, ?_⟩ <;> decide +kernel⟩,
  ⟨at_ { live with dieA := { tDie with dewPending := true } }, .A, by refine ⟨?_, ?_, ?_, ?_⟩ <;> decide +kernel⟩,
  ⟨at_ { live with dieA := { tDie with power := .dew } }, .A, 2#4, by decide +kernel⟩,
  ⟨at_ { live with dieA := { tDie with power := .thaw } }, .A, 10#16, by refine ⟨?_, ?_⟩ <;> decide +kernel⟩,
  ⟨at_ live, 100, 30, 30, List.replicate 20 30, by decide +kernel⟩,
  ⟨at_ { live with img := { live.img with cfg := some { tImg with power := { tileCap := Config.projected [] / 4 + 50 } } } }, ⟨show 4 * (Config.projected [] / 4 + 50 - 60) ≤ Config.projected [] by omega, show Config.projected [] ≤ 4 * (Config.projected [] / 4 + 50 - 40) by omega⟩⟩,
  ⟨at_ live, .A, 105#8, by refine ⟨?_, ?_, ?_⟩ <;> decide +kernel⟩⟩

/-- What `SuppliesDip` asks of its states and operands can be met. -/
theorem test_meets_suppliesDip :
  (∃ (s : State) (d : Side) (rail mv : Nat),
    (s.cx.die d).aon = true ∧
    (s.cx.die d).hold = none ∧
    rail ≤ 10) ∧
  (∃ (s : State) (d : Side) (rail us : Nat),
    (s.cx.die d).below.contains rail = true) ∧
  (∃ (s : State) (d : Side) (h : Hold),
    (s.cx.die d).hold = some h ∧
    (s.cx.die d).below = []) ∧
  (∃ (s : State) (d : Side) (h : Hold),
    (s.cx.die d).hold = some h ∧
    (s.cx.die d).below ≠ []) ∧
  (∃ (s : State) (d : Side),
    (s.cx.die d).below = []) ∧
  (∃ (s : State) (d : Side) (rail mv : Nat),
    (s.cx.die d).aon = true) ∧
  (∃ (s : State) (d : Side),
    (s.cx.die d).pwrReq = true ∧
    (s.cx.die d).power ≠ .frost) :=
  ⟨⟨at_ live, .A, 10, 700, by refine ⟨?_, ?_, ?_⟩ <;> decide +kernel⟩,
  ⟨at_ { live with dieA := { tDie with below := [3], hold := some ⟨3, 700, 1, 0⟩ } }, .A, 3, 9, by decide +kernel⟩,
  ⟨at_ { live with dieA := { tDie with hold := some ⟨3, 700, 1, 0⟩ } }, .A, ⟨3, 700, 1, 0⟩, by refine ⟨?_, ?_⟩ <;> decide +kernel⟩,
  ⟨at_ { live with dieA := { tDie with below := [3], hold := some ⟨3, 700, 1, 0⟩ } }, .A, ⟨3, 700, 1, 0⟩, by refine ⟨?_, ?_⟩ <;> decide +kernel⟩,
  ⟨at_ live, .A, by decide +kernel⟩,
  ⟨at_ live, .A, 2, 600, by decide +kernel⟩,
  ⟨at_ live, .A, by refine ⟨?_, ?_⟩ <;> decide +kernel⟩⟩

/-- What `StartsAndResets` asks of its states and operands can be met. -/
theorem test_meets_startsAndResets :
  (∃ (s : State) (straps : Straps),
    s.cx.dieA.aon = false) ∧
  (∃ (s : State) (straps : Straps),
    s.cx.dieB.aon = false) ∧
  (∃ (s : State) (d : Side),
    (s.cx.die d).aon = true ∧
    (s.cx.die d).pwrReq = true ∧
    (s.cx.die d).power = .frost) ∧
  (∃ (s : State) (d : Side) (t : Trained),
    (s.cx.die d).power = .thaw ∧
    (s.cx.die d).core = false ∧
    (s.cx.die d).fenced = false) ∧
  (∃ (s : State) (d : Side),
    (s.cx.die d).power = .run ∧
    s.cx.coreUp d = true ∧
    (s.cx.port d).up = false) ∧
  (∃ (s : State) (d : Side),
    (s.cx.die d).power = .run ∧
    s.cx.coreUp d = true ∧
    (s.cx.port d).up = true) :=
  ⟨⟨State.reset, ⟨0#3, true, 9#64⟩, by decide +kernel⟩,
  ⟨State.reset, ⟨0#3, true, 9#64⟩, by decide +kernel⟩,
  ⟨at_ { live with dieA := { tDie with power := .frost } }, .A, by refine ⟨?_, ?_, ?_⟩ <;> decide +kernel⟩,
  ⟨at_ { live with dieA := { tDie with power := .thaw, core := false } }, .A, ⟨[], [], [], 0#2, 0#8, 0#8, 0#2, [], 0⟩, by refine ⟨?_, ?_, ?_⟩ <;> decide +kernel⟩,
  ⟨at_ { live with portA := { tPort with up := false } }, .A, by refine ⟨?_, ?_, ?_⟩ <;> decide +kernel⟩,
  ⟨at_ live, .A, by refine ⟨?_, ?_, ?_⟩ <;> decide +kernel⟩⟩

/-- What `CountersSaturate` asks of its states and operands can be met. -/
theorem test_meets_countersSaturate :
  (∃ (k : Ctr) (width : Nat),
    k.val < 2 ^ width - 1) ∧
  (∃ (k : Ctr) (width : Nat),
    k.val = 2 ^ width - 1) ∧
  (∃ (c : Cx) (off width : Nat) (d : Side),
    (c.ctr off).val < 2 ^ width - 1) ∧
  (∃ (c : Cx) (off width : Nat) (d : Side),
    (c.ctr off).val = 2 ^ width - 1 ∧
    (c.ctr off).ovf = false) ∧
  (∃ (c : Cx) (off width : Nat) (d : Side),
    (c.ctr off).val = 2 ^ width - 1 ∧
    (c.ctr off).ovf = true) ∧
  (∃ (c : Cx) (off q width : Nat) (d : Side),
    q ≠ off) :=
  ⟨⟨⟨254, false⟩, 8, by decide +kernel⟩,
  ⟨⟨255, false⟩, 8, by decide +kernel⟩,
  ⟨{ live with ctrs := [(4, ⟨254, false⟩)] }, 4, 8, .A, by decide +kernel⟩,
  ⟨{ live with ctrs := [(4, ⟨255, false⟩)] }, 4, 8, .A, by refine ⟨?_, ?_⟩ <;> decide +kernel⟩,
  ⟨{ live with ctrs := [(4, ⟨255, true⟩)] }, 4, 8, .A, by refine ⟨?_, ?_⟩ <;> decide +kernel⟩,
  ⟨live, 4, 8, 8, .A, by decide +kernel⟩⟩

/-- What `SequenceNumbersWrap` asks of its states and operands can be met. -/
theorem test_meets_sequenceNumbersWrap :
  (∃ (n : Nat),
    0 < n) ∧
  (∃ (n : Nat) (a b : BitVec n),
    0 < n ∧
    let d := (a.toNat + 2 ^ n - b.toNat) % 2 ^ n
    d = 0) ∧
  (∃ (n : Nat) (a b : BitVec n),
    0 < n ∧
    let d := (a.toNat + 2 ^ n - b.toNat) % 2 ^ n
    0 < d ∧
    d < 2 ^ (n - 1)) ∧
  (∃ (n : Nat) (a b : BitVec n),
    0 < n ∧
    let d := (a.toNat + 2 ^ n - b.toNat) % 2 ^ n
    2 ^ (n - 1) ≤ d) ∧
  (∃ (n : Nat) (a b : BitVec n),
    0 < n) ∧
  (∃ (n : Nat) (a b : BitVec n),
    seqCmp a b = .newer) :=
  ⟨⟨16, by decide +kernel⟩,
  ⟨16, 7#16, 7#16, by refine ⟨?_, ?_⟩ <;> decide +kernel⟩,
  ⟨16, 3#16, 0xFFFF#16, by refine ⟨?_, ?_, ?_⟩ <;> decide +kernel⟩,
  ⟨16, 0x8000#16, 0#16, by refine ⟨?_, ?_⟩ <;> decide +kernel⟩,
  ⟨16, 0#16, 1#16, by decide +kernel⟩,
  ⟨16, 3#16, 0xFFFF#16, by decide +kernel⟩⟩

/-- What `ApertureBase` asks of its states and operands can be met. -/
theorem test_meets_apertureBase :
  (∃ (s : State) (p : Side) (v : W32),
    s.cx.serves p = true ∧
    v ≠ 0#32) ∧
  (∃ (s t : State) (p q : Side) (high : Bool) (v : W32),
    exec (.apertureBaseWrite p high v) s = .next t ∧
    (s.cx.port q).aperture.toNat % 2 ^ 32 = 0) :=
  ⟨⟨at_ live, .A, 5#32, by refine ⟨?_, ?_⟩ <;> decide +kernel⟩,
  ⟨at_ live, match exec (.apertureBaseWrite .A true 1#32) (at_ live) with | .next t => t | _ => at_ live, .A, .A, true, 1#32, ⟨rfl, by decide +kernel⟩⟩⟩

/-- What `MemoryReadsBack` asks of its states and operands can be met. -/
theorem test_meets_memoryReadsBack :
  (∃ (c : Cx) (k : Nat) (b : Byte) (j : Nat),
    (c.cached k = true ∨ kget? c.dirty k = none)) ∧
  (∃ (c : Cx) (sel : Nat → Bool) (j : Nat),
    kwf c.dirty = true) ∧
  (∃ (c : Cx) (k : Nat) (bs : List Byte) (sel : Nat → Bool),
    Memory.wf c.mem = true) :=
  ⟨⟨live, hostA 0, 5#8, hostA 0, by decide +kernel⟩,
  ⟨live, fun _ => true, 0, by decide +kernel⟩,
  ⟨live, 0, [1#8], fun _ => true, by decide +kernel⟩⟩

end Sys2Proof.Tests
end

section
/-!
PROOF. Sequence numbers wrap and compare modulo 2^n (R13).
-/
namespace Sys2Proof.Machine

section Compare

variable {n : Nat} (a b : BitVec n)

/-- The difference that R13's pseudocode forms. -/
theorem toNat_sub_eq_mod : (a - b).toNat = (a.toNat + 2 ^ n - b.toNat) % 2 ^ n := by
  have hb : b.toNat < 2 ^ n := b.isLt
  rw [BitVec.toNat_sub, show 2 ^ n - b.toNat + a.toNat = a.toNat + 2 ^ n - b.toNat by omega]

theorem seqCmp_eq_equal_iff : seqCmp a b = .equal ↔ (a - b).toNat = 0 := by
  simp only [seqCmp]
  split_ifs with h0 h <;> simp only [h0]

theorem seqCmp_eq_newer_iff : seqCmp a b = .newer ↔ 0 < (a - b).toNat ∧ (a - b).toNat < 2 ^ (n - 1) := by
  simp only [seqCmp]
  split_ifs <;> simp only [true_iff, false_iff] <;> omega

theorem seqCmp_eq_older_iff : seqCmp a b = .older ↔ 2 ^ (n - 1) ≤ (a - b).toNat := by
  have hpos : 0 < 2 ^ (n - 1) := Nat.two_pow_pos _
  simp only [seqCmp]
  split_ifs <;> simp only [true_iff, false_iff] <;> omega

theorem seqCmp_eq_equal_iff_eq : seqCmp a b = .equal ↔ a = b := by
  rw [seqCmp_eq_equal_iff, ← sub_eq_zero (a := a), ← BitVec.toNat_inj]
  rfl

theorem newer_iff : newer a b = true ↔ seqCmp a b = .newer := by
  simp [newer]

theorem newerEq_iff : newerEq a b = true ↔ seqCmp a b ≠ .older := by
  simp [newerEq]

/-- The two differences of two numbers that differ add up to 2^n. -/
theorem toNat_sub_swap (h : (a - b).toNat ≠ 0) : (b - a).toNat = 2 ^ n - (a - b).toNat := by
  rw [← neg_sub a b, BitVec.toNat_neg, Nat.mod_eq_of_lt (by omega)]

theorem seqCmp_older_of_newer (h : seqCmp a b = .newer) : seqCmp b a = .older := by
  obtain ⟨hpos, hhalf⟩ := (seqCmp_eq_newer_iff a b).1 h
  have hn : n ≠ 0 := by
    rintro rfl
    omega
  have htwice : 2 * 2 ^ (n - 1) = 2 ^ n := mul_pow_sub_one hn 2
  rw [seqCmp_eq_older_iff, toNat_sub_swap a b hpos.ne']
  omega

end Compare

theorem ofNat_max_add_one (n : Nat) : BitVec.ofNat n (2 ^ n - 1) + 1#n = 0#n := by
  rw [← BitVec.ofNat_add, Nat.sub_add_cancel Nat.one_le_two_pow]
  exact BitVec.eq_of_toNat_eq (by rw [BitVec.toNat_ofNat, BitVec.toNat_ofNat, Nat.mod_self, Nat.zero_mod])

/-- Settles O58, by R13's difference (a − b) mod 2^n, of which each of the three answers is one range. -/
theorem sequenceNumbersWrap : Obligations.SequenceNumbersWrap := by
  refine ⟨fun n _ => ofNat_max_add_one n, fun n a b _ => ?_, fun n => seqCmp_eq_equal_iff_eq,
    fun n => seqCmp_older_of_newer⟩
  rw [← toNat_sub_eq_mod]
  exact ⟨(seqCmp_eq_equal_iff a b).2, fun hpos hlt => (seqCmp_eq_newer_iff a b).2 ⟨hpos, hlt⟩,
    (seqCmp_eq_older_iff a b).2, newer_iff a b, newerEq_iff a b⟩

end Sys2Proof.Machine
end

section
/-!
PROOF. Counters saturate (R11): one increment, the event it raises, and a run of increments.
-/
namespace Sys2Proof.Machine

/-! ### One increment -/

theorem Ctr.add_below {k : Ctr} {width : Nat} (h : k.val < 2 ^ width - 1) :
    k.add width 1 = ({ k with val := k.val + 1 }, false) := by
  have : k.val + 1 ≤ 2 ^ width - 1 := h
  simp [Ctr.add, this]

theorem Ctr.add_full {k : Ctr} {width : Nat} (h : k.val = 2 ^ width - 1) :
    k.add width 1 = ({ k with ovf := true }, !k.ovf) := by
  simp [Ctr.add, h]

/-! ### Counting at a register -/

section Bump

variable (c : Cx) (off width : Nat) (d : Side)

/-- The counter takes the sum, whether or not an event is raised. -/
theorem Cx.ctr_bump_self (n : Nat) : (c.bump off width d n).ctr off = ((c.ctr off).add width n).1 := by
  unfold Cx.bump
  dsimp only
  split <;> simp [Cx.saturated, Cx.ctr]

theorem Cx.ctr_bump_ne {q : Nat} (n : Nat) (h : q ≠ off) : (c.bump off width d n).ctr q = c.ctr q := by
  unfold Cx.bump
  dsimp only
  split <;> simp [Cx.saturated, Cx.ctr, kget_kput_ne _ _ _ h]

theorem Cx.bump_of_quiet {n : Nat} (h : ((c.ctr off).add width n).2 = false) :
    c.bump off width d n = { c with ctrs := kput c.ctrs off ((c.ctr off).add width n).1 } := by
  unfold Cx.ctr at h
  simp [Cx.bump, Cx.ctr, h]

theorem Cx.bump_of_raised {n : Nat} (h : ((c.ctr off).add width n).2 = true) :
    c.bump off width d n =
      ({ c with ctrs := kput c.ctrs off ((c.ctr off).add width n).1 } : Cx).saturated off d := by
  unfold Cx.ctr at h
  simp [Cx.bump, Cx.ctr, h]

/-- A count that raises no event leaves the arbiter and the outputs as they were. -/
theorem Cx.bump_silent {n : Nat} (h : ((c.ctr off).add width n).2 = false) :
    (c.bump off width d n).arb = c.arb ∧ (c.bump off width d n).out = c.out := by
  rw [Cx.bump_of_quiet c off width d h]
  exact ⟨rfl, rfl⟩

end Bump

/-! ### A run of increments from zero -/

/-- A counter after n increments from zero. -/
def Ctr.after (width n : Nat) : Ctr := { val := min n (2 ^ width - 1), ovf := decide (2 ^ width - 1 < n) }

theorem Ctr.after_zero (width : Nat) : Ctr.after width 0 = {} := by
  simp [Ctr.after]

/-- One more increment raises an event exactly when it is the first that the counter does not take. -/
theorem Ctr.after_add (width n : Nat) :
    (Ctr.after width n).add width 1 = (Ctr.after width (n + 1), decide (n = 2 ^ width - 1)) := by
  rcases lt_or_ge n (2 ^ width - 1) with h | h
  · rw [Ctr.add_below (k := Ctr.after width n) (by simp only [Ctr.after]; omega)]
    simp only [Ctr.after, Prod.mk.injEq, Ctr.mk.injEq, decide_eq_decide, Bool.false_eq, decide_eq_false_iff_not]
    omega
  · rw [Ctr.add_full (k := Ctr.after width n) (by simp only [Ctr.after]; omega)]
    simp only [Ctr.after, Prod.mk.injEq, Ctr.mk.injEq, ← decide_not, decide_eq_decide, Bool.true_eq, decide_eq_true_eq]
    omega

/-- Settles O57, by the two cases of one increment and, for a run of them, induction on its length. -/
theorem countersSaturate : Obligations.CountersSaturate := by
  refine ⟨fun _ _ => Ctr.add_below, fun _ _ => Ctr.add_full, fun c off width d h => ?_, fun c off width d h hovf => ?_,
    fun c off width d h hovf => ?_, fun c off q width d => Cx.ctr_bump_ne c off width d 1, fun width n => ?_⟩
  · have hadd := Ctr.add_below h
    obtain ⟨harb, hout⟩ := Cx.bump_silent c off width d (congrArg Prod.snd hadd)
    exact ⟨harb, hout, by rw [Cx.ctr_bump_self, hadd]⟩
  · have hadd := Ctr.add_full h
    rw [Cx.bump_of_raised c off width d (by rw [hadd, hovf]; rfl), hadd, h]
    exact ⟨_, _, _, rfl⟩
  · have hadd := Ctr.add_full h
    obtain ⟨harb, hout⟩ := Cx.bump_silent c off width d (by rw [hadd, hovf]; rfl)
    exact ⟨harb, hout, by rw [Cx.ctr_bump_self, hadd, ← hovf]⟩
  · intro r
    suffices hr : r = (Ctr.after width n, b2n (decide (2 ^ width - 1 < n))) by
      rw [hr]
      exact ⟨rfl, rfl⟩
    subst r
    induction n with
    | zero => simp [Ctr.after_zero, b2n]
    | succ n ih =>
      rw [List.range_succ, List.foldl_append, ih]
      simp only [List.foldl_cons, List.foldl_nil, Ctr.after_add, b2n, decide_eq_true_eq, Prod.mk.injEq, true_and]
      split_ifs <;> omega

end Sys2Proof.Machine
end

section
/-!
PROOF. Register accesses (R7 to R9, R12, R89) and accesses through the aperture (R94, R97).
-/
namespace Sys2Proof.Machine

/-! ### Accesses of one defined register -/

theorem Cx.write32_defined {c : Cx} {p : Side} {off : Nat} {b : Blk} {o : Nat} (v : W32)
    (hblk : blockOf off = some (b, o)) (hdef : c.readReg p b o ≠ none) (hreach : c.reachable p b o = true) :
    c.write32 p off v = c.writeReg p b o v := by
  simp [Cx.write32, hblk, hdef, hreach]

theorem Cx.read32_defined {c : Cx} {p : Side} {off : Nat} {b : Blk} {o v : Nat}
    (hblk : blockOf off = some (b, o)) (hval : c.readReg p b o = some v) (hreach : c.reachable p b o = true) :
    c.read32 p off = (c.afterRead p b o off, BitVec.ofNat 32 v) := by
  simp [Cx.read32, hblk, hval, hreach]

/-! ### Reads that clear -/

@[simp] theorem Cx.ctr_ctrClear_self (c : Cx) (off : Nat) : (c.ctrClear off).ctr off = {} := by
  simp [Cx.ctrClear, Cx.ctr, kget]

theorem Cx.ctr_ctrClear_ne (c : Cx) {off q : Nat} (h : q ≠ off) : (c.ctrClear off).ctr q = c.ctr q := by
  simp [Cx.ctrClear, Cx.ctr, kget, kget?_kdel_ne _ h]

theorem Cx.afterRead_newt {c : Cx} {p : Side} {n : Fin 640} {o : Nat} (off : Nat) (h : isRc (.nwt n) o = true) :
    c.afterRead p (.nwt n) o off = c.ctrClear off := by
  simp [Cx.afterRead, h]

/-! ### REGISTER_WRITE and READ_CLEAR -/

section Bar0

variable {s : State} {p : Side} {off : BitVec 25}

theorem exec_registerWrite_word (v : W64) (hserves : s.cx.serves p = true) (halign : off.toNat % 4 = 0) :
    exec (.registerWrite p off 4 v) s = s.go (s.cx.write32 p off.toNat (v.setWidth 32)) := by
  change execRegisterWrite p off 4 v s = _
  simp [execRegisterWrite, hserves, halign]

theorem exec_readClear_word (hserves : s.cx.serves p = true) (halign : off.toNat % 4 = 0) :
    exec (.readClear p off 4) s = s.go ((s.cx.read32 p off.toNat).1.emit
      (.read p (leBytes 4 (s.cx.read32 p off.toNat).2.toNat))) := by
  change execReadClear p off 4 s = _
  simp [execReadClear, hserves, halign]

theorem exec_registerWrite_misfit {size : Nat} (v : W64) (hserves : s.cx.serves p = true)
    (h4 : ¬ (size = 4 ∧ off.toNat % 4 = 0)) (h8 : ¬ (size = 8 ∧ off.toNat % 8 = 0)) :
    exec (.registerWrite p off size v) s = s.go (s.cx.hostDrop p 0 off.toNat size true) := by
  change execRegisterWrite p off size v s = _
  simp [execRegisterWrite, hserves, h4, h8]

theorem exec_readClear_misfit {size : Nat} (hserves : s.cx.serves p = true)
    (h4 : ¬ (size = 4 ∧ off.toNat % 4 = 0)) (h8 : ¬ (size = 8 ∧ off.toNat % 8 = 0)) :
    exec (.readClear p off size) s =
      s.go ((s.cx.hostDrop p 0 off.toNat size false).emit (.read p (List.replicate size 0#8))) := by
  change execReadClear p off size s = _
  simp [execReadClear, hserves, h4, h8]

end Bar0

/-! ### APERTURE_BASE_WRITE and APERTURE_ACCESS -/

section Aperture

variable {s : State} {p : Side} {off : W32} (size : Nat)

theorem exec_apertureBaseWrite_high (v : W32) (hserves : s.cx.serves p = true) :
    exec (.apertureBaseWrite p true v) s = s.go (s.cx.modPort p fun q => { q with aperture := v ++ 0#32 }) := by
  change execApertureBaseWrite p true v s = _
  simp [execApertureBaseWrite, hserves, Cx.writeHst]

theorem exec_apertureAccess_write {bs : List Byte} (hserves : s.cx.serves p = true)
    (hdev : bits (s.cx.apertureAddr p off) 63 60 ≠ 4)
    (hrange : s.cx.checkRange .write (s.cx.apertureAddr p off) bs.length = none)
    (hreach : s.cx.unreachable? p (s.cx.apertureAddr p off) = none) :
    exec (.apertureAccess p off size (some bs)) s = s.go (s.cx.accessWrite (s.cx.apertureAddr p off) bs) := by
  change execApertureAccess p off size (some bs) s = _
  simp [execApertureAccess, hserves, hdev, hrange, hreach]

theorem exec_apertureAccess_read (hserves : s.cx.serves p = true)
    (hdev : bits (s.cx.apertureAddr p off) 63 60 ≠ 4)
    (hrange : s.cx.checkRange .debug (s.cx.apertureAddr p off) size = none)
    (hreach : s.cx.unreachable? p (s.cx.apertureAddr p off) = none) :
    exec (.apertureAccess p off size none) s =
      s.go ((s.cx.accessRead (s.cx.apertureAddr p off) size).1.emit
        (.read p (s.cx.accessRead (s.cx.apertureAddr p off) size).2)) := by
  change execApertureAccess p off size none s = _
  simp [execApertureAccess, hserves, hdev, hrange, hreach]

/-- A range that fails the check is reported, and a read of it answers zeros. -/
theorem exec_apertureAccess_invalid {w : Option (List Byte)} (hserves : s.cx.serves p = true)
    (hbad : bits (s.cx.apertureAddr p off) 63 60 = 4 ∨
      s.cx.checkRange (if w.isSome then .write else .debug) (s.cx.apertureAddr p off)
        ((w.map List.length).getD size) ≠ none) :
    exec (.apertureAccess p off size w) s = s.go
      (if w.isSome then s.cx.addrInvalid p 1 0#12 0#32 0 (s.cx.apertureAddr p off)
       else (s.cx.addrInvalid p 1 0#12 0#32 0 (s.cx.apertureAddr p off)).answerZeros p
        ((w.map List.length).getD size)) := by
  change execApertureAccess p off size w s = _
  rw [← Option.isSome_iff_ne_none] at hbad
  simp only [execApertureAccess, hserves, Bool.not_true, Bool.false_eq_true, if_false, Bool.or_eq_true,
    decide_eq_true_eq, hbad, if_true]

end Aperture

/-- A range outside the newt windows is memory, to an access that writes and to one that reads. -/
theorem Cx.accessWrite_memory {c : Cx} {a : Nat} {bs : List Byte} (h : c.touchesWindow a bs.length = false) :
    c.accessWrite a bs = c.writeAt a bs := by
  simp [Cx.accessWrite, h]

theorem Cx.accessRead_memory {c : Cx} {a n : Nat} (h : c.touchesWindow a n = false) :
    c.accessRead a n = (c, c.readAt a n) := by
  simp [Cx.accessRead, h]

/-- Settles O16, clause by clause from what each of the four commands does in the case that the clause names. -/
theorem registerAccesses : Obligations.RegisterAccesses := by
  refine ⟨?word, ?readWord, ?readClears, ?misfit, ?base, ?store, ?load, ?invalid, ?memory⟩
  case word =>
    intro s p off v b o hserves halign hblk hdef hreach
    rw [exec_registerWrite_word v hserves halign, Cx.write32_defined _ hblk hdef hreach, State.go]
  case readWord =>
    intro s p off b o v hserves halign hblk hval hreach
    rw [exec_readClear_word hserves halign, Cx.read32_defined hblk hval hreach, State.go]
  case readClears =>
    intro c p n o off hrc
    rw [Cx.afterRead_newt off hrc]
    exact ⟨rfl, Cx.ctr_ctrClear_self c off, fun q hq => Cx.ctr_ctrClear_ne c hq⟩
  case misfit =>
    intro s p off size v hserves h4 h8
    rw [exec_registerWrite_misfit v hserves h4 h8, exec_readClear_misfit hserves h4 h8]
    exact ⟨rfl, rfl⟩
  case base =>
    intro s p v hserves
    rw [exec_apertureBaseWrite_high v hserves, State.go]
  case store =>
    intro s p off size bs a hserves hdev hrange hreach
    rw [exec_apertureAccess_write size hserves hdev hrange hreach, State.go]
  case load =>
    intro s p off size a hserves hdev hrange hreach
    rw [exec_apertureAccess_read size hserves hdev hrange hreach, State.go]
  case invalid =>
    intro s p off size w a n hserves hbad
    rw [exec_apertureAccess_invalid size hserves hbad, State.go]
  case memory =>
    intro c a bs hwrite
    exact ⟨Cx.accessWrite_memory hwrite, fun n hread => Cx.accessRead_memory hread⟩

end Sys2Proof.Machine
end

section
/-!
PROOF. Telemetry (R105, R106) and the test access port (R109, R110).
-/
namespace Sys2Proof.Machine

/-! ### Snapshots and ticks -/

section Telemetry

variable {s : State} {d : Side}

theorem exec_telemetrySnap (clear : Bool) (hserves : s.cx.serves d = true) :
    exec (.telemetrySnap d clear) s = s.go (if clear then (s.cx.snapshot d).telemClear d else s.cx.snapshot d) := by
  change execTelemetrySnap d clear s = _
  simp [execTelemetrySnap, hserves]

theorem exec_telemetryClear (hserves : s.cx.serves d = true) :
    exec (.telemetryClear d) s = s.go (s.cx.telemClear d) := by
  change execTelemetryClear d s = _
  simp [execTelemetryClear, hserves]

end Telemetry

/-- The complex's tick count moves with hub die A's clock while that die is powered (log entry 41). -/
def Cx.ticked (c : Cx) (d : Side) : Cx := if d = .A ∨ c.dieA.aon = false then { c with ticks := c.ticks + 1 } else c

theorem Cx.die_ticked (c : Cx) (d x : Side) : (c.ticked d).die x = c.die x := by
  unfold Cx.ticked
  split <;> cases x <;> rfl

theorem Cx.gov_ticked (c : Cx) (d : Side) : (c.ticked d).gov = c.gov := by
  unfold Cx.ticked
  split <;> rfl

theorem Cx.governed_ticked (c : Cx) (d x : Side) : (c.ticked d).governed x = c.governed x := by
  simp only [Cx.governed, Cx.gov_ticked, Cx.die_ticked]

theorem Cx.coreUp_ticked (c : Cx) (d x : Side) : (c.ticked d).coreUp x = c.coreUp x := by
  simp only [Cx.coreUp, Cx.die_ticked]

/-- A tick of a die whose core runs, with no governor limit in force, counts one idle-or-busy counter (R105). -/
theorem exec_telemetryTick_counts {s : State} {d : Side} (progress : Bool) (haon : (s.cx.die d).aon = true)
    (hcore : s.cx.coreUp d = true) (hpower : (s.cx.die d).power = .run ∨ (s.cx.die d).power = .thaw)
    (hgov : s.cx.governed d = false) :
    exec (.telemetryTick d progress) s = s.go ((s.cx.ticked d).bump
      (hubBase d + (if progress then 0x240 else (s.cx.ticked d).idleCounter d)) 64 d) := by
  change execTelemetryTick d progress s = _
  have hticked : (if d = .A || !s.cx.dieA.aon then ({ s.cx with ticks := s.cx.ticks + 1 } : Cx) else s.cx) =
      s.cx.ticked d := by
    simp [Cx.ticked]
  simp only [execTelemetryTick, haon, hticked]
  simp [Cx.governed_ticked, Cx.coreUp_ticked, Cx.die_ticked, hgov, hcore, hpower]

/-! ### Instructions of the test access port -/

section TestAccess

variable {c : Cx} {d : Side}

/-- BYPASS, IDCODE and SAMPLE/PRELOAD decode as themselves. -/
theorem Cx.jtag_always {i : Nat} (haon : (c.die d).aon = true) (hi : i ≤ 2) :
    c.jtag d i = c.modDie d fun k => { k with jtag := i } := by
  simp [Cx.jtag, haon, Nat.not_lt.2 hi]

/-- All others decode as BYPASS while the image is enabled or the hub core is out of reset (R110). -/
theorem Cx.jtag_guarded {i : Nat} (haon : (c.die d).aon = true) (hi : 2 < i) :
    c.jtag d i = c.modDie d fun k => { k with jtag := if c.enabled || (c.die d).core then 0 else i } := by
  simp [Cx.jtag, haon, hi, jtagBypass]

end TestAccess

/-- The identification code leaves on TDO (R109). -/
theorem exec_idcode {s : State} {d : Side} (haon : (s.cx.die d).aon = true) :
    exec (.idcode d) s = s.go ((s.cx.modDie d fun k => { k with jtag := 1 }).emit (.tdo d 0x1A0209A7#32)) := by
  change execIdcode d s = _
  simp [execIdcode, haon, idcode, Cx.jtag_always]

/-- Settles O21, from the snapshot and clear, the tick that counts, and the two ways the port decodes an instruction. -/
theorem telemetryAndTestAccess : Obligations.TelemetryAndTestAccess := by
  refine ⟨?telemetry, ?tick, ?always, ?guarded⟩
  case telemetry =>
    intro s d hserves
    exact ⟨exec_telemetrySnap false hserves, exec_telemetrySnap true hserves, exec_telemetryClear hserves⟩
  case tick =>
    intro s d progress haon hcore hpower hgov
    exact exec_telemetryTick_counts progress haon hcore hpower hgov
  case always =>
    intro s d haon
    exact ⟨congrArg s.go (Cx.jtag_always haon (by decide)), exec_idcode haon,
      congrArg s.go (Cx.jtag_always haon (by decide))⟩
  case guarded =>
    intro s d haon locked
    have hguarded {i : Nat} (hi : 2 < i) := congrArg s.go (Cx.jtag_guarded (c := s.cx) haon hi)
    exact ⟨hguarded (by decide), hguarded (by decide), hguarded (by decide), hguarded (by decide)⟩

end Sys2Proof.Machine
end

section
/-!
PROOF. What reset leaves, and the journal (R18, R366, R368).
-/
namespace Sys2Proof.Machine

/-- Reset memory lists nothing, so every byte of every space reads 0 (log entry 10). -/
theorem reset_byte (k : Nat) : State.reset.cx.byte k = 0#8 := rfl

/-- Neither hub die is powered, and no hub core runs. -/
theorem reset_die (d : Side) : State.reset.cx.coreUp d = false ∧ (State.reset.cx.die d).power = .frost := by
  cases d <;> exact ⟨rfl, rfl⟩

/-- Both PCIe links are down, with MSI-X masked (log entry 81). -/
theorem reset_port (p : Side) : (State.reset.cx.port p).up = false ∧ (State.reset.cx.port p).fnMask = true := by
  cases p <;> exact ⟨rfl, rfl⟩

/-- Settles O4, field by field of the reset state. -/
theorem resetState : Obligations.ResetState :=
  ⟨rfl, reset_memory_wf, reset_byte, rfl, rfl, rfl, reset_die, reset_port, rfl, fun _ => rfl, rfl, rfl⟩

/-! ### Records of the journal -/

/-- Record i of the queue is numbered and joins the entries (R368). -/
def Cx.journaled (c : Cx) (i : Nat) (e : JEntry) : Cx :=
  { c with journal := { c.journal with
      queue := c.journal.queue.eraseIdx i, seq := c.journal.seq + 1#64
      entries := c.journal.entries ++ [{ e with seq := c.journal.seq + 1#64, written := true }] } }

/-- The entry's mirror has acknowledged it (R366). -/
def Cx.mirrored (c : Cx) (e : JEntry) : Cx :=
  { c with journal := { c.journal with
      entries := c.journal.entries.map fun x => if x.seq = e.seq then { x with acked := true } else x } }

section Journal

variable {s : State}

/-- The first queued record that can reach the master is written; without a mirror it completes at once. -/
theorem exec_journalRecord_writes {i : Nat} {e : JEntry} (henabled : s.cx.enabled = true)
    (hmaster : s.cx.coreUp s.cx.master = true) (hroom : s.cx.journal.entries.length < journalSize)
    (hfirst : s.cx.journal.queue.findIdx? s.cx.canReach = some i) (hrec : s.cx.journal.queue[i]? = some e) :
    exec .journalRecord s = s.go
      (if (s.cx.journaled i e).alone then (s.cx.journaled i e).completeAlone else s.cx.journaled i e) := by
  change execJournalRecord s = _
  have hgo : ¬ (!s.cx.enabled || !s.cx.coreUp s.cx.master || s.cx.journal.entries.length ≥ journalSize) = true := by
    simp [henabled, hmaster, hroom]
  simp only [execJournalRecord, if_neg hgo, hfirst, hrec]
  rfl

/-- The mirror's ack of the oldest unacknowledged entry makes its change take effect. -/
theorem exec_mirrorAck_takes {e : JEntry} (hmirror : s.cx.alone = false)
    (holdest : (s.cx.journal.entries.find? fun e => !e.acked) = some e) :
    exec .mirrorAck s = s.go ((s.cx.mirrored e).takeRecord { e with acked := true }) := by
  change execMirrorAck s = _
  simp [execMirrorAck, hmirror, holdest, Cx.mirrored]

theorem exec_mirrorAck_alone (halone : s.cx.alone = true) : exec .mirrorAck s = s.go s.cx.completeAlone := by
  change execMirrorAck s = _
  simp [execMirrorAck, halone]

end Journal

/-- Settles O53, from the written record, which a mirror makes wait and its absence completes, and the mirror's ack. -/
theorem journalWritten : Obligations.JournalWritten := by
  refine ⟨?written, ?acked, ?alone⟩
  case written =>
    intro s i e henabled hmaster hroom hfirst hrec j c
    have hexec : exec .journalRecord s = s.go (if c.alone then c.completeAlone else c) :=
      exec_journalRecord_writes henabled hmaster hroom hfirst hrec
    exact ⟨fun hmirror => by rw [hexec, hmirror]; rfl, fun halone => by rw [hexec, halone]; rfl⟩
  case acked =>
    intro s e hmirror holdest
    exact exec_mirrorAck_takes hmirror holdest
  case alone =>
    intro s halone
    exact exec_mirrorAck_alone halone

end Sys2Proof.Machine
end

section
/-!
PROOF. A hub die suspects its twin, fences it, or only loses the bridge (R17, R369, R370, R378, R384).
-/
namespace Sys2Proof.Machine

section Suspicion

variable {s : State} {d : Side}

theorem exec_bridgeHeartbeat_crosses (hbridge : s.cx.bridge = true) (hcore : s.cx.coreUp d = true)
    (hrun : (s.cx.die d).power = .run) :
    exec (.bridgeHeartbeat d) s = s.go (s.cx.modDie d.twin fun k => { k with lastBeat := true }) := by
  change execBridgeHeartbeat d s = _
  simp [execBridgeHeartbeat, hbridge, hcore, hrun]

/-! ### What raises the suspicion (R369) -/

theorem exec_fenceTwin_suspects (hmay : s.cx.canSuspect d = true) :
    exec (.fenceTwin d) s = s.go (s.cx.suspect d 4) := by
  change execFenceTwin d s = _
  simp [execFenceTwin, hmay]

theorem exec_resetTwin_suspects (hmay : s.cx.canSuspect d = true) :
    exec (.resetTwin d) s = s.go (s.cx.suspect d 4) := by
  change execResetTwin d s = _
  simp [execResetTwin, hmay]

/-- The cause is the one that the twin's core left as it dropped its core_alive. -/
theorem exec_coreAliveFall_suspects (hmay : s.cx.canSuspect d = true) (hlow : (s.cx.die d.twin).coreAlive = false) :
    exec (.coreAliveFall d) s = s.go (s.cx.suspect d (s.cx.die d.twin).suspectCause) := by
  change execCoreAliveFall d s = _
  simp [execCoreAliveFall, hmay, hlow]

/-- No heartbeat of the twin has come for 1 ms. -/
def Cx.missedBeat (c : Cx) (d : Side) : Cx := c.modDie d fun k => { k with lastBeat := false }

@[simp] theorem Cx.coreUp_modDie_twin (c : Cx) (d : Side) (f : Die → Die) :
    (c.modDie d f).coreUp d.twin = c.coreUp d.twin := by
  simp only [Cx.coreUp, Cx.modDie_die_twin]

theorem exec_heartbeatMiss_suspects (hmay : (s.cx.missedBeat d).canSuspect d = true) (hrun : (s.cx.die d).power = .run)
    (hlow : (s.cx.die d.twin).coreAlive = false) :
    exec (.heartbeatMiss d) s = s.go ((s.cx.missedBeat d).suspect d 3) := by
  change execHeartbeatMiss d s = _
  rw [Cx.missedBeat] at hmay ⊢
  simp [execHeartbeatMiss, hmay, hrun, hlow]

/-- With the twin's core_alive high, only the bridge is lost. -/
theorem exec_heartbeatMiss_losesBridge (hmay : (s.cx.missedBeat d).canSuspect d = true)
    (hrun : (s.cx.die d).power = .run) (hhigh : (s.cx.die d.twin).coreAlive = true) (hbridge : s.cx.bridge = true)
    (htwin : (s.cx.die d.twin).power = .run) (hcore : s.cx.coreUp d.twin = true) :
    exec (.heartbeatMiss d) s = s.go ((s.cx.missedBeat d).loseBridge d) := by
  change execHeartbeatMiss d s = _
  rw [Cx.missedBeat] at hmay ⊢
  simp [execHeartbeatMiss, hmay, hrun, hhigh, hbridge, htwin, hcore]

/-! ### A core that fails (R369, R378) -/

/-- A core that fails goes on only while its twin carries the complex and it does not fence that twin. -/
theorem Cx.dropAlive_eq (c : Cx) (d : Side) (cause : Nat) (detail : List Nat) :
    c.dropAlive d cause detail = (c.modDie d fun k => { k with
      coreAlive := false, suspectCause := cause
      core := k.core && (c.coreUp d.twin && (c.die d).twinSt != .fencing) }).ev 0x800A 10 3 d d.num
        ([d.num, cause] ++ detail) := by
  simp [Cx.dropAlive, bne]

theorem exec_watchdogExpiry_drops (hcore : s.cx.coreUp d = true) (hrun : (s.cx.die d).power = .run) :
    exec (.watchdogExpiry d) s = s.go (s.cx.dropAlive d 0 [0, 0]) := by
  change execWatchdogExpiry d s = _
  simp [execWatchdogExpiry, hcore, hrun]

/-- The unit and the offset of the error are open values (log entry 39). -/
theorem exec_sramUncorrectable_drops (hcore : s.cx.coreUp d = true) :
    exec (.sramUncorrectable d) s = s.go
      (((s.cx.drawOpen 0x800A).2.drawOpen 0x800A).2.dropAlive d 1
        [(s.cx.drawOpen 0x800A).1.toNat, ((s.cx.drawOpen 0x800A).2.drawOpen 0x800A).1.toNat]) := by
  change execSramUncorrectable d s = _
  simp [execSramUncorrectable, hcore]

/-! ### The fence completes (R370) -/

theorem exec_fenceReceived_fences (hline : (s.cx.die d.twin).fenceLine = true) (haon : (s.cx.die d).aon = true)
    (hshell : (s.cx.die d).shell = true) (hfenced : (s.cx.die d).fenced = false) :
    exec (.fenceReceived d) s = s.go
      ((s.cx.fenced d.twin s.cx.bridge).modDie d.twin fun k => { k with fenceAnswered := true }) := by
  change execFenceReceived d s = _
  simp [execFenceReceived, hline, haon, hshell, hfenced]

theorem exec_fenceAnswerTimeout_fences (hline : (s.cx.die d).fenceLine = true) (hcore : s.cx.coreUp d = true) :
    exec (.fenceAnswerTimeout d) s = s.go (s.cx.fenced d false) := by
  change execFenceAnswerTimeout d s = _
  simp [execFenceAnswerTimeout, hline, hcore]

end Suspicion

/-- Settles O51, clause by clause from what each command does when its guard holds. -/
theorem twinSuspected : Obligations.TwinSuspected := by
  refine ⟨?heartbeat, ?suspects, ?miss, ?watchdog, ?sram, ?received, ?timeout⟩
  case heartbeat =>
    intro s d hbridge hcore hrun
    exact exec_bridgeHeartbeat_crosses hbridge hcore hrun
  case suspects =>
    intro s d hmay c
    exact ⟨exec_fenceTwin_suspects hmay, exec_resetTwin_suspects hmay, exec_coreAliveFall_suspects hmay⟩
  case miss =>
    intro s d c hmay hrun
    exact ⟨exec_heartbeatMiss_suspects hmay hrun, exec_heartbeatMiss_losesBridge hmay hrun⟩
  case watchdog =>
    intro s d hcore hrun
    rw [exec_watchdogExpiry_drops hcore hrun, Cx.dropAlive_eq]
    rfl
  case sram =>
    intro s d hcore u o
    exact exec_sramUncorrectable_drops hcore
  case received =>
    intro s d hline haon hshell hfenced
    exact exec_fenceReceived_fences hline haon hshell hfenced
  case timeout =>
    intro s d hline hcore
    exact exec_fenceAnswerTimeout_fences hline hcore

end Sys2Proof.Machine
end

section
/-!
PROOF. Owners change, the failover ends, the twin rejoins, the bridge comes back and the complex resets (R17, R371, R372,
R377, R380, R382, R384).
-/
namespace Sys2Proof.Machine

/-- What no step of a fold changes, the fold keeps. -/
theorem foldl_keeps {α β γ : Type} (g : β → γ) {f : β → α → β} (h : ∀ b a, g (f b a) = g b) (l : List α) (b : β) :
    g (l.foldl f b) = g b :=
  (List.foldl_hom g (g₂ := fun x _ => x) fun b a => (h b a).symm).symm.trans (List.foldl_fixed ..)

/-! ### Doorbells that go on leave the dies, the bridge, memory and held events (R92, R140 to R143) -/

/-- Parts of the complex that neither a doorbell nor an event that it raises touches. Events are held while the bridge is
lost only (R380). -/
def Cx.behindBells (c : Cx) : Die × Die × Bool × List Host.Cell × List Ev :=
  (c.dieA, c.dieB, c.bridge, c.mem, if c.bridge then c.arb.held else [])

/-- While the bridge is up no event is held: each goes toward the arbiter. -/
theorem Cx.raise_of_bridge {c : Cx} (e : Ev) (h : c.bridge = true) :
    c.raise e = { c with arb := { c.arb with queue := c.arb.queue ++ [e] } } := by
  simp [Cx.raise, Cx.r17, h]

theorem Cx.behindBells_ev (c : Cx) (code cls sev : Nat) (d : Side) (idx : Nat) (fs : List Nat) (st : Option Step)
    (t : Option Nat) : (c.ev code cls sev d idx fs st t).behindBells = c.behindBells := by
  cases hb : c.bridge with
  | false => simp [Cx.behindBells, hb]
  | true => simp [Cx.ev, Cx.raise_of_bridge _ hb, Cx.behindBells]

theorem Cx.behindBells_modPort (c : Cx) (p : Side) (f : Port → Port) : (c.modPort p f).behindBells = c.behindBells := by
  cases p <;> rfl

theorem Cx.behindBells_haltStream (c : Cx) (st : StreamId) (reason : Nat) (num : W32) (seen : W16) :
    (c.haltStream st reason num seen).behindBells = c.behindBells := Cx.behindBells_ev ..

theorem Cx.behindBells_bellIgnored (c : Cx) (st : StreamId) (v : W64) (cause : Nat) :
    (c.bellIgnored st v cause).behindBells = c.behindBells := Cx.behindBells_ev ..

theorem Cx.behindBells_serveBell (c : Cx) (st : StreamId) (v : W64) (d : Desc) :
    (c.serveBell st v d).behindBells = c.behindBells := by
  unfold Cx.serveBell
  dsimp only
  split
  · exact Cx.behindBells_bellIgnored ..
  · split <;> rfl
  · split
    · exact Cx.behindBells_haltStream ..
    · rfl

theorem Cx.behindBells_takeBell (c : Cx) (st : StreamId) (flag : Bool) (v : W64) :
    (c.takeBell st flag v).behindBells = c.behindBells := by
  unfold Cx.takeBell
  dsimp only
  split
  · rfl
  · rfl
  · rfl
  · split_ifs
    · rfl
    · exact Cx.behindBells_bellIgnored ..
    · exact Cx.behindBells_bellIgnored ..
    · rfl
    · exact Cx.behindBells_serveBell ..

theorem Cx.behindBells_forwardBells (c : Cx) (p : Side) (st : StreamId) :
    (c.forwardBells p st).behindBells = c.behindBells := by
  unfold Cx.forwardBells
  dsimp only
  split
  · rfl
  · split
    · rfl
    · exact (foldl_keeps Cx.behindBells (fun c b => c.behindBells_takeBell ..) _ _).trans (Cx.behindBells_modPort ..)

theorem Cx.behindBells_forwardAll (c : Cx) (p : Side) : (c.forwardAll p).behindBells = c.behindBells :=
  foldl_keeps Cx.behindBells (fun c st => c.behindBells_forwardBells p st) _ c

theorem Cx.die_of_behindBells {c e : Cx} (h : c.behindBells = e.behindBells) (d : Side) : c.die d = e.die d := by
  cases d
  · exact congrArg (·.1) h
  · exact congrArg (·.2.1) h

/-! ### Stacks handed back leave the dies' standing (R377) -/

/-- How the two hub dies stand: the bridge, and each die's state toward its twin, its core and its fence. -/
def Cx.standing (c : Cx) : Bool × (Side → TwinSt × Bool × Bool) :=
  (c.bridge, fun x => ((c.die x).twinSt, (c.die x).core, (c.die x).fenced))

@[simp] theorem Cx.standing_ev (c : Cx) (code cls sev : Nat) (d : Side) (idx : Nat) (fs : List Nat) (st : Option Step)
    (t : Option Nat) : (c.ev code cls sev d idx fs st t).standing = c.standing := by
  simp [Cx.standing]

@[simp] theorem Cx.standing_modStk (c : Cx) (s : Nat) (f : Stack → Stack) : (c.modStk s f).standing = c.standing := rfl

@[simp] theorem Cx.standing_putByte (c : Cx) (k : Nat) (b : Byte) : (c.putByte k b).standing = c.standing := rfl

@[simp] theorem Cx.standing_drawOpen (c : Cx) (op : Nat) : (c.drawOpen op).2.standing = c.standing := rfl

@[simp] theorem Cx.standing_modPort (c : Cx) (p : Side) (f : Port → Port) : (c.modPort p f).standing = c.standing := by
  cases p <;> rfl

/-- Poison marks of the slow tier stand in a die's record, apart from its standing. -/
@[simp] theorem Cx.standing_clearPoison (c : Cx) (k : Nat) : (c.clearPoison k).standing = c.standing := by
  unfold Cx.clearPoison
  split
  · cases Side.ofNum (bits k 40 40) <;> exact congrArg (Prod.mk _) (funext fun x => by cases x <;> rfl)
  · rfl

@[simp] theorem Cx.standing_parityDelta (c : Cx) (s off : Nat) (a b : Byte) :
    (c.parityDelta s off a b).standing = c.standing := by
  unfold Cx.parityDelta
  split
  · rfl
  · split
    · rfl
    · split
      · rfl
      · dsimp only
        split
        · split <;> simp
        · rfl

theorem Cx.standing_poke1 (c : Cx) (k : Nat) (b : Byte) : (c.poke1 k b).standing = c.standing := by
  unfold Cx.poke1
  dsimp only
  split
  · exact Cx.standing_parityDelta ..
  · rfl

theorem Cx.standing_writeBack (c : Cx) (sel : Nat → Bool) : (c.writeBack sel).standing = c.standing :=
  (foldl_keeps Cx.standing (fun c w => c.standing_clearPoison (w * 64)) _ _).trans
    (foldl_keeps Cx.standing (fun c (p : Host.Cell) => c.standing_poke1 p.1 p.2) _ _)

theorem Cx.standing_linkEdge (c₀ : Cx) (s : Nat) (c : Cx) : (c₀.linkEdge s c).standing = c.standing := by
  unfold Cx.linkEdge
  split
  · exact Cx.standing_ev ..
  · rfl

theorem Cx.standing_handBack (f : Side) (c : Cx) (s : Nat) : (c.handBack f s).standing = c.standing :=
  (Cx.standing_linkEdge ..).trans (c.standing_writeBack _)

theorem Cx.standing_trainPcie (c : Cx) (d : Side) : (c.trainPcie d).standing = c.standing := by
  unfold Cx.trainPcie
  dsimp only
  split
  · exact Cx.standing_modPort ..
  · rfl

theorem Cx.standing_retrainPorts (c : Cx) (f : Side) : (c.retrainPorts f).standing = c.standing :=
  foldl_keeps Cx.standing (fun c p => by dsimp only; split <;> rfl) _ c

theorem Cx.standing_moveStaging (c : Cx) (d : Side) : (c.moveStaging d).standing = c.standing := by
  unfold Cx.moveStaging
  extract_lets lo n own
  exact foldl_keeps Cx.standing (fun c (p : Host.Cell) => c.standing_putByte (p.1 - lo d.twin + lo d) p.2) own _

theorem Cx.standing_rolesHome (c : Cx) : c.rolesHome.standing = c.standing := by
  unfold Cx.rolesHome
  split
  · rfl
  · exact c.standing_moveStaging .A

/-! ### Owners change (R362, R371) -/

section Owners

variable {s : State} {stk : Fin 20} {quiet : Bool} (hfailover : (s.cx.die (homeDie stk).twin).twinSt = .failover)
  (howner : s.cx.owner stk = homeDie stk) (hasked : (s.cx.stk stk).refusedOwner = false)

include hfailover howner hasked

theorem exec_ownerChangeRequest_adopts (hquiet : (s.cx.die (homeDie stk).twin).fenceAnswered = true ∨ quiet = true)
    (hstandby : 2 ≤ (s.cx.stk stk).standby) :
    exec (.ownerChangeRequest stk quiet) s = s.go ((s.cx.modStk stk fun k =>
      { k with owner := (homeDie stk).twin, carried := true, onStandby := true }).ev 0x8004 8 1 (homeDie stk).twin stk
        [stk, 0]) := by
  change execOwnerChangeRequest stk quiet s = _
  simp [execOwnerChangeRequest, hfailover, howner, hasked, hquiet, hstandby]

/-- A stack without a standby link cannot be asked and stays too (log entry 89). -/
theorem exec_ownerChangeRequest_stays
    (hkept : ((s.cx.die (homeDie stk).twin).fenceAnswered = false ∧ quiet = false) ∨ (s.cx.stk stk).standby < 2) :
    exec (.ownerChangeRequest stk quiet) s = s.go ((s.cx.modStk stk fun k =>
      { k with refusedOwner := true, cause := 2 }).ev 0x8004 8 1 (homeDie stk).twin stk [stk, 1]) := by
  change execOwnerChangeRequest stk quiet s = _
  have hno : ¬ (((s.cx.die (homeDie stk).twin).fenceAnswered || quiet) && decide (2 ≤ (s.cx.stk stk).standby)) = true := by
    rcases hkept with ⟨hanswer, hnoisy⟩ | hdown
    · simp [hanswer, hnoisy]
    · simp [Nat.not_le.2 hdown]
  simp [execOwnerChangeRequest, hfailover, howner, hasked, hno]

end Owners

/-! ### The failover ends, the twin is reset and rejoins (R372 to R377, R382) -/

section Twin

variable {s : State} {d : Side}

/-- Whatever the survivor adopts, it ends SOLO: the doorbells that go on last leave its state alone. -/
theorem exec_failover_ends_solo (hfailover : (s.cx.die d).twinSt = .failover) (hcore : s.cx.coreUp d = true) :
    ∃ c : Cx, exec (.failover d) s = s.go c ∧ (c.die d).twinSt = .solo := by
  change ∃ c : Cx, execFailover d s = _ ∧ _
  simp only [execFailover, hfailover, hcore, bne_self_eq_false, Bool.not_true, Bool.or_self, Bool.false_eq_true, if_false]
  refine ⟨_, rfl, ?_⟩
  rw [Cx.die_of_behindBells (Cx.behindBells_forwardAll ..), Cx.die_ev, Cx.modDie_die_self]

theorem exec_resetTwin_resets (hsolo : (s.cx.die d).twinSt = .solo) :
    exec (.resetTwin d) s = s.go (s.cx.modDie d.twin fun k => { k with core := false, coreAlive := false }) := by
  change execResetTwin d s = _
  simp [execResetTwin, Cx.canSuspect, hsolo]

/-- A twin that a rejoin may bring back: the die carries the complex alone. -/
structure Rejoins (c : Cx) (d : Side) : Prop where
  alone : (c.die d).twinSt = .solo ∨ (c.die d).twinSt = .rejoining
  core : c.coreUp d = true

theorem Rejoins.guard {c : Cx} (h : Rejoins c d) :
    (((c.die d).twinSt != .solo && (c.die d).twinSt != .rejoining) || !c.coreUp d) = false := by
  rcases h.alone with hst | hst <;> simp [hst, h.core]

/-- A rejoin that fails leaves the die SOLO and names its cause. -/
def Cx.rejoinFailed (c : Cx) (d : Side) (cause : Nat) : Cx :=
  (c.modDie d fun k => { k with twinSt := .solo }).ev 0x8008 10 3 d d.num [d.twin.num, cause]

theorem exec_rejoin_selfTest_fails (h : Rejoins s.cx d) (bridge : Bool) :
    exec (.rejoin d false bridge) s = s.go (s.cx.rejoinFailed d 0) := by
  change execRejoin d false bridge s = _
  simp only [execRejoin, h.guard]
  rfl

theorem exec_rejoin_bridge_fails (h : Rejoins s.cx d) :
    exec (.rejoin d true false) s = s.go (s.cx.rejoinFailed d 1) := by
  change execRejoin d true false s = _
  simp only [execRejoin, h.guard]
  rfl

/-- The bridge is up and the released core of the twin is paired with its survivor again. -/
def Cx.repaired (c : Cx) (d : Side) : Cx :=
  { (c.modDie d.twin fun k => { k with core := true, fenced := false, coreAlive := true, twinSt := .paired
                                       fenceLine := false, fenceAnswered := false }).modDie d fun k =>
      { k with twinSt := .paired, relay := false, fenceAnswered := false } with
    bridge := true, journal := { c.journal with solo := [] } }

/-- The stacks handed back, the links that train and the roles that go home leave the pair as it stands. -/
theorem exec_rejoin_pairs (h : Rejoins s.cx d) :
    ∃ c : Cx, exec (.rejoin d true true) s = s.go c ∧ c.standing = (s.cx.repaired d).standing := by
  change ∃ c : Cx, execRejoin d true true s = _ ∧ _
  simp only [execRejoin, h.guard, Bool.not_true, Bool.false_eq_true, if_false]
  refine ⟨_, rfl, ?_⟩
  rw [Cx.standing_ev, Cx.standing_drawOpen, Cx.standing_rolesHome, Cx.standing_retrainPorts, Cx.standing_trainPcie,
    foldl_keeps Cx.standing (Cx.standing_handBack d.twin)]
  cases d <;> rfl

theorem Cx.standing_repaired (c : Cx) (d : Side) : (c.repaired d).standing.1 = true ∧
    ((c.repaired d).standing.2 d).1 = .paired ∧ (c.repaired d).standing.2 d.twin = (.paired, true, false) := by
  cases d <;> exact ⟨rfl, rfl, rfl⟩

end Twin

/-! ### The bridge comes back and the complex resets (R17, R380, R382, R384) -/

/-- A fold over stacks changes the stacks alone. -/
theorem Cx.foldl_modStk (f : Stack → Stack) (l : List Nat) (c : Cx) :
    l.foldl (fun c s => c.modStk s f) c = { c with stks := (l.foldl (fun c s => c.modStk s f) c).stks } := by
  induction l generalizing c with
  | nil => rfl
  | cons s l ih => exact ih (c.modStk s f)

theorem Cx.markShared_eq (c : Cx) (b : Bool) : c.markShared b = { c with stks := (c.markShared b).stks } :=
  Cx.foldl_modStk (fun k => { k with shared := b }) (List.range 20) c

/-- The held events and the doorbells go on once the bridge carries them. -/
theorem exec_bridgeRestored_pairs {s : State} (hlost : s.cx.bridge = false) (hA : s.cx.coreUp .A = true)
    (hB : s.cx.coreUp .B = true) :
    ∃ c : Cx, exec .bridgeRestored s = s.go c ∧ c.behindBells =
      ({ s.cx.dieA with twinSt := .paired }, { s.cx.dieB with twinSt := .paired }, true, s.cx.mem, []) := by
  change ∃ c : Cx, execBridgeRestored s = _ ∧ _
  simp only [execBridgeRestored, hlost, hA, hB, Bool.not_true, Bool.or_self, Bool.false_eq_true, if_false]
  refine ⟨_, rfl, ?_⟩
  rw [Cx.behindBells_forwardAll, Cx.behindBells_forwardAll, Cx.behindBells_ev, Cx.markShared_eq]
  rfl

theorem exec_resetComplex_resets {s : State} {d : Side} (hcore : s.cx.coreUp d = true) :
    exec (.resetComplex d 0xC5#8) s = s.go s.cx.resetAll := by
  change execResetComplex d 0xC5#8 s = _
  simp [execResetComplex, hcore]

theorem exec_resetComplex_refused {s : State} {d : Side} {key : Byte} (hkey : key ≠ 0xC5#8) :
    exec (.resetComplex d key) s = s.go (s.cx.hostAccess d 0 (hubBase d + 0xA84) 4 true) := by
  change execResetComplex d key s = _
  simp [execResetComplex, hkey]

/-- Settles O52, from the owner changes, the failover's and the rejoin's ends, the restored bridge and the reset. -/
theorem twinTakesOver : Obligations.TwinTakesOver := by
  refine ⟨?owner, ?failover, ?resetTwin, ?rejoin, ?bridge, ?reset, ?refused⟩
  case owner =>
    intro s stk quiet f d hfailover howner hasked
    exact ⟨exec_ownerChangeRequest_adopts hfailover howner hasked, exec_ownerChangeRequest_stays hfailover howner hasked⟩
  case failover =>
    intro s d hfailover hcore
    obtain ⟨c, hexec, hsolo⟩ := exec_failover_ends_solo hfailover hcore
    exact ⟨_, hexec, rfl, hsolo⟩
  case resetTwin =>
    intro s d hsolo _
    exact exec_resetTwin_resets hsolo
  case rejoin =>
    intro s d halone hcore failed
    have h : Rejoins s.cx d := ⟨halone, hcore⟩
    obtain ⟨c, hexec, hpair⟩ := exec_rejoin_pairs h
    obtain ⟨hbridge, hself, htwin⟩ := s.cx.standing_repaired d
    rw [← hpair] at hbridge hself htwin
    exact ⟨exec_rejoin_selfTest_fails h true, exec_rejoin_bridge_fails h, _, hexec, rfl, hbridge, hself,
      congrArg (·.1) htwin, congrArg (·.2.1) htwin, congrArg (·.2.2) htwin⟩
  case bridge =>
    intro s hlost hA hB
    obtain ⟨c, hexec, hkept⟩ := exec_bridgeRestored_pairs hlost hA hB
    simp only [Cx.behindBells, Prod.mk.injEq] at hkept
    obtain ⟨hdieA, hdieB, hbridge, hmem, hheld⟩ := hkept
    rw [hbridge] at hheld
    exact ⟨_, hexec, rfl, hbridge, congrArg Die.twinSt hdieA, congrArg Die.twinSt hdieB, hheld, hmem⟩
  case reset =>
    intro s d hcore
    exact ⟨_, exec_resetComplex_resets hcore, rfl, rfl, rfl, rfl⟩
  case refused =>
    intro s d key hkey
    exact exec_resetComplex_refused hkey

end Sys2Proof.Machine
end

section
/-!
PROOF. The tadpole's vector instructions (R48, R204, R276, R289, R296, R301).
-/
namespace Sys2Proof.Machine

/-! ### Operations of a job's stretch -/

/-- The operation gives this value whatever flags, NaNs and poison the stretch has gathered, and it reads no poison. -/
def Yields (f : JobFx → W32 × JobFx) (v : W32) : Prop := ∀ x, (f x).1 = v ∧ (f x).2.poison = x.poison

@[simp] theorem JobFx.poison_flag (x : JobFx) (f : Flags) : (x.flag f).poison = x.poison := rfl

@[simp] theorem JobFx.poison_nan (x : JobFx) (made : Bool) (at_ : Nat) : (x.nan made at_).poison = x.poison := by
  cases made <;> rfl

/-- An operation that gathers flags alone. -/
theorem flag_yields (v : W32) (fl : Flags) : Yields (fun x => (v, x.flag fl)) v := fun _ => ⟨rfl, rfl⟩

theorem op2_yields (f : W32 → W32 → W32 × Flags) (a b : W32) (at_ : Nat) :
    Yields (fun x => x.op2 f a b at_) (newtOp2 f a b).1 :=
  fun _ => ⟨rfl, JobFx.poison_nan _ _ _⟩

theorem vecFma_yields (f1 f2 f3 : BitVec 3) (t : Tad) (k : Nat) :
    Yields (vecFma f1 f2 f3 t k) (newtOp3 f32Fma (t.lane f2 k) (t.lane f3 k) (t.lane f1 k)).1 :=
  fun _ => ⟨rfl, JobFx.poison_nan _ _ _⟩

/-- The running maximum of RMAX: each step is MAX of Table 9.4 on the values alone. -/
theorem foldl_max_yields (vs : List W32) (a : W32) :
    Yields (fun x => vs.foldl (fun p v => p.2.max p.1 v) (a, x)) (vs.foldl (fun a v => (newtOp2 f32Max a v).1) a) := by
  induction vs generalizing a with
  | nil => exact fun _ => ⟨rfl, rfl⟩
  | cons v vs ih => exact fun x => ih (newtOp2 f32Max a v).1 (x.flag (newtOp2 f32Max a v).2)

/-- The sum tree of R204 adds the sums of its halves; the second half only gathers more flags and NaNs. -/
theorem newtTree_yields (k : Nat) (vs : List W32) (at_ : Nat) :
    Yields (fun x => newtTree k x vs at_) (newtTree k {} vs at_).1 := by
  induction k generalizing vs with
  | zero => exact fun _ => ⟨rfl, rfl⟩
  | succ k ih =>
    match vs with
    | [] | [_] => exact fun _ => ⟨rfl, rfl⟩
    | a :: b :: vs =>
      intro x
      obtain ⟨hleft, hleftPoison⟩ := ih ((a :: b :: vs).take (powBelow (a :: b :: vs).length)) x
      have hright := ih ((a :: b :: vs).drop (powBelow (a :: b :: vs).length))
      simp only [newtTree, JobFx.op2, JobFx.poison_nan, JobFx.poison_flag, (hright _).1, (hright _).2, hleft, hleftPoison,
        and_self]

/-- One more lane after those done, from what they gathered: the step of `semLanes`. -/
def nextLane (f : Nat → JobFx → W32 × JobFx) (p : List W32 × JobFx) (k : Nat) : List W32 × JobFx :=
  (p.1 ++ [(f k p.2).1], (f k p.2).2)

theorem foldl_nextLane {f : Nat → JobFx → W32 × JobFx} {v : Nat → W32} (h : ∀ k, Yields (f k) (v k)) (ks : List Nat)
    (p : List W32 × JobFx) :
    (ks.foldl (nextLane f) p).1 = p.1 ++ ks.map v ∧ (ks.foldl (nextLane f) p).2.poison = p.2.poison := by
  induction ks generalizing p with
  | nil => simp
  | cons k ks ih =>
    obtain ⟨hvalue, hpoison⟩ := h k p.2
    obtain ⟨hvalues, hpoisons⟩ := ih (nextLane f p k)
    exact ⟨hvalues.trans (by simp [nextLane, hvalue]), hpoisons.trans hpoison⟩

/-! ### What an instruction writes -/

/-- The NaNs of a stretch go to the arbiter (R305), and nothing else of the complex changes. -/
theorem Cx.foldl_nan {α : Type} (rec_ : α → NanRec) (es : List α) (c : Cx) :
    es.foldl (fun c e => c.nan (rec_ e)) c =
      { c with arb := { c.arb with nans := c.arb.nans ++ es.map rec_ } } := by
  induction es generalizing c with
  | nil => simp
  | cons e es ih => exact (ih _).trans (by simp [Cx.nan])

/-- An update of a newt acts on that newt as it stands. -/
theorem Cx.modNewt_congr {c : Cx} {g : Nat} {f h : Newt → Newt} (heq : f (c.newt g) = h (c.newt g)) :
    c.modNewt g f = c.modNewt g h := by
  rw [Cx.modNewt, heq, Cx.modNewt]

/-- A stretch that read no new poison leaves its flags in the newt and its NaNs at the arbiter, and raises no event. -/
theorem Cx.keepFx_no_new_poison {c : Cx} {g : Nat} {j : Job} {x : JobFx} (pc : Nat) (hjob : (c.newt g).job = some j)
    (hpoison : x.poison = (c.newt g).poisoned) :
    ∃ arb, c.keepFx g pc x = ({ c with arb := arb } : Cx).modNewt g fun n => { n with flags := n.flags ||| x.fl } := by
  simp only [Cx.keepFx, hjob, Cx.foldl_nan]
  split
  case h_1 hclean hfound => simp [hpoison, hclean] at hfound
  case h_2 => exact ⟨_, Cx.modNewt_congr (by simp [hpoison, Cx.newt])⟩

section Writes

variable {c : Cx} {ch : Fin 640} {j : Job} {t : Tad} {r : BitVec 3}

/-- The end of every vector instruction: effects kept, one register written, the next instruction reached. -/
theorem tadWrote_keepFx_tadNext {x : JobFx} (free : Nat) (v : List W32) (hjob : (c.newt ch).job = some j)
    (hpoison : x.poison = (c.newt ch).poisoned) :
    TadWrote c ((({ c with free := free } : Cx).keepFx ch t.pc x).tadNext ch (t.setX r v)) ch t r v := by
  obtain ⟨arb, hkept⟩ := Cx.keepFx_no_new_poison (c := { c with free := free }) t.pc hjob hpoison
  rw [hkept, Cx.tadNext]
  constructor
  case others =>
    intro g hg
    rw [Cx.modNewt_newt_ne _ _ hg, Cx.modNewt_newt_ne _ _ hg]
    rfl
  case tad | job | poisoned | tainted => rw [Cx.modNewt_newt_self, Cx.modNewt_newt_self]; rfl
  case mem | dirty | wins | streams | regs => rfl

theorem semLanes_wrote {f : Tad → Nat → JobFx → W32 × JobFx} {v : Nat → W32} (hjob : (c.newt ch).job = some j)
    (h : ∀ k, Yields (f t k) (v k)) : TadWrote c (semLanes r f ch j t c) ch t r ((List.range 64).map v) := by
  obtain ⟨hvalues, hpoison⟩ := foldl_nextLane h (List.range 64) ([], (c.newt ch).fx)
  rw [← List.nil_append ((List.range 64).map v), ← hvalues]
  exact tadWrote_keepFx_tadNext _ _ hjob hpoison

theorem semFill_wrote {f : Tad → JobFx → W32 × JobFx} {v : W32} (hjob : (c.newt ch).job = some j)
    (h : Yields (f t) v) : TadWrote c (semFill r f ch j t c) ch t r (List.replicate 64 v) := by
  obtain ⟨hvalue, hpoison⟩ := h (c.newt ch).fx
  rw [← hvalue]
  exact tadWrote_keepFx_tadNext _ _ hjob hpoison

end Writes

/-- Settles O28. Each row runs a meaning that fills the register lane by lane or with one value; what is left is the value
that each operation yields. -/
theorem tadpoleVectorRows : Obligations.TadpoleVectorRows := by
  intro s ch j t f1 f2 f3 runs lanes two
  have hlanes {i : TInstr} {f : Tad → Nat → JobFx → W32 × JobFx} {v : Nat → W32}
      (hrow : exec (i.row ch) s = s.go (s.cx.tadStep ch i (semLanes f1 f))) (h : ∀ k, Yields (f t k) (v k)) :
      runs i (lanes v) := fun hruns =>
    ⟨_, hrow, rfl, Cx.tadStep_runs hruns _ ▸ semLanes_wrote hruns.job h⟩
  have hfill {i : TInstr} {f : Tad → JobFx → W32 × JobFx} {v : W32}
      (hrow : exec (i.row ch) s = s.go (s.cx.tadStep ch i (semFill f1 f))) (h : Yields (f t) v) :
      runs i (List.replicate 64 v) := fun hruns =>
    ⟨_, hrow, rfl, Cx.tadStep_runs hruns _ ▸ semFill_wrote hruns.job h⟩
  have htwo (f : W32 → W32 → W32 × Flags) (k : Nat) := op2_yields f (t.lane f2 k) (t.lane f3 k) 0
  exact ⟨hlanes rfl (htwo f32Add), hlanes rfl (htwo f32Sub), hlanes rfl (htwo f32Mul), hlanes rfl (htwo f32Div),
    hlanes rfl (htwo f32Max), hlanes rfl (htwo f32Min),
    hlanes rfl (vecFma_yields f1 f2 f3 t),
    hlanes rfl fun _ => flag_yields _ _,
    fun _ => hlanes rfl fun _ => flag_yields _ _,
    hlanes rfl fun _ => flag_yields _ _,
    hfill rfl (foldl_max_yields _ _),
    hfill rfl (newtTree_yields 7 _ 0),
    fun _ => hfill rfl fun _ => ⟨rfl, rfl⟩⟩

end Sys2Proof.Machine
end

section
/-!
PROOF. The event rings and the first-NaN trap (R56, R90, R98 to R100, R379).
-/
namespace Sys2Proof.Machine

/-- Records that a ring holds from its head up to a place. -/
def Ring.spanTo (g : Ring) (place : Nat) : Nat := (place + 2 ^ g.size - g.head) % 2 ^ g.size

section Rings

variable {s : State} {p : Side}

/-- The event that is picked leaves the arbiter's queue and arrives (R379). -/
theorem exec_eventArrival_arrives {n : Nat} {e : Ev} (hpick : s.cx.arb.queue[s.cx.arb.pick n]? = some e)
    (hcore : s.cx.coreUp s.cx.master = true) :
    exec (.eventArrival n) s = s.go (Cx.arrive { s.cx with arb := { s.cx.arb with
      queue := s.cx.arb.queue.eraseIdx (s.cx.arb.pick n) } } e) := by
  change execEventArrival n s = _
  simp [execEventArrival, hpick, hcore]

/-- A NaN on its way leaves the list and reaches the trap (R56). -/
theorem exec_nanArrival_traps {n : Nat} {r : NanRec} (hnan : s.cx.arb.nans[n]? = some r) :
    exec (.nanArrival n) s =
      s.go (Cx.nanArrives { s.cx with arb := { s.cx.arb with nans := s.cx.arb.nans.eraseIdx n } } r) := by
  change execNanArrival n s = _
  simp [execNanArrival, hnan]

/-- The holdoff of unsignalled records signals vector 0 (R90). -/
theorem exec_irqHoldoffExpiry_signals (hholdoff : (s.cx.port p).ring.holdoff ≠ 0)
    (hunsignalled : (s.cx.port p).ring.unsignalled ≠ 0) :
    exec (.irqHoldoffExpiry p) s =
      s.go ((s.cx.modPort p fun q => { q with ring := { q.ring with unsignalled := 0 } }).msix p 0) := by
  change execIrqHoldoffExpiry p s = _
  simp [execIrqHoldoffExpiry, hholdoff, hunsignalled]

/-- A head within the span from the head to the tail frees space (R100). -/
theorem exec_evtRingHeadWrite_frees {v : W32} (hsize : bits v.toNat 15 0 < 2 ^ (s.cx.port p).ring.size)
    (hspan : (s.cx.port p).ring.spanTo (bits v.toNat 15 0) ≤ (s.cx.port p).ring.spanTo (s.cx.port p).ring.tail) :
    exec (.evtRingHeadWrite p v) s =
      s.go ((s.cx.modPort p fun q => { q with ring := { q.ring with head := bits v.toNat 15 0 } }).drainRing p) :=
  if_pos ⟨hsize, hspan⟩

/-- A disabled ring takes either half of its base; the low half stands on a 4 KiB boundary (R100). -/
theorem exec_evtRingBaseWrite_takes {high : Bool} {v : W32} (hoff : (s.cx.port p).ring.enable = false)
    (halign : high = true ∨ bits v.toNat 11 0 = 0) :
    exec (.evtRingBaseWrite p high v) s = s.go (s.cx.modPort p fun q => { q with ring := { q.ring with
      base := BitVec.ofNat 64 (if high then setBits (s.cx.port p).ring.base.toNat 63 32 v.toNat
        else setBits (s.cx.port p).ring.base.toNat 31 0 v.toNat) } }) := by
  change execEvtRingBaseWrite p high v s = _
  rcases halign with hhigh | hlow
  · simp [execEvtRingBaseWrite, hoff, hhigh]
  · simp [execEvtRingBaseWrite, hoff, hlow]

/-- A control write that leaves an enabled ring's size alone is not reported (R100). -/
theorem exec_evtRingCtrlWrite_controls {v : W32}
    (hsize : (s.cx.port p).ring.enable = false ∨ ringSize (bits v.toNat 12 8) = (s.cx.port p).ring.size) :
    exec (.evtRingCtrlWrite p v) s = s.go (s.cx.modPort p fun q =>
      { q with ring := q.ring.control (bit v.toNat 0) (ringSize (bits v.toNat 12 8)) }) := by
  change execEvtRingCtrlWrite p v s = _
  rcases hsize with hoff | hsame
  · simp [execEvtRingCtrlWrite, hoff]
  · simp [execEvtRingCtrlWrite, hsame]

end Rings

/-- Settles O18, clause by clause from what each of the seven commands does in the case that the clause names. -/
theorem eventRings : Obligations.EventRings := by
  refine ⟨?event, ?nan, ?holdoff, fun s p => rfl, fun s p v => rfl, ?head, ?base, ?control⟩
  case event =>
    intro s n e hpick hcore
    exact exec_eventArrival_arrives hpick hcore
  case nan =>
    intro s n r hnan
    exact exec_nanArrival_traps hnan
  case holdoff =>
    intro s p hholdoff hunsignalled
    exact exec_irqHoldoffExpiry_signals hholdoff hunsignalled
  case head =>
    intro s p v g h m hsize hspan
    exact exec_evtRingHeadWrite_frees hsize hspan
  case base =>
    intro s p v hoff
    exact ⟨fun hlow => exec_evtRingBaseWrite_takes hoff (.inr hlow), exec_evtRingBaseWrite_takes hoff (.inl rfl)⟩
  case control =>
    intro s p v hsize
    exact exec_evtRingCtrlWrite_controls hsize

end Sys2Proof.Machine
end

section
/-!
PROOF. Memory reads back what was written, from its own side and through the stack caches (R63, R167, R171).
-/
namespace Sys2Proof.Machine

/-! ### Selected entries of a keyed list -/

theorem kget?_filter {α : Type} (sel : Nat → Bool) (m : List (Nat × α)) (k : Nat) :
    kget? (m.filter fun p => sel p.1) k = if sel k then kget? m k else none := by
  induction m with
  | nil => simp [kget?]
  | cons p r ih =>
    obtain ⟨j, v⟩ := p
    by_cases hj : j = k
    · subst hj
      by_cases hsel : sel j <;> simp [hsel, kget?, ih]
    · by_cases hsel : sel j <;> simp [hsel, kget?, hj, ih]

/-! ### Writes from memory's own side -/

theorem Cx.byte_of_mem {c e : Cx} (h : c.mem = e.mem) (j : Nat) : c.byte j = e.byte j := by
  rw [Cx.byte, h, ← Cx.byte]

theorem Cx.byte_poke1 (c : Cx) (k : Nat) (b : Byte) (j : Nat) :
    (c.poke1 k b).byte j = if j = k then b else c.byte j := by
  rw [Cx.byte, Cx.poke1_mem]
  split
  case isTrue h => rw [h, kget_kset_self]
  case isFalse h => rw [kget_kset_ne _ _ _ h, Cx.byte]

/-- Bytes stored one after the other, each at its own key. -/
theorem Cx.byte_pokeFold (bs : List Byte) (c : Cx) (k j : Nat) :
    (bs.foldl (fun (p : Cx × Nat) b => (p.1.poke1 p.2 b, p.2 + 1)) (c, k)).1.byte j =
      if k ≤ j ∧ j < k + bs.length then bs.getD (j - k) 0#8 else c.byte j := by
  induction bs generalizing c k with
  | nil => simp
  | cons b bs ih =>
    rw [List.foldl_cons, ih, Cx.byte_poke1, List.length_cons]
    rcases lt_trichotomy j k with hlt | rfl | hgt
    · rw [if_neg (by omega), if_neg (by omega), if_neg (by omega)]
    · rw [if_neg (by omega), if_pos rfl, if_pos (by omega), Nat.sub_self, List.getD_cons_zero]
    · rw [show j - k = j - (k + 1) + 1 by omega, List.getD_cons_succ]
      exact if_congr (by omega) rfl (if_neg (by omega))

theorem Cx.byte_poke (c : Cx) (k : Nat) (bs : List Byte) (j : Nat) :
    (c.poke k bs).byte j = if k ≤ j ∧ j < k + bs.length then bs.getD (j - k) 0#8 else c.byte j := by
  rw [← Cx.byte_pokeFold]
  exact Cx.byte_of_mem (Cx.mem_foldl _ _ _ Cx.clearPoison_mem) j

/-! ### The stack caches hold what memory does not -/

@[simp] theorem Cx.clearPoison_dirty (c : Cx) (k : Nat) : (c.clearPoison k).dirty = c.dirty := by
  unfold Cx.clearPoison
  split <;> simp

@[simp] theorem Cx.parityDelta_dirty (c : Cx) (s off : Nat) (a b : Byte) :
    (c.parityDelta s off a b).dirty = c.dirty := by
  unfold Cx.parityDelta
  repeat' split
  all_goals simp

@[simp] theorem Cx.poke1_dirty (c : Cx) (k : Nat) (b : Byte) : (c.poke1 k b).dirty = c.dirty := by
  unfold Cx.poke1
  dsimp only
  split <;> simp

theorem Cx.hubByte_hubPut (c : Cx) (k : Nat) (b : Byte) (j : Nat) (h : c.cached k = true ∨ kget? c.dirty k = none) :
    (c.hubPut k b).hubByte j = if j = k then b else c.hubByte j := by
  by_cases hcached : c.cached k = true
  · have hput : c.hubPut k b = { c with dirty := kput c.dirty k b } := if_pos hcached
    rw [hput, Cx.hubByte]
    split
    case isTrue hj => simp [hj]
    case isFalse hj => simp [kget?_kput_ne _ _ hj, Cx.hubByte, Cx.byte]
  · have hput : c.hubPut k b = c.poke1 k b := if_neg hcached
    have hclean : kget? c.dirty k = none := h.resolve_left hcached
    rw [hput, Cx.hubByte, Cx.poke1_dirty, Cx.byte_poke1]
    split
    case isTrue hj => simp [hj, hclean]
    case isFalse => rw [Cx.hubByte]

/-- Entries of a list with rising keys, stored one after the other: each key takes its entry. -/
theorem Cx.byte_storeFold (d : List (Nat × Byte)) (h : kwf d = true) (c : Cx) (j : Nat) :
    (d.foldl (fun c p => c.poke1 p.1 p.2) c).byte j = (kget? d j).getD (c.byte j) := by
  induction d generalizing c with
  | nil => rfl
  | cons p r ih =>
    obtain ⟨i, b⟩ := p
    obtain ⟨habove, hr⟩ := (kwf_cons i b r).1 h
    rw [List.foldl_cons, ih hr, Cx.byte_poke1]
    by_cases hj : i = j
    · subst hj
      simp [kget?_above i r habove, kget?]
    · simp [kget?, hj, Ne.symm hj]

theorem Cx.hubByte_writeBack (c : Cx) (sel : Nat → Bool) (j : Nat) (h : kwf c.dirty = true) :
    (c.writeBack sel).hubByte j = c.hubByte j := by
  have hdirty : (c.writeBack sel).dirty = c.dirty.filter fun p => !sel p.1 :=
    (foldl_keeps Cx.dirty (fun _ _ => Cx.clearPoison_dirty _ _) _ _).trans
      (foldl_keeps Cx.dirty (fun _ _ => Cx.poke1_dirty _ _ _) _ _)
  have hbyte : (c.writeBack sel).byte j = (kget? (c.dirty.filter fun p => sel p.1) j).getD (c.byte j) :=
    (Cx.byte_of_mem (Cx.mem_foldl _ _ _ fun _ _ => Cx.clearPoison_mem _ _) j).trans
      (Cx.byte_storeFold _ (kwf_filter _ _ h) _ j)
  rw [Cx.hubByte, hdirty, hbyte, kget?_filter, kget?_filter (fun k => !sel k)]
  by_cases hsel : sel j = true <;> simp [hsel, Cx.hubByte]

/-- Settles O60, from what one byte's write leaves, by the recursion of the writes of several. -/
theorem memoryReadsBack : Obligations.MemoryReadsBack :=
  ⟨Cx.byte_poke, Cx.hubByte_hubPut, Cx.hubByte_writeBack,
    fun c k bs sel h => ⟨Cx.wf_poke c k bs h, Cx.wf_hubPoke c k bs h, Cx.wf_writeBack c sel h⟩⟩

end Sys2Proof.Machine
end

section
/-!
PROOF. COPY within the complex (R64, R66, R355, Table 6.7).
-/
namespace Sys2Proof.Machine

/-- When every operand passes its checks, the first one passes the check of R64. -/
theorem Cx.checkRange_of_refuseOperands {c : Cx} {st : StreamId} {f : Flight} {k : Acc} {pos a n : Nat}
    {ops : List (Acc × Nat × Nat × Nat)} (h : c.refuseOperands st f ((k, pos, a, n) :: ops) = none) :
    c.checkRange k a n = none := by
  by_contra hbad
  rw [← ne_eq, ← Option.isSome_iff_ne_none] at hbad
  simp [Cx.refuseOperands, hbad] at h

/-- A COPY at its start that stays in this complex, converts whole elements by a defined code and has operands that
pass. -/
structure CopiesHere (c : Cx) (st : StreamId) (f : Flight) : Prop where
  phase : f.phase = 0
  conv : f.arg 40 2 0 ≠ 7
  whole : f.arg 32 63 0 % (copySize (f.arg 40 2 0)).1 = 0
  src : f.bit 40 21 = false
  dst : f.bit 40 22 = false
  ops : c.refuseOperands st f [(.read, 1, f.arg 16 63 0, f.arg 32 63 0),
    (.write, 2, f.arg 24 63 0, f.arg 32 63 0 / (copySize (f.arg 40 2 0)).1 * (copySize (f.arg 40 2 0)).2)] = none

section Copies

variable {c : Cx} {st : StreamId} {f : Flight} (h : CopiesHere c st f)

include h

theorem bodyCopy_of_clean (hclean : c.hubPoison (f.arg 16 63 0) (f.arg 32 63 0) = none) :
    bodyCopy st f c = (c.hubRead (f.arg 16 63 0) (f.arg 32 63 0)).1.copyOut st f
      (c.hubRead (f.arg 16 63 0) (f.arg 32 63 0)).2 := by
  simp [bodyCopy, h.phase, h.conv, h.whole, h.src, h.dst, Cx.checkRange_of_refuseOperands h.ops, h.ops, hclean]

theorem bodyCopy_of_poison {off : Nat} (hpoison : c.hubPoison (f.arg 16 63 0) (f.arg 32 63 0) = some off) :
    bodyCopy st f c = (c, .done stPoison off) := by
  simp [bodyCopy, h.phase, h.conv, h.whole, h.src, h.dst, Cx.checkRange_of_refuseOperands h.ops, h.ops, hpoison]

end Copies

/-- Settles O9, from the meaning of a local COPY: the read and the store, or the poison found. -/
theorem copyCompletes : Obligations.CopyCompletes := by
  refine ⟨?copies, fun rto src => rfl, ?poisoned⟩
  case copies =>
    intro s st num cmd hstart c f src dst n conv z hconv hwhole hsrc hdst hops hclean r b d
    have hbody : bodyCopy st f c = ((d.hubWrite dst b.1).noteWrite st dst, .done stOk b.1.length) := by
      rw [bodyCopy_of_clean ⟨rfl, hconv, hwhole, hsrc, hdst, hops⟩ hclean, Cx.copyOut, hdst]
      rfl
    exact congrArg s.go (Cx.runStream_done hstart hbody)
  case poisoned =>
    intro s st num cmd off hstart c f n z hconv hwhole hsrc hdst hops hpoison
    exact congrArg s.go
      (Cx.runStream_done hstart (bodyCopy_of_poison ⟨rfl, hconv, hwhole, hsrc, hdst, hops⟩ hpoison))

end Sys2Proof.Machine
end

section
/-!
PROOF. Access messages of other nodes (R64, R156, R336, R355, Table 13.5).
-/
namespace Sys2Proof.Machine

/-! ### A message that waits at a port -/

/-- The message is taken from its port and then acts. -/
theorem Cx.onMsg_arrived {c : Cx} {p : Nat} {m : Msg} {op : Nat} (act : Cx → Cx) (hop : m.op.toNat = op)
    (harrived : c.arrived p m = true) : c.onMsg p m op act = act (c.consume p m) := by
  simp [Cx.onMsg, hop, harrived]

section Messages

variable {s : State} {p : Fin 13} {m : Msg} (harrived : s.cx.arrived p m = true)

include harrived

theorem exec_write_stores (hop : m.op.toNat = 0x01)
    (hcheck : (s.cx.consume p m).remoteCheck ((s.cx.consume p m).msgDie p) .write m.addr.toNat m.data.length = none) :
    exec (.write p m) s =
      s.go (((s.cx.consume p m).hubWrite m.addr.toNat m.data).respond m 0x03 0#64 0#64 [] [stOk, 0]) := by
  change execWrite p m s = _
  rw [execWrite, Cx.onMsg_arrived _ hop harrived, hcheck]

theorem exec_read_answers (hop : m.op.toNat = 0x02)
    (hcheck : (s.cx.consume p m).remoteCheck ((s.cx.consume p m).msgDie p) .read m.addr.toNat m.size = none)
    (hclean : (s.cx.consume p m).hubPoison m.addr.toNat m.size = none) :
    exec (.read p m) s = s.go (((s.cx.consume p m).hubRead m.addr.toNat m.size).1.respond m 0x04 0#64 0#64
      ((s.cx.consume p m).hubRead m.addr.toNat m.size).2 [stOk, 0]) := by
  change execRead p m s = _
  rw [execRead, Cx.onMsg_arrived _ hop harrived]
  simp only [hcheck, hclean]

/-- A push whose turn has come, at a queue of the image with room, goes on to its entry. -/
theorem exec_fabQueuePush_appends (hop : m.op.toNat = 0x08) {q : Nat} (hq : q = bits m.arg.toNat 8 0)
    (hroom : s.cx.queueFull q = false)
    (hturn : s.cx.myTurn { q := q, pop := false, who := 4096 + p.val, num := msgTurn m } = true)
    (hok : (s.cx.consume p m).queueOk q = true)
    (haway : (s.cx.consume p m).queueAway ((s.cx.consume p m).msgDie p) q = none)
    (hsize : m.data.length ≤ (s.cx.consume p m).streamsRec.entryBytes) :
    exec (.fabQueuePush p m) s = s.go ((((s.cx.consume p m).setQueue q ((s.cx.consume p m).queue q ++
      [⟨m.arg.extractLsb' 32 32, m.data⟩])).leaveTurn
        { q := q, pop := false, who := 4096 + p.val, num := msgTurn m }).respond m 0x09 0#64 0#64 [] [stOk, 0]) := by
  subst hq
  change execFabQueuePush p m s = _
  rw [execFabQueuePush, Cx.onMsg_arrived _ hop harrived]
  simp [hroom, hturn, hok, haway, Nat.not_lt.2 hsize]

end Messages

/-- Settles O12, from what each of the five messages does once it is taken from its port. -/
theorem remoteAccessMessages : Obligations.RemoteAccessMessages := by
  refine ⟨?write, ?read, ?fence, ?signal, ?push⟩
  case write =>
    intro s p m hop harrived c hcheck
    exact exec_write_stores harrived hop hcheck
  case read =>
    intro s p m hop harrived c hcheck hclean
    exact exec_read_answers harrived hop hcheck hclean
  case fence =>
    intro s p m hop harrived
    exact congrArg s.go (Cx.onMsg_arrived _ hop harrived)
  case signal =>
    intro s p m hop harrived
    exact congrArg s.go (Cx.onMsg_arrived _ hop harrived)
  case push =>
    intro s p m hop harrived c q t _ _ hroom hturn hok haway hsize
    exact exec_fabQueuePush_appends harrived hop rfl hroom hturn hok haway hsize

end Sys2Proof.Machine
end

section
/-!
PROOF. Completion records, timeouts, pauses and re-initialisations of streams (R149 to R151, R155, R161, R162).
-/
namespace Sys2Proof.Machine

/-- A bit of a word, as a bit of the number that the word spells. -/
theorem bit_toNat {n : Nat} (v : BitVec n) (i : Nat) : bit v.toNat i = v.getLsbD i :=
  (Nat.testBit_eq_decide_div_mod_eq ..).symm

/-! ### Streams beside ports and events -/

@[simp] theorem Cx.strm_modPort (c : Cx) (p : Side) (f : Port → Port) (n : Nat) :
    (c.modPort p f).strm n = c.strm n := by
  simp [Cx.strm]

@[simp] theorem Cx.strm_ev (c : Cx) (code cls sev : Nat) (d : Side) (idx : Nat) (fs : List Nat) (st : Option Step)
    (t : Option Nat) (n : Nat) : (c.ev code cls sev d idx fs st t).strm n = c.strm n := by
  simp [Cx.strm]

/-! ### The completion record (R149) -/

/-- The record of a command that has ended can be written at its place: the stream processor serves, and the place
passes the checks of R64, R65 and R17. -/
structure Completes (c : Cx) (st : StreamId) (f : Flight) (rest : List Flight) (d : Side) (desc : Desc) (a : Nat) :
    Prop where
  flights : (c.strm st.toNat).flights = f :: rest
  serving : (c.strm st.toNat).serving = some d
  status : f.status ≠ none
  owed : f.owed = 0
  serves : c.serves d = true
  descriptor : f.desc = some desc
  place : a = desc.completionBase.toNat + 32 * (f.number.toNat % 2 ^ desc.complLog2)
  host : bits a 63 60 = 4 →
    (c.port (Side.ofNum (bits a 57 57))).up = true ∧ (c.port (Side.ofNum (bits a 57 57))).busMaster = true
  range : c.checkRange .write a 32 = none
  reach : c.unreachable? d a = none

section Completion

variable {s : State} {st : StreamId} {f : Flight} {rest : List Flight} {d : Side} {desc : Desc} {a : Nat}
  (h : Completes s.cx st f rest d desc a)

include h

theorem Completes.not_hostDown : s.cx.hostDown a = false := by
  by_cases hhost : bits a 63 60 = 4
  · simp [Cx.hostDown, (h.host hhost).1]
  · simp [Cx.hostDown, hhost]

theorem Completes.mastered : (decide (bits a 63 60 = 4) && (s.cx.port (Side.ofNum (bits a 57 57))).up &&
    !(s.cx.port (Side.ofNum (bits a 57 57))).busMaster) = false := by
  by_cases hhost : bits a 63 60 = 4
  · simp [(h.host hhost).2]
  · simp [hhost]

/-- The record is written and the command retires; its interrupt, its halt on error and the ends of a re-initialisation
and of a disable follow. -/
theorem exec_completionWrite_writes (ticks : Nat) :
    let e := ((s.cx.releaseOwn st f).accessWrite a (f.record ticks desc.complLog2 s.cx.ticks)).retireCommand st f ticks
      d true
    let e := if f.cmd.getLsbD 9 ∧ desc.msix ≠ 0 then e.msix (desc.irqPort d) desc.msix else e
    let e := if f.cmd.getLsbD 10 ∧ success (f.finalStatus ticks) = false ∧ (s.cx.strm st.toNat).st ≠ .reinit
      then e.haltStream st 7 f.number (s.cx.strm st.toNat).gen else e
    exec (.completionWrite st ticks true) s = s.go (e.endReinit st).endDisable := by
  have hdown := h.not_hostDown
  have hmaster := h.mastered
  change execCompletionWrite st ticks true s = _
  simp only [execCompletionWrite, h.flights, h.serving, h.descriptor, ← h.place, hmaster]
  simp [h.status, h.owed, h.serves, h.range, h.reach, hdown, bit_toNat, and_assoc]

end Completion

/-! ### COMMAND_TIMEOUT (R151, R155) -/

theorem exec_commandTimeout_ends {s : State} {st : StreamId} {num : W32} {f : Flight}
    (hflight : s.cx.flight? st num = some f) (hopen : f.status = none) (htimeout : f.timeout ≠ 0)
    (hphase : ¬ (f.op = 0x33 ∧ 2 ≤ f.phase)) :
    exec (.commandTimeout st num) s = s.go (({ s.cx with free := s.cx.free + 1 } : Cx).finish st num stRetry
      (Config.remainingWait s.cx.free).toNat 0#8) := by
  change execCommandTimeout st num s = _
  simp only [execCommandTimeout, hflight, hopen, Option.isSome_none, Bool.false_or, Bool.or_eq_true,
    decide_eq_true_eq, Bool.and_eq_true, htimeout, false_or, ge_iff_le, hphase, if_false]
  rfl

/-! ### STREAM_PAUSE and STREAM_REINIT (R161, R162) -/

/-- Doorbells of a stream leave a port. -/
def Port.dropBells (st : StreamId) (q : Port) : Port := { q with doorbells := q.doorbells.filter fun b => b.1 != st }

/-- A stream at the start of its re-initialisation. -/
def Stream.toReinit (x : Stream) : Stream :=
  { x with st := .reinit, halt := 0, desc := none, cache := [], waiting := [], fetching := false, routing := none }

/-- The selected stream begins its re-initialisation: what waits of it at the ports and at its processor is gone. -/
def Cx.beginReinit (c : Cx) (st : StreamId) : Cx :=
  ((c.modPort .A (Port.dropBells st)).modPort .B (Port.dropBells st)).modStrm st.toNat Stream.toReinit

theorem Cx.beginReinit_strm_self (c : Cx) (st : StreamId) :
    (c.beginReinit st).strm st.toNat = (c.strm st.toNat).toReinit := by
  simp [Cx.beginReinit]

section Selected

variable {s : State} {d : Side} (hserves : s.cx.serves d = true) (hown : s.cx.foreign d = false)

include hserves hown

theorem exec_streamPause_pauses :
    exec (.streamPause d) s = s.go (s.cx.modStrm (s.cx.selected d).toNat fun x =>
      { x with pauseBit := true, st := if x.st = .active then .paused else x.st }) := by
  change execStreamPause d s = _
  simp [execStreamPause, hserves, hown]

theorem exec_streamReinit_begins (hst : (s.cx.strm (s.cx.selected d).toNat).st ≠ .reinit) :
    exec (.streamReinit d) s =
      s.go ((s.cx.beginReinit (s.cx.selected d)).endReinit (s.cx.selected d)) := by
  change execStreamReinit d s = _
  simp only [execStreamReinit, hserves, hown, Bool.not_true, Bool.false_eq_true, if_false, beq_iff_eq, hst]
  rfl

theorem exec_streamReinit_again (hst : (s.cx.strm (s.cx.selected d).toNat).st = .reinit) :
    exec (.streamReinit d) s = s.go s.cx := by
  change execStreamReinit d s = _
  simp [execStreamReinit, hserves, hown, hst]

end Selected

/-- Started commands keep a re-initialisation open. -/
theorem Cx.endReinit_of_flights {c : Cx} {st : StreamId} (h : (c.strm st.toNat).flights ≠ []) : c.endReinit st = c := by
  simp [Cx.endReinit, h]

/-- A stream whose re-initialisation has ended with nothing waiting. -/
def Stream.reinitialised (x : Stream) : Stream :=
  { x with st := .idle, next := x.reinitNum, done := x.reinitNum - 1#32, last := none, pauseBit := false
           fetching := false, serving := none, routed := none, routing := none }

/-- An update of a stream acts on that stream as it stands. -/
theorem Cx.modStrm_congr {c : Cx} {n : Nat} {f h : Stream → Stream} (heq : f (c.strm n) = h (c.strm n)) :
    c.modStrm n f = c.modStrm n h := by
  rw [Cx.modStrm, heq, Cx.modStrm]

theorem Cx.endReinit_idle {c : Cx} {st : StreamId} (hst : (c.strm st.toNat).st = .reinit)
    (hflights : (c.strm st.toNat).flights = []) (hwaiting : (c.strm st.toNat).waiting = []) :
    c.endReinit st = (c.modStrm st.toNat Stream.reinitialised).ev 0x3005 6 0 ((c.strm st.toNat).serving.getD .A)
      ((c.strm st.toNat).serving.getD .A).num [st.toNat, (c.strm st.toNat).reinitNum.toNat] := by
  rw [← Cx.modStrm_congr (f := fun x => { x with
    st := .idle, next := x.reinitNum, done := x.reinitNum - 1#32, last := none
    pauseBit := false, fetching := !x.waiting.isEmpty, serving := if x.waiting.isEmpty then none else x.serving
    routed := none, routing := none }) (by simp [hwaiting, Stream.reinitialised])]
  simp [Cx.endReinit, hst, hflights]

/-- A re-initialisation of a stream without commands in flight begins and ends in one step. -/
theorem Cx.reinit_at_once (c : Cx) (st : StreamId) (hflights : (c.strm st.toNat).flights = []) :
    let e := (c.beginReinit st).endReinit st
    e.strm st.toNat = (c.strm st.toNat).toReinit.reinitialised ∧ (∀ n, n ≠ st.toNat → e.strm n = c.strm n) ∧
      e.mem = c.mem := by
  have hbegun := c.beginReinit_strm_self st
  intro e
  have he : e = _ := Cx.endReinit_idle (by rw [hbegun]; rfl) (by rw [hbegun]; exact hflights) (by rw [hbegun]; rfl)
  refine ⟨?_, fun n hn => ?_, ?_⟩
  · rw [he, Cx.strm_ev, Cx.modStrm_strm_self, hbegun]
  · rw [he, Cx.strm_ev, Cx.modStrm_strm_ne _ _ hn, Cx.beginReinit, Cx.modStrm_strm_ne _ _ hn, Cx.strm_modPort,
      Cx.strm_modPort]
  · rw [he, Cx.ev_mem, Cx.modStrm_mem, Cx.beginReinit, Cx.modStrm_mem, Cx.modPort_mem, Cx.modPort_mem]

/-- Settles O15, from the written record, the timeout, the pause and the three states that a re-initialisation finds. -/
theorem recordsAndStreamControl : Obligations.RecordsAndStreamControl := by
  refine ⟨?record, ?timeout, ?pause, ?reinit, ?drains, ?again⟩
  case record =>
    intro s st ticks f rest d desc c x a hflights hserving hstatus howed hserves hdesc hhost hrange hreach
    exact exec_completionWrite_writes
      ⟨hflights, hserving, hstatus, howed, hserves, hdesc, rfl, hhost, hrange, hreach⟩ ticks
  case timeout =>
    intro s st num f hflight hopen htimeout hphase
    exact ⟨_, exec_commandTimeout_ends hflight hopen htimeout hphase⟩
  case pause =>
    intro s d hserves hown
    exact exec_streamPause_pauses hserves hown
  case reinit =>
    intro s d hserves hown hflights hst
    obtain ⟨hself, hothers, hmem⟩ := s.cx.reinit_at_once (s.cx.selected d) hflights
    refine ⟨_, exec_streamReinit_begins hserves hown hst, rfl, ?_⟩
    intro x y
    have hy : y = x.toReinit.reinitialised := hself
    rw [hy]
    exact ⟨rfl, rfl, rfl, rfl, rfl, rfl, rfl, rfl, hflights, hothers, Cx.byte_of_mem hmem⟩
  case drains =>
    intro s d hserves hown hflights hst drop
    rw [exec_streamReinit_begins hserves hown hst,
      Cx.endReinit_of_flights (by rw [Cx.beginReinit_strm_self]; exact hflights)]
    rfl
  case again =>
    intro s d hserves hown hst
    exact exec_streamReinit_again hserves hown hst

end Sys2Proof.Machine
end

section
/-!
PROOF. Reads of versions: GATHER, EXPORT and GATHER_REQ (R78, R259 to R264, R322).
-/
namespace Sys2Proof.Machine

/-! ### Windows that serve a version -/

/-- A version that every window serves gives no status. -/
theorem worstRead_of_served {c : Cx} {ws : List Nat} {latest spec : Bool} {ver : Version} {arr : Nat}
    (h : ∀ w ∈ ws, c.readStatus w latest ver spec arr = none) :
    worstRead (ws.map fun w => (w, c.readStatus w latest ver spec arr)) = none := by
  have hpick (k : Nat) :
      ((ws.map fun w => (w, c.readStatus w latest ver spec arr)).find? fun p => p.2 = some k) = none := by
    rw [List.find?_eq_none]
    intro p hp
    obtain ⟨w, hw, rfl⟩ := List.mem_map.1 hp
    simp [h w hw]
  simp [worstRead, hpick]

/-- Windows that a command can read at a version now: their ledgers can be reached, they are resident, and they serve
the version. -/
structure Readable (c : Cx) (st : StreamId) (ws : List Nat) (latest : Bool) (ver : Version) : Prop where
  reached : ∀ w ∈ ws, c.needsTwin (c.dieOf st) (winStack w) = false
  resident : c.demandAll ws = (c, true)
  served : ∀ w ∈ ws, c.readStatus w latest ver false 0 = none

theorem Readable.any_needsTwin {c : Cx} {st : StreamId} {ws : List Nat} {latest : Bool} {ver : Version}
    (h : Readable c st ws latest ver) : (ws.any fun w => c.needsTwin (c.dieOf st) (winStack w)) = false := by
  rw [List.any_eq_false]
  exact fun w hw => ne_true_of_eq_false (h.reached w hw)

/-! ### GATHER (R260) -/

/-- Runs of bytes without poison give no first poisoned byte. -/
theorem foldl_poison_none {c : Cx} {keys : List (Nat × Nat)} (h : ∀ p ∈ keys, c.hubPoisonIn p.1 p.2 = none) (m : Nat) :
    (keys.foldl (fun (a : Option Nat × Nat) p => (a.1 <|> (c.hubPoisonIn p.1 p.2).map (· + a.2), a.2 + p.2))
      (none, m)).1 = none := by
  induction keys generalizing m with
  | nil => rfl
  | cons p keys ih =>
    obtain ⟨hp, hkeys⟩ := List.forall_mem_cons.1 h
    simpa [hp] using ih hkeys (m + p.2)

/-- Holding slots leaves the window map. -/
@[simp] theorem Cx.win?_holdSlots (c : Cx) (st : StreamId) (num : W32) (ws : List Nat) (latest : Bool) (ver : Version)
    (spec : Bool) (w : Nat) : (c.holdSlots st num ws latest ver spec).win? w = c.win? w :=
  foldl_keeps (fun e : Cx => e.win? w) (fun e x => by split <;> rfl) ws c

/-- A GATHER of weights whose operands are in order. -/
structure GathersWeights (c : Cx) (st : StreamId) (f : Flight) (t : Tensor) : Prop where
  tensor : c.tensor? f.tensor = some t
  pos : 0 < f.arg 24 31 0
  count : f.arg 16 63 24 + f.arg 24 31 0 ≤ t.count
  arr : f.arg 40 4 2 = 0
  spec : f.bit 40 1 = false
  debug : f.bit 40 5 = false
  dest : c.badOperand? st f .write 3 (f.arg 32 63 0) (2 * f.arg 24 31 0) = none
  bound : c.boundAway st f.tensor = false

/-- A GATHER of weights that the windows serve holds the slots it reads and stores their bytes. -/
theorem bodyGather_reads {c : Cx} {st : StreamId} {f : Flight} {t : Tensor} {parts : List (Nat × Nat × Nat)}
    {latest : Bool} {ver : Version} (h : GathersWeights c st f t)
    (hparts : parts = c.runParts t (f.arg 16 63 24) (f.arg 24 31 0) 0) (hlatest : latest = f.bit 40 0)
    (hver : ver = BitVec.ofNat 32 (f.arg 24 63 32)) (hread : Readable c st (parts.map (·.1)) latest ver)
    (hclean : ∀ p ∈ parts, c.hubPoisonIn (c.versionKey p.1 latest ver false 0 p.2.1) p.2.2 = none) :
    let vs := (parts.map (·.1)).map fun w => ((c.win? w).map fun v => v.served latest ver).getD 0#32
    bodyGather st f c = ((c.holdSlots st f.number (parts.map (·.1)) latest ver false).hubWrite (f.arg 32 63 0)
      (parts.flatMap fun p => c.hubBytes (c.versionKey p.1 latest ver false 0 p.2.1) p.2.2),
      .done stOk ((vs.headD 0#32).toNat + 2 ^ 32 * b2n (vs.any fun v => v != vs.headD 0#32))) := by
  have hkeys := foldl_poison_none (c := c)
    (keys := parts.map fun p => (c.versionKey p.1 latest ver false 0 p.2.1, p.2.2)) (List.forall_mem_map.2 hclean) 0
  have harr : ¬ (0 : Nat) = 4 := by decide
  have hpos : ¬ f.arg 24 31 0 = 0 := h.pos.ne'
  have hcount : ¬ t.count < f.arg 16 63 24 + f.arg 24 31 0 := h.count.not_gt
  simp only [bodyGather, h.tensor, h.arr, h.spec, h.debug, ← hparts, ← hlatest, ← hver, hread.any_needsTwin, harr,
    if_false, hread.resident, worstRead_of_served hread.served, hkeys, Cx.win?_holdSlots, List.flatMap_map]
  simp [h.bound, h.dest, hpos, hcount, arrayBytes]

/-! ### EXPORT (R264) -/

/-- What EXPORT writes for a window at a version: its image, encrypted with a key slot. -/
def Cx.exported (c : Cx) (latest : Bool) (ver : Version) (key w : Nat) : List Byte :=
  match c.win? w with
  | none => []
  | some v => c.crypt false key v.tensor v.k (exportImage v (v.served latest ver) (v.stepOf (v.served latest ver))
      (c.hubBytes (c.versionKey w latest ver false 0 0) (2 * v.valid)))

/-- An EXPORT whose operands are in order. -/
structure ExportsRun (c : Cx) (st : StreamId) (f : Flight) (t : Tensor) (ws : List Nat) : Prop where
  run : c.runOf f = some (t, ws)
  space : bits (f.arg 32 63 0) 63 60 = 2 ∨ bits (f.arg 32 63 0) 63 60 = 4
  key : c.badKey (f.arg 40 3 1) = false
  dest : c.badOperand? st f .write 3 (f.arg 32 63 0) (t.imageBytes f.first f.count) = none
  bound : c.boundAway st f.tensor = false

/-- An EXPORT that the windows serve holds the slots it reads and stores their images. -/
theorem bodyExport_reads {c : Cx} {st : StreamId} {f : Flight} {t : Tensor} {ws : List Nat} {latest : Bool}
    {ver : Version} (h : ExportsRun c st f t ws) (hlatest : latest = f.bit 40 0)
    (hver : ver = BitVec.ofNat 32 (f.arg 24 63 32)) (hread : Readable c st ws latest ver) (hclean : ∀ i, i < f.count →
      c.hubPoisonIn (c.versionKey (ws.getD i 0) latest ver false 0 0) (2 * t.valid (f.first + i)) = none) :
    let data := ws.flatMap (c.exported latest ver (f.arg 40 3 1))
    bodyExport st f c =
      ((c.holdSlots st f.number ws latest ver false).hubWrite (f.arg 32 63 0) data, .done stOk data.length) := by
  have hbad : ((List.range f.count).findSome? fun i =>
      (c.hubPoisonIn (c.versionKey (ws.getD i 0) latest ver false 0 0) (2 * t.valid (f.first + i))).map fun o =>
        t.imageOff f.first i + 64 + o) = none := by
    rw [List.findSome?_eq_none_iff]
    intro i hi
    rw [hclean i (List.mem_range.1 hi), Option.map_none]
  have hspace : ((bits (f.arg 32 63 0) 63 60 != 2 && bits (f.arg 32 63 0) 63 60 != 4) || c.badKey (f.arg 40 3 1)) =
      false := by
    rcases h.space with h2 | h4
    · simp [h2, h.key]
    · simp [h4, h.key]
  simp only [bodyExport, h.run, hspace, h.dest, h.bound, ← hlatest, ← hver, hread.any_needsTwin, hread.resident,
    worstRead_of_served hread.served, hbad]
  rfl

/-! ### GATHER_REQ (R262) -/

/-- A request of a module for elements of one window that serves the version it asks for. -/
structure RequestServed (c : Cx) (m : Nat) (hdr : BitVec 256) (t : Tensor) (w : Nat) (v : Win) : Prop where
  run : c.badRun (bits hdr.toNat 39 16) (bits hdr.toNat 79 40) (bits hdr.toNat 92 80) 4096
    (bits hdr.toNat 7 0 != 3 || bits hdr.toNat 15 9 != 0 || bits hdr.toNat 95 93 != 0 || bits hdr.toNat 127 112 != 0 ||
      bits hdr.toNat 255 160 != 0) = none
  tensor : c.tensor? (bits hdr.toNat 39 16) = some t
  window : w = c.windowId t (bits hdr.toNat 79 40 / 1048576)
  win : c.win? w = some v
  free : c.stackBusy (winStack w) = false
  reached : c.needsTwin (moduleDie m) (winStack w) = false
  served : c.readStatus w (bit hdr.toNat 8) (BitVec.ofNat 32 (bits hdr.toNat 159 128)) false 0 = none

section Request

variable {c : Cx} {m : Nat} {hdr : BitVec 256} {t : Tensor} {w : Nat} {v : Win} (h : RequestServed c m hdr t w v)

include h

/-- A resident window's elements are answered, with the delay of a request that has waited. -/
theorem Cx.gatherAnswer_resident {latest : Bool} {ver : Version} {key : Nat} (late : Option Nat)
    (hlatest : latest = bit hdr.toNat 8) (hver : ver = BitVec.ofNat 32 (bits hdr.toNat 159 128))
    (hkey : key = c.versionKey w latest ver false 0 (2 * (bits hdr.toNat 79 40 % 1048576)))
    (hresident : v.resident = true) (hclean : c.hubPoisonIn key (2 * bits hdr.toNat 92 80) = none) :
    c.gatherAnswer m hdr late = (c.emit (.gatherResp m (if late.isSome then stSlow else stOk)
      (delayBucket (late.getD 0)) (bits hdr.toNat 111 96) (BitVec.ofNat 32 (v.served latest ver).toNat)
      (c.hubBytes key (2 * bits hdr.toNat 92 80))), true) := by
  subst hlatest hver hkey
  simp only [Cx.gatherAnswer, h.run, h.tensor, ← h.window, h.win, h.free, h.reached, h.served, hresident, hclean]
  rfl

/-- The promotion of a window that is away is demanded, and the request waits (R322). -/
theorem Cx.gatherAnswer_away (late : Option Nat) (haway : v.resident = false) :
    c.gatherAnswer m hdr late = (c.demandState w, false) := by
  simp only [Cx.gatherAnswer, h.run, h.tensor, ← h.window, h.win, h.free, h.reached, h.served, haway]
  rfl

end Request

/-- A request of a module that is up reaches the shell of its die. -/
theorem exec_gatherReq_asks {s : State} {m : Fin 64} (hdr : BitVec 256) (hup : kget? s.cx.modules m.val ≠ none)
    (henabled : s.cx.enabled = true) (hshell : s.cx.shellServes (moduleDie m.val) = true) :
    exec (.gatherReq m hdr) s = s.go (if (s.cx.gatherAnswer m.val hdr none).2 then (s.cx.gatherAnswer m.val hdr none).1
      else { (s.cx.gatherAnswer m.val hdr none).1 with
        gatherHeld := (s.cx.gatherAnswer m.val hdr none).1.gatherHeld ++
          [{ m := m.val, hdr := hdr, since := s.cx.ticks, die := s.cx.gatherDie m.val hdr }] }) := by
  change execGatherReq m hdr s = _
  simp [execGatherReq, hup, henabled, hshell]

/-- Settles O34, from the meanings of GATHER and EXPORT on windows that serve the version, and the three answers of a
GATHER_REQ. -/
theorem versionReadsComplete : Obligations.VersionReadsComplete := by
  refine ⟨?gathers, ?exports, ?requests⟩
  case gathers =>
    intro s st num cmd t hstart c f e n ver latest parts ws htensor hsome hcount harr hspec hdebug hdest hbound hreached
      hresident hserved hclean data vs
    exact congrArg s.go (Cx.runStream_done hstart (bodyGather_reads
      ⟨htensor, hsome, hcount, harr, hspec, hdebug, hdest, hbound⟩ rfl rfl rfl ⟨hreached, hresident, hserved⟩ hclean))
  case exports =>
    intro s st num cmd t ws hstart c f ver dest latest key hrun hspace hkey hdest hbound hreached hresident hserved
      hclean data
    exact congrArg s.go (Cx.runStream_done hstart (bodyExport_reads ⟨hrun, hspace, hkey, hdest, hbound⟩ rfl rfl
      ⟨hreached, hresident, hserved⟩ hclean))
  case requests =>
    intro s m hdr t v c f w latest ver key hup henabled hshell hrun htensor hwin hfree hreached hserved
    have h : RequestServed c m.val hdr t w v := ⟨hrun, htensor, rfl, hwin, hfree, hreached, hserved⟩
    refine ⟨fun hresident hclean => ?_, fun haway => ?_, fun dt hresident hclean => ?_⟩
    · rw [exec_gatherReq_asks hdr hup henabled hshell, Cx.gatherAnswer_resident h none rfl rfl rfl hresident hclean]
      rfl
    · rw [exec_gatherReq_asks hdr hup henabled hshell, Cx.gatherAnswer_away h none haway]
      rfl
    · exact Cx.gatherAnswer_resident h (some dt) rfl rfl rfl hresident hclean

end Sys2Proof.Machine
end

section
/-!
PROOF. UPDATE, its passes and the commit along the step protocol (R80, R216, R237, R238, R243 to R258, R267).
-/
namespace Sys2Proof.Machine

/-! ### Commands that wait are tried again -/

/-- A waiting command whose meaning now ends it. -/
theorem Cx.runStream_resumes {c e : Cx} {st : StreamId} {op : Nat} {body : Body} {f : Flight} {status result : Nat}
    {fl : Flags} (h : Resumes c st op f) (hb : body st f c = (e, .done status result fl)) :
    c.runStream op body st = e.finish st f.number status result fl := by
  have hretry : c.runStream op body st = c.retryStream op body st := by
    unfold Cx.runStream
    split
    case h_1 next hnext => rw [if_neg (h.next next hnext)]
    case h_2 => rfl
  rw [hretry, Cx.retryStream, h.only, List.foldl_cons, List.foldl_nil, Cx.runFlight, h.here]
  simp [h.open_, hb, Cx.settle]

/-! ### UPDATE (R245 to R252) -/

@[simp] theorem Cx.disabling_modFlight (c : Cx) (st : StreamId) (num : W32) (g : Flight → Flight) :
    (c.modFlight st num g).disabling = c.disabling := rfl

@[simp] theorem Cx.disabling_arm (c : Cx) (n : Step) : (c.arm n).disabling = c.disabling := by
  unfold Cx.arm
  split
  · rfl
  · split <;> rfl

/-- An UPDATE with windows still to do, all resident and reached, waits for them. -/
theorem updateGo_waits {st : StreamId} {f : Flight} {c : Cx} {ws : List Nat} {outs : List (Nat × WinOut)}
    (hmode : f.mode = 0) :
    let os := outs.map (c.idleOutcome f.step false)
    let todo := (os.filter fun p => p.2 == .todo).map (·.1)
    let e := c.modFlight st f.number fun g => { g with wins := os, phase := 1 }
    todo ≠ [] → e.anyBusy ws = false → e.cutOff st ws = false → e.demandAll todo = (e, true) →
    (∀ w ∈ todo, (e.win? w).any (fun v => !v.resident) = false) →
    updateGo st f c ws outs = (e, .wait .peerCommit) := by
  intro os todo e htodo hbusy hcut hdemand hresident
  have hmore : (os.all fun p => p.2 != .todo) = false := by
    by_contra hall
    simp only [Bool.not_eq_false, List.all_eq_true, bne_iff_ne] at hall
    exact htodo (by simpa [todo, List.filter_eq_nil_iff] using fun w o hp => hall (w, o) hp)
  have hslow : (todo.any fun w => (e.win? w).any fun v => !v.resident) = false :=
    List.any_eq_false.2 fun w hw => ne_true_of_eq_false (hresident w hw)
  have hspeculates : decide (f.mode = 1) = false := by simp [hmode]
  simp only [updateGo, hspeculates, hmore, hbusy, hcut, hslow, hdemand, todo, e, os]
  simp [hmode]

/-- An UPDATE whose windows all have their outcomes ends. -/
theorem updateGo_ends {st : StreamId} {f : Flight} {c : Cx} {ws : List Nat} {outs : List (Nat × WinOut)} :
    let os := outs.map (c.idleOutcome f.step (f.mode = 1))
    let e := c.modFlight st f.number fun g => { g with wins := os, phase := 1 }
    (∀ p ∈ os, p.2 ≠ .todo) → e.allFenced ws = false ∨ (∀ p ∈ os, p.2 ≠ .untouched) →
    updateGo st f c ws outs = (e, .done stOk (updateResult os)) := by
  intro os e hdone hserved
  have hall : (os.all fun p => p.2 != .todo) = true := by simpa using hdone
  have hrefused : (e.allFenced ws && os.any fun p => p.2 == .untouched) = false := by
    rcases hserved with hfenced | htouched
    · rw [hfenced, Bool.false_and]
    · rw [List.any_eq_false.2 fun p hp => by simpa using htouched p hp, Bool.and_false]
  simp only [updateGo, hall, hrefused, os, e]
  rfl

/-- A SPECULATE UPDATE with a good table records its windows, and its progress decides. -/
theorem bodyUpdate_speculates {st : StreamId} {f : Flight} {c : Cx} {t : Tensor} {ws : List Nat} {tb : StepTable}
    (hrun : c.runOf f = some (t, ws)) (hmode : f.mode = 0) (hphase : f.phase = 0)
    (hbound : (c.arm f.step).boundAway st f.tensor = false) (htable : (c.arm f.step).takeTable st f t ws = .inl tb)
    (hfenced : (c.arm f.step).allFenced ws = false) :
    let outs := ws.map fun w => (w, WinOut.todo)
    bodyUpdate st f c = updateGo st f ((c.arm f.step).modFlight st f.number fun g =>
      { g with table := some tb, phase := 1, wins := outs }) ws outs := by
  simp [bodyUpdate, hrun, hmode, hphase, hbound, htable, hfenced]

theorem bodyUpdate_resumes {st : StreamId} {f : Flight} {c : Cx} {t : Tensor} {ws : List Nat}
    (hrun : c.runOf f = some (t, ws)) (hmode : f.mode = 0 ∨ f.mode = 1) (hphase : f.phase = 1) :
    bodyUpdate st f c = updateGo st f c ws f.wins := by
  have hmode2 : f.mode ≠ 2 := by omega
  have hmode3 : f.mode ≠ 3 := by omega
  simp [bodyUpdate, hrun, hmode2, hmode3, hphase]

/-- An ABANDON that leaves no window to finish ends with the number of the windows it returned. -/
theorem abandonGo_ends {st : StreamId} {f : Flight} {c : Cx} {t : Tensor} {ws act : List Nat} (hphase : f.phase = 0)
    (hact : act = ws.filter (c.abandonable f.step)) (hsome : act ≠ []) (hkeep : ws.filter (c.finishing f.step) = []) :
    let d := ((act.foldl (fun c w => c.abandonWin w f.step) c).sayAbandoned t.handle f.step (c.dieOf st) 1
      act.length).serveGrads
    abandonGo st f c t ws = (d.modFlight st f.number fun g => { g with phase := 1, worst := act.length, wins := [] },
      .done stOk act.length) := by
  simp only [abandonGo, hphase, hkeep, ← hact, List.isEmpty_eq_false_iff.2 hsome]
  rfl

theorem bodyUpdate_abandons {st : StreamId} {f : Flight} {c : Cx} {t : Tensor} {ws : List Nat}
    (hrun : c.runOf f = some (t, ws)) (hmode : f.mode = 2) (hnoTable : f.arg 40 63 0 = 0)
    (hbound : c.boundAway st f.tensor = false) (hcut : c.cutOff st ws = false) :
    bodyUpdate st f c = abandonGo st f (c.arm f.step) t ws := by
  simp [bodyUpdate, hrun, hmode, hnoTable, hbound, hcut]

/-! ### A pass starts and ends (R216, R231, R244, R267) -/

/-- Statistics that a pass's FSTAT may compute now are no other step's. -/
theorem Cx.not_statsEarlier_of_fstatReady {c : Cx} {k : Nat} {t : Tensor} {n : Step} {direct : Bool}
    (h : c.fstatReady k t n direct = true) : c.statsEarlier k t n = false := by
  simp only [Cx.fstatReady, Bool.or_eq_true, Bool.and_eq_true, Bool.not_eq_true', decide_eq_true_eq] at h
  rcases h with hplain | ⟨hcommitted | hsame, _⟩
  · simp [Cx.statsEarlier, hplain]
  · simp [Cx.statsEarlier, hcommitted]
  · simp [Cx.statsEarlier, hsame]

/-- With a free slot, the table, and statistics that do not hold it back, a pass begins. -/
theorem Cx.startPass_begins {c : Cx} {w slot : Nat} {v : Win} {t : Tensor} {n : Step} {next : WSt} {direct : Bool}
    {clip : W32} {q : StreamId × Flight} {tb : StepTable} (hslot : c.freeSlot (winStack w) = some slot)
    (htable : q.2.table = some tb)
    (hstats : (hasFstat (c.programOf w t) && !c.statsRan (winStack w) t.handle n clip) = false ∨
      c.fstatReady (winStack w) t n direct = true) :
    c.startPass w v t n next direct clip q =
      (c.modWin w fun u => { u with st := next, hold := true }).beginPass w slot v t n clip q.1 q.2 tb := by
  rcases hstats with hnone | hready
  · simp [Cx.startPass, hslot, htable, hnone]
  · simp [Cx.startPass, hslot, htable, hready, Cx.not_statsEarlier_of_fstatReady hready]

section Window

variable {s : State} {w : BitVec 19} {v : Win} (hwin : s.cx.win? w.toNat = some v)

include hwin

/-- A held window of a step that has no verdict yet begins its pass speculatively. -/
theorem exec_pass2Start_speculates {t : Tensor} {n : Step} {q : StreamId × Flight}
    (htensor : s.cx.tensor? v.tensor = some t)
    (hnopass : v.pass = none) (hfenced : v.fenced = false) (hresident : v.resident = true)
    (hengine : s.cx.engineHalted (winStack w.toNat) = false) (hpyro : s.cx.pyroBlocked w.toNat v = false)
    (hst : v.st = .held n) (hfresh : v.stale n = false) (hdemand : s.cx.demand? w.toNat (some n) false = some q)
    (hrunning : s.cx.running (winStack w.toNat) < 8) (hverdict : s.cx.verdictFor v n = none) :
    exec (.pass2Start w) s = s.go (s.cx.startPass w.toNat v t n (.specRun n) false f32One q) := by
  change execPass2Start w s = _
  simp [execPass2Start, hwin, htensor, hnopass, hfenced, hresident, hengine, hpyro, hst, hfresh, hdemand,
    Nat.not_le.2 hrunning, hverdict]

/-- A pass whose statistics are ready runs to its end. -/
theorem exec_pass2End_ends {u : Win} {p q : Pass} {t : Tensor} (hpass : v.pass = some p)
    (htensor : s.cx.tensor? v.tensor = some t) (hengine : s.cx.engineHalted (winStack w.toNat) = false)
    (hgrants : s.cx.grantLimit (winStack w.toNat) ≠ 0) (hstats : p.fstatDone = true)
    (hrun : (s.cx.runAll w.toNat).win? w.toNat = some u) (hlast : u.pass = some q) :
    exec (.pass2End w) s = s.go ((s.cx.runAll w.toNat).endPass w.toNat u q) := by
  change execPass2End w s = _
  simp [execPass2End, hwin, hpass, htensor, hengine, hgrants, hstats, hrun, hlast]

/-- The oldest copy of a retiring slot's W array to its stash slot ends (R80). -/
theorem exec_stashCopyDone_copies {n slot : Nat} {rest : List (Nat × Nat)} (hcopies : v.copies = (n, slot) :: rest) :
    exec (.stashCopyDone w) s = s.go ((s.cx.baseWrite (stackKey (winStack w.toNat) (s.cx.stashOff v.region n))
      (s.cx.dram (winStack w.toNat) (s.cx.slotOff slot + offW) 0x200000)).modWin w.toNat fun v =>
        { v with copies := rest }) := by
  change execStashCopyDone w s = _
  simp [execStashCopyDone, hwin, hcopies]

/-! ### The commit (R254) -/

section Committing

variable {n : Step} (hst : v.st = .committing n) (hheld : v.commitHeld = true)
  (hgo : s.cx.commitsWait (winStack w.toNat) = false)

include hst hheld hgo

/-- The version that an IMPORT or a SCRUB_TENANT staged. -/
theorem exec_commitRemap_imports {m : Option Step} (himport : v.importStep = some m) :
    exec (.commitRemap w) s =
      s.go (((s.cx.remap w.toNat v m).bumpLedger w.toNat 0x600).markImport w.toNat) := by
  change execCommitRemap w s = _
  simp [execCommitRemap, hwin, hst, hheld, hgo, himport]

section Stepped

variable {t : Tensor} (hstep : v.importStep = none)
  (htensor : (s.cx.remap w.toNat v (some n)).tensor? v.tensor = some t)

include hstep htensor

/-- The version of the step that the window works on, under a verdict other than REPLAY. -/
theorem exec_commitRemap_commits (hverdict : ∀ k, s.cx.verdictFor v n ≠ some (.replay k)) :
    exec (.commitRemap w) s = s.go ((((s.cx.remap w.toNat v (some n)).commitStats t (winStack w.toNat) n).bumpLedger
      w.toNat 0x600).markOut w.toNat n .committed) := by
  change execCommitRemap w s = _
  match hfor : s.cx.verdictFor v n with
  | none | some .commit | some .abandon => simp [execCommitRemap, hwin, hst, hheld, hgo, hstep, htensor, hfor]
  | some (.replay k) => exact absurd hfor (hverdict k)

theorem exec_commitRemap_replays {k : W32} (hverdict : s.cx.verdictFor v n = some (.replay k)) :
    exec (.commitRemap w) s = s.go (((((s.cx.remap w.toNat v (some n)).commitStats t (winStack w.toNat) n).bumpLedger
      w.toNat 0x600).markOut w.toNat n .replayed).bumpLedger w.toNat 0x604) := by
  change execCommitRemap w s = _
  simp [execCommitRemap, hwin, hst, hheld, hgo, hstep, htensor, hverdict]

end Stepped

end Committing

end Window

/-- A slot that no read holds returns to the free slots (R78). -/
theorem exec_slotRelease_frees {s : State} {stk : Fin 20} {slot : BitVec 20}
    (hleft : (s.cx.stk stk).releasing.contains slot.toNat = true)
    (hheld : (s.cx.heldSlots stk).contains slot.toNat = false) :
    exec (.slotRelease stk slot) s =
      s.go (s.cx.modStk stk fun k => { k with releasing := ndel k.releasing slot.toNat }) :=
  if_pos (by rw [hleft, hheld]; rfl)

/-- Settles O36, from the meanings of the three UPDATEs, and from what each row of a pass, a commit, a slot and an
engine does in the case that the clause names. -/
theorem updateProtocol : Obligations.UpdateProtocol := by
  refine ⟨?speculate, ?resume, ?abandon, ?start, ?finish, ?commit, ?stash, ?release, ?reinit, fun s stk => rfl⟩
  case speculate =>
    intro s st num cmd t ws tb hstart c f a hrun hmode hbound htable hfenced outs d os todo e htodo hbusy hcut hdemand
      hresident
    have hbody : bodyUpdate st f c = (e, .wait .peerCommit) :=
      (bodyUpdate_speculates hrun hmode rfl hbound htable hfenced).trans
        (updateGo_waits hmode htodo hbusy hcut hdemand hresident)
    have hdisabling : e.disabling = false := by
      rw [Cx.disabling_modFlight, Cx.disabling_modFlight, Cx.disabling_arm, hstart.not_disabling]
    exact congrArg s.go (Cx.runStream_wait hstart hbody hdisabling)
  case resume =>
    intro s st f t ws hresumes hrun hmode hphase os c hdone hserved
    exact congrArg s.go (Cx.runStream_resumes hresumes
      ((bodyUpdate_resumes hrun hmode hphase).trans (updateGo_ends hdone hserved)))
  case abandon =>
    intro s st num cmd t ws hstart c f a act hrun hmode hnoTable hbound hcut hact hkeep d
    exact congrArg s.go (Cx.runStream_done hstart
      ((bodyUpdate_abandons hrun hmode hnoTable hbound hcut).trans (abandonGo_ends rfl rfl hact hkeep)))
  case start =>
    intro s w v t n q slot tb hwin htensor hnopass hfenced hresident hengine hpyro hst hfresh hdemand hrunning hverdict
      hslot htable hstats
    rw [exec_pass2Start_speculates hwin htensor hnopass hfenced hresident hengine hpyro hst hfresh hdemand hrunning
      hverdict, Cx.startPass_begins hslot htable hstats, State.go]
  case finish =>
    intro s w v u p q t hwin hpass htensor hengine hgrants hstats hrun hlast
    exact exec_pass2End_ends hwin hpass htensor hengine hgrants hstats hrun hlast
  case commit =>
    intro s w v n hwin hst hheld hgo
    refine ⟨fun m himport => exec_commitRemap_imports hwin hst hheld hgo himport, fun t hstep _ htensor => ⟨?_, ?_⟩⟩
    · exact exec_commitRemap_commits hwin hst hheld hgo hstep htensor
    · exact fun k => exec_commitRemap_replays hwin hst hheld hgo hstep htensor
  case stash =>
    intro s w v n slot rest hwin hcopies
    exact exec_stashCopyDone_copies hwin hcopies
  case release =>
    intro s stk slot hleft hheld
    exact exec_slotRelease_frees hleft hheld
  case reinit =>
    intro s stk run cmds c step
    rfl

end Sys2Proof.Machine
end

section
/-!
PROOF. The remap of a window at its commit, read through the window map (R78, R80, R243, R254, R255).
-/
namespace Sys2Proof.Machine

/-! ### What the ledgers hold, and what leaves it alone -/

/-- What the ledgers hold of windows, requests and slots: the window map, the requests that wait for an entry, and the
slots of each stack that wait for release. -/
def Cx.ledgers (c : Cx) : List (Nat × Win) × List GradHeld × (Nat → List Nat) :=
  (c.wins, c.gradHeld, fun k => (c.stk k).releasing)

section Read

variable {c e : Cx} (h : c.ledgers = e.ledgers)

include h

theorem Cx.win?_of_ledgers (w : Nat) : c.win? w = e.win? w := by
  rw [Cx.win?, Cx.win?, show c.wins = e.wins from congrArg (·.1) h]

theorem Cx.gradHeld_of_ledgers : c.gradHeld = e.gradHeld := congrArg (·.2.1) h

theorem Cx.releasing_of_ledgers (k : Nat) : (c.stk k).releasing = (e.stk k).releasing :=
  congrArg (fun p => p.2.2 k) h

end Read

theorem Cx.ledgers_modStk (c : Cx) (s : Nat) {f : Stack → Stack} (hf : ∀ k, (f k).releasing = k.releasing) :
    (c.modStk s f).ledgers = c.ledgers := by
  refine congrArg (fun r => (c.wins, c.gradHeld, r)) (funext fun k => ?_)
  by_cases hk : k = s
  · rw [hk, Cx.modStk_stk_self, hf]
  · rw [Cx.modStk_stk_ne _ _ hk]

@[simp] theorem Cx.ledgers_ev (c : Cx) (code cls sev : Nat) (d : Side) (idx : Nat) (fs : List Nat) (st : Option Step)
    (t : Option Nat) : (c.ev code cls sev d idx fs st t).ledgers = c.ledgers := by
  simp [Cx.ledgers]

@[simp] theorem Cx.ledgers_bump (c : Cx) (off width : Nat) (d : Side) (n : Nat) :
    (c.bump off width d n).ledgers = c.ledgers := by
  simp [Cx.ledgers, Cx.stk]

theorem Cx.ledgers_clearPoison (c : Cx) (k : Nat) : (c.clearPoison k).ledgers = c.ledgers := by
  unfold Cx.clearPoison
  split
  · simp [Cx.ledgers, Cx.stk]
  · rfl

/-- A parity delta stands in a stack's queue or staging, apart from its slots. -/
theorem Cx.ledgers_parityDelta (c : Cx) (s off : Nat) (a b : Byte) : (c.parityDelta s off a b).ledgers = c.ledgers := by
  unfold Cx.parityDelta
  split
  · rfl
  · split
    · rfl
    · split
      · rfl
      · dsimp only
        split
        · refine (Cx.ledgers_modStk _ _ ?_).trans ?_
          · exact fun _ => rfl
          · split
            · exact (Cx.ledgers_ev ..).trans (Cx.ledgers_modStk c s fun _ => rfl)
            · rfl
        · exact Cx.ledgers_modStk c _ fun _ => rfl

theorem Cx.ledgers_poke1 (c : Cx) (k : Nat) (b : Byte) : (c.poke1 k b).ledgers = c.ledgers := by
  unfold Cx.poke1
  dsimp only
  split
  · exact Cx.ledgers_parityDelta ..
  · rfl

theorem Cx.ledgers_poke (c : Cx) (k : Nat) (bs : List Byte) : (c.poke k bs).ledgers = c.ledgers :=
  (foldl_keeps Cx.ledgers Cx.ledgers_clearPoison _ _).trans
    (foldl_keeps (fun p : Cx × Nat => p.1.ledgers) (fun _ _ => Cx.ledgers_poke1 ..) bs (c, k))

theorem Cx.ledgers_writeBack (c : Cx) (sel : Nat → Bool) : (c.writeBack sel).ledgers = c.ledgers :=
  (foldl_keeps Cx.ledgers (fun _ _ => Cx.ledgers_clearPoison ..) _ _).trans
    (foldl_keeps Cx.ledgers (fun _ _ => Cx.ledgers_poke1 ..) _ _)

theorem Cx.ledgers_commitStats (c : Cx) (t : Tensor) (s : Nat) (n : Step) :
    (c.commitStats t s n).ledgers = c.ledgers := by
  unfold Cx.commitStats
  split
  · exact (Cx.ledgers_writeBack ..).trans (Cx.ledgers_poke ..)
  · rfl

/-! ### The backing store and the journal's records (R76, R367) -/

theorem Cx.ledgers_saveEntry (c : Cx) (w : Nat) : (c.saveEntry w).ledgers = c.ledgers := by
  unfold Cx.saveEntry
  split
  · exact Cx.ledgers_poke ..
  · rfl

theorem Cx.ledgers_freeRecord (c : Cx) (e : JEntry) : (c.freeRecord e).ledgers = c.ledgers := by
  unfold Cx.freeRecord
  dsimp only
  split
  · rfl
  · split
    · rfl
    · unfold Cx.saveApplied
      split
      · exact Cx.ledgers_poke ..
      · rfl

theorem Cx.ledgers_freeRecords (c : Cx) (r : JRec) : (c.freeRecords r).ledgers = c.ledgers :=
  foldl_keeps Cx.ledgers Cx.ledgers_freeRecord _ c

/-! ### The window map -/

theorem Cx.win?_modWin_self {c : Cx} {w : Nat} {v : Win} (f : Win → Win) (h : c.win? w = some v) :
    (c.modWin w f).win? w = some (f v) := by
  rw [Cx.win?] at h
  simp [Cx.modWin, h, Cx.win?]

theorem Cx.win?_modWin_ne (c : Cx) {w x : Nat} (f : Win → Win) (h : x ≠ w) : (c.modWin w f).win? x = c.win? x := by
  unfold Cx.modWin
  split
  · exact kget?_kput_ne _ _ h
  · rfl

theorem Cx.win?_modStk (c : Cx) (s : Nat) (f : Stack → Stack) (w : Nat) : (c.modStk s f).win? w = c.win? w := rfl

/-- A window's entry apart from its stash. -/
def Win.unstashed (v : Win) : Win := { v with stash := [], stashSteps := [], copies := [] }

/-- The stash moves on in the window's own entry, and in its stash slots and copies alone (R243). -/
theorem Cx.win?_stashShift_self {c : Cx} {w : Nat} {v : Win} (h : c.win? w = some v) :
    ∃ u, (c.stashShift w v).win? w = some u ∧ u.unstashed = v.unstashed := by
  unfold Cx.stashShift
  dsimp only
  split
  · exact ⟨v, h, rfl⟩
  · split
    · exact ⟨_, Cx.win?_modWin_self _ h, rfl⟩
    · exact ⟨_, Cx.win?_modWin_self _ ((Cx.win?_modStk ..).trans (Cx.win?_modWin_self _ h)), rfl⟩

theorem Cx.win?_stashShift_ne (c : Cx) {w x : Nat} (v : Win) (h : x ≠ w) : (c.stashShift w v).win? x = c.win? x := by
  unfold Cx.stashShift
  dsimp only
  split
  · rfl
  · split
    · exact Cx.win?_modWin_ne _ _ h
    · exact (Cx.win?_modWin_ne _ _ h).trans (Cx.win?_modWin_ne _ _ h)

@[simp] theorem Cx.gradHeld_stashShift (c : Cx) (w : Nat) (v : Win) : (c.stashShift w v).gradHeld = c.gradHeld := by
  unfold Cx.stashShift
  dsimp only
  split
  · rfl
  · split <;> simp

/-! ### The remap (R254) -/

/-- A window's entry once its speculative version is the committed one. -/
def Win.remapped (v : Win) (n : Option Step) (u : Win) : Win :=
  { u with
    stateSlot := v.specSlot, committed := v.committed + 1#32, specValid := false, digest := u.newDigest, newDigest := []
    step := n, hold := false, st := .quiet, verdict := none, importStep := none, commitSent := false
    commitHeld := false, pass := none }

/-- The one cycle of a remap: the stash moves on, the old slot waits for release, and the entry changes (R254). -/
def Cx.remapCycle (c : Cx) (w : Nat) (v : Win) (n : Option Step) : Cx :=
  ((c.stashShift w v).retire (winStack w) v.stateSlot).modWin w (v.remapped n)

/-- Requests are tried again only where some wait. -/
theorem Cx.ledgers_serveGrads {c : Cx} (h : c.gradHeld = []) : c.serveGrads.ledgers = c.ledgers := by
  rw [Cx.serveGrads, h, List.foldl_nil, Cx.ledgers, Cx.ledgers, h]
  rfl

/-- With no request waiting, what follows the one cycle leaves the ledgers: the backing store's entry and the journal's
record. -/
theorem Cx.ledgers_remap {c : Cx} (w : Nat) (v : Win) (n : Option Step) (h : c.gradHeld = []) :
    (c.remap w v n).ledgers = (c.remapCycle w v n).ledgers := by
  have hstored : (((c.remapCycle w v n).saveEntry w).freeRecords (.commit w)).ledgers = (c.remapCycle w v n).ledgers :=
    (Cx.ledgers_freeRecords ..).trans (Cx.ledgers_saveEntry ..)
  have hnone : (c.remapCycle w v n).gradHeld = [] := by
    rw [Cx.remapCycle, Cx.modWin_gradHeld, Cx.retire, Cx.modStk_gradHeld, Cx.gradHeld_stashShift, h]
  exact (Cx.ledgers_serveGrads ((Cx.gradHeld_of_ledgers hstored).trans hnone)).trans hstored

theorem Cx.win?_remapCycle_self {c : Cx} {w : Nat} {v : Win} (n : Option Step) (h : c.win? w = some v) :
    ∃ u, (c.remapCycle w v n).win? w = some (v.remapped n u) ∧ u.unstashed = v.unstashed := by
  obtain ⟨u, hshift, hsame⟩ := Cx.win?_stashShift_self h
  exact ⟨u, Cx.win?_modWin_self _ hshift, hsame⟩

theorem Cx.win?_remapCycle_ne (c : Cx) {w x : Nat} (v : Win) (n : Option Step) (h : x ≠ w) :
    (c.remapCycle w v n).win? x = c.win? x :=
  (Cx.win?_modWin_ne _ _ h).trans (Cx.win?_stashShift_ne c v h)

theorem mem_nput (m : List Nat) (k : Nat) : k ∈ nput m k := by
  induction m with
  | nil => simp [nput]
  | cons j r ih =>
    rw [nput]
    split_ifs with hlt heq
    · exact List.mem_cons_self
    · rw [heq]
      exact List.mem_cons_self
    · exact List.mem_cons_of_mem j ih

theorem Cx.stk_modWin (c : Cx) (w : Nat) (f : Win → Win) (k : Nat) : (c.modWin w f).stk k = c.stk k := by
  simp [Cx.stk]

theorem Cx.releasing_remapCycle (c : Cx) (w : Nat) (v : Win) (n : Option Step) :
    ((c.remapCycle w v n).stk (winStack w)).releasing.contains v.stateSlot = true := by
  rw [Cx.remapCycle, Cx.stk_modWin, Cx.retire, Cx.modStk_stk_self]
  exact List.contains_iff_mem.2 (mem_nput _ _)

theorem Cx.ledgers_markOut (c : Cx) (w : Nat) (n : Step) (o : WinOut) : (c.markOut w n o).ledgers = c.ledgers := rfl

theorem Cx.ledgers_markImport (c : Cx) (w : Nat) : (c.markImport w).ledgers = c.ledgers := rfl

theorem Cx.ledgers_bumpLedger (c : Cx) (w off : Nat) : (c.bumpLedger w off).ledgers = c.ledgers := Cx.ledgers_bump ..

/-- A commit remaps its window; statistics, counters and the outcomes in commands leave the ledgers (R254, R255). -/
theorem exec_commitRemap_remaps {s : State} {w : BitVec 19} {v : Win} {n : Step} (hwin : s.cx.win? w.toNat = some v)
    (hst : v.st = .committing n) (hheld : v.commitHeld = true) (hgo : s.cx.commitsWait (winStack w.toNat) = false) :
    ∃ (m : Option Step) (e : Cx), exec (.commitRemap w) s = s.go e ∧ e.ledgers = (s.cx.remap w.toNat v m).ledgers := by
  match himport : v.importStep with
  | some m =>
    refine ⟨m, _, exec_commitRemap_imports hwin hst hheld hgo himport, ?_⟩
    rw [Cx.ledgers_markImport, Cx.ledgers_bumpLedger]
  | none =>
    change ∃ (m : Option Step) (e : Cx), execCommitRemap w s = s.go e ∧ _
    simp only [execCommitRemap, hwin, hst, hheld, hgo, himport, Bool.not_true, Bool.or_self,
      Bool.false_eq_true, if_false]
    refine ⟨some n, _, rfl, ?_⟩
    split_ifs
    case' pos => rw [Cx.ledgers_bumpLedger]
    all_goals
      rw [Cx.ledgers_markOut, Cx.ledgers_bumpLedger]
      split
      · exact Cx.ledgers_commitStats ..
      · rfl

/-- Settles O37, from the ledgers that the remap leaves and their three readings. -/
theorem commitRemapsWindow : Obligations.CommitRemapsWindow := by
  intro s w v n hwin hst hheld hgo hnone
  obtain ⟨m, e, hexec, hremap⟩ := exec_commitRemap_remaps hwin hst hheld hgo
  have hledgers : e.ledgers = (s.cx.remapCycle w.toNat v m).ledgers := hremap.trans (Cx.ledgers_remap w.toNat v m hnone)
  obtain ⟨u, hself, hsame⟩ := Cx.win?_remapCycle_self m hwin
  have hdigest := congrArg Win.newDigest hsame
  have htensor := congrArg Win.tensor hsame
  have hgSlot := congrArg Win.gSlot hsame
  have heD := congrArg Win.eD hsame
  refine ⟨{ s with cx := e }, v.remapped m u, hexec, (Cx.win?_of_ledgers hledgers w.toNat).trans hself, rfl, rfl,
    hdigest, rfl, rfl, rfl, rfl, rfl, htensor, hgSlot, heD, ?_, fun x hx => ?_⟩
  · dsimp only
    rw [Cx.releasing_of_ledgers hledgers, Cx.releasing_remapCycle]
  · dsimp only
    rw [Cx.win?_of_ledgers hledgers, Cx.win?_remapCycle_ne _ _ _ hx]

end Sys2Proof.Machine
end

section
/-!
PROOF. The function level reset (R88, R93, R98) and the aperture's base (R97).
-/
namespace Sys2Proof.Machine

/-! ### A port beside the dies and memory -/

@[simp] theorem Cx.die_modPort (c : Cx) (p : Side) (f : Port → Port) (d : Side) : (c.modPort p f).die d = c.die d := by
  cases d <;> simp [Cx.die]

@[simp] theorem Cx.coreUp_modPort (c : Cx) (p : Side) (f : Port → Port) (d : Side) :
    (c.modPort p f).coreUp d = c.coreUp d := by
  simp [Cx.coreUp]

/-! ### FUNCTION_LEVEL_RESET -/

/-- The function's registers and PCIe state return to their reset values, and the link stays as it is (R93). -/
def Port.functionReset (q : Port) : Port :=
  { ({} : Port) with perst := q.perst, up := q.up, lanes := q.lanes, rate := q.rate }

theorem exec_functionLevelReset_resets {s : State} {p : Side} (hcore : s.cx.coreUp p = true) :
    exec (.functionLevelReset p) s = s.go (s.cx.modPort p Port.functionReset) := by
  change execFunctionLevelReset p s = _
  cases p <;> simp [execFunctionLevelReset, hcore, Cx.resetPort, Cx.modPort, Cx.port, Port.functionReset]

/-- Settles O17, from the one port that changes. -/
theorem functionLevelReset : Obligations.FunctionLevelReset := by
  intro s p hcore
  refine ⟨_, exec_functionLevelReset_resets hcore, rfl, ?port, ?twin, fun k => ?byte, fun d => ?die, ?rest⟩
  case port =>
    simp [Port.functionReset]
  case twin =>
    exact Cx.modPort_port_twin ..
  case byte =>
    exact Cx.byte_of_mem (Cx.modPort_mem ..) k
  case die =>
    exact Cx.die_modPort ..
  case rest =>
    simp

/-! ### APERTURE_BASE_WRITE -/

theorem Cx.aperture_modPort (c : Cx) (p : Side) {f : Port → Port} (h : ∀ q, (f q).aperture = q.aperture) (x : Side) :
    ((c.modPort p f).port x).aperture = (c.port x).aperture := by
  cases p <;> cases x
  case A.A => exact h _
  case B.B => exact h _
  all_goals rfl

theorem Cx.aperture_msix (c : Cx) (p : Side) (v : Nat) (x : Side) :
    ((c.msix p v).port x).aperture = (c.port x).aperture := by
  unfold Cx.msix
  dsimp only
  split_ifs
  · refine Cx.aperture_modPort c p ?_ x
    exact fun _ => rfl
  · rfl
  · rfl

/-- The port of an event that is held back may signal it or count it lost (R100); neither moves an aperture. -/
theorem Cx.aperture_raise (c : Cx) (e : Ev) (x : Side) : ((c.raise e).port x).aperture = (c.port x).aperture := by
  have hsignalled : ((if e.sev = 3 then c.msix e.die 1 else c).port x).aperture = (c.port x).aperture := by
    split_ifs
    · exact Cx.aperture_msix ..
    · rfl
  unfold Cx.raise
  extract_lets d arb k
  split_ifs
  · exact hsignalled
  · refine Eq.trans ?_ hsignalled
    exact Cx.aperture_modPort d e.die (f := fun q => { q with ring := { q.ring with lost := k.1 } }) (fun _ => rfl) x
  · exact hsignalled
  · rfl

theorem Cx.aperture_hostDrop (c : Cx) (p : Side) (bar off size : Nat) (write : Bool) (x : Side) :
    ((c.hostDrop p bar off size write).port x).aperture = (c.port x).aperture := by
  refine (Cx.aperture_raise _ _ x).trans (Cx.aperture_modPort c p ?_ x)
  exact fun _ => rfl

section Base

variable {s : State} {p : Side}

/-- The low half is not writable: a write of it that is not zero is dropped (R97). -/
theorem exec_apertureBaseWrite_low_drops {v : W32} (hserves : s.cx.serves p = true) (hv : v ≠ 0#32) :
    exec (.apertureBaseWrite p false v) s = s.go (s.cx.hostDrop p 0 0x18 4 true) := by
  change execApertureBaseWrite p false v s = _
  simp [execApertureBaseWrite, hserves, Cx.writeHst, hv]

theorem exec_apertureBaseWrite_low_zero : exec (.apertureBaseWrite p false 0#32) s = s.go s.cx := by
  change execApertureBaseWrite p false 0#32 s = _
  simp [execApertureBaseWrite, Cx.writeHst]

theorem exec_apertureBaseWrite_unserved {high : Bool} {v : W32} (hserves : s.cx.serves p = false) :
    exec (.apertureBaseWrite p high v) s = s.go s.cx := by
  change execApertureBaseWrite p high v s = _
  simp [execApertureBaseWrite, hserves]

end Base

/-- A base that lies on a 4 GiB boundary. -/
def Port.aligned (q : Port) : Prop := q.aperture.toNat % 2 ^ 32 = 0

theorem aligned_append_zero (v : W32) : (v ++ 0#32 : W64).toNat % 2 ^ 32 = 0 := by
  rw [BitVec.toNat_append, BitVec.toNat_zero, Nat.or_zero, Nat.shiftLeft_eq]
  exact Nat.mul_mod_left ..

theorem Cx.aligned_modPort_base (c : Cx) (p : Side) (v : W32) {x : Side} (h : (c.port x).aligned) :
    ((c.modPort p fun q => { q with aperture := v ++ 0#32 }).port x).aligned := by
  cases p <;> cases x
  case A.A => exact aligned_append_zero v
  case B.B => exact aligned_append_zero v
  all_goals exact h

/-- One write of either half does one of three things to the complex: nothing, a drop, or a new high half. -/
theorem exec_apertureBaseWrite_cases (s : State) (p : Side) (high : Bool) (v : W32) :
    ∃ c, exec (.apertureBaseWrite p high v) s = s.go c ∧
      (c = s.cx ∨ c = s.cx.hostDrop p 0 0x18 4 true ∨
        c = s.cx.modPort p fun q => { q with aperture := v ++ 0#32 }) := by
  match hserves : s.cx.serves p, high with
  | false, _ => exact ⟨_, exec_apertureBaseWrite_unserved hserves, .inl rfl⟩
  | true, true => exact ⟨_, exec_apertureBaseWrite_high v hserves, .inr (.inr rfl)⟩
  | true, false =>
    by_cases hv : v = 0#32
    · subst hv
      exact ⟨_, exec_apertureBaseWrite_low_zero, .inl rfl⟩
    · exact ⟨_, exec_apertureBaseWrite_low_drops hserves hv, .inr (.inl rfl)⟩

theorem exec_apertureBaseWrite_aligned {s t : State} {p x : Side} {high : Bool} {v : W32}
    (hexec : exec (.apertureBaseWrite p high v) s = .next t) (h : (s.cx.port x).aligned) : (t.cx.port x).aligned := by
  obtain ⟨c, hgo, hcases⟩ := exec_apertureBaseWrite_cases s p high v
  have ht : t = { s with cx := c } := Host.Outcome.next.inj (hexec.symm.trans hgo)
  subst ht
  rcases hcases with rfl | rfl | rfl
  · exact h
  · exact (congrArg (fun a : W64 => a.toNat % 2 ^ 32) (Cx.aperture_hostDrop s.cx p 0 0x18 4 true x)).trans h
  · exact Cx.aligned_modPort_base s.cx p v h

/-- Settles O59, from what the two halves' writes do and the alignment that each of them keeps. -/
theorem apertureBase : Obligations.ApertureBase := by
  refine ⟨?drops, ?zero, ?aligned, ?reset⟩
  case drops =>
    intro s p v hserves hv
    exact exec_apertureBaseWrite_low_drops hserves hv
  case zero =>
    intro s p
    exact exec_apertureBaseWrite_low_zero
  case aligned =>
    intro s t p x high v hexec h
    exact exec_apertureBaseWrite_aligned hexec h
  case reset =>
    intro x
    cases x <;> rfl

end Sys2Proof.Machine
end

section
/-!
PROOF. The management port's SMBus commands (R107, R108, R387, Table 4.12).
-/
namespace Sys2Proof.Machine

section Smbus

variable {s : State} {d : Side} (haon : (s.cx.die d).aon = true)

include haon

theorem Cx.smbus_answers (f : Cx → Cx) : s.cx.smbus d true f = f s.cx := by
  simp [Cx.smbus, haon]

/-- A packet error answers nothing but a NACK (R107). -/
theorem Cx.smbus_nacks (f : Cx → Cx) : s.cx.smbus d false f = s.cx.emit (.nack d) := by
  simp [Cx.smbus, haon]

/-! ### What the die and the complex report -/

theorem exec_getId_answers : exec (.getId d true) s =
    s.go (s.cx.reply d smbOk (s.cx.regBytes d .hst 0x000 ++ s.cx.regBytes d .hst 0x004)) := by
  change execGetId d true s = _
  rw [execGetId, Cx.smbus_answers haon]

theorem exec_getState_answers : exec (.getState d true) s =
    s.go (s.cx.reply d smbOk
      (s.cx.regBytes d .hst 0x008 ++ s.cx.regBytes d (.pwr d) 0x000 ++ s.cx.regBytes d (.hub d) 0x010)) := by
  change execGetState d true s = _
  rw [execGetState, Cx.smbus_answers haon]

theorem exec_getTemp_answers : exec (.getTemp d true) s =
    s.go (s.cx.reply d smbOk
      (((List.range 10).map fun i => BitVec.ofInt 8 (s.cx.stk (10 * d.num + i)).maxTemp) ++
        [BitVec.ofInt 8 (s.cx.die d).temp] ++ [BitVec.ofNat 8 (b2n (s.cx.die d).stale)])) := by
  change execGetTemp d true s = _
  rw [execGetTemp, Cx.smbus_answers haon]

theorem exec_getPower_answers : exec (.getPower d true) s =
    s.go (s.cx.reply d smbOk (leBytes 2 (average s.cx.gov.samples))) := by
  change execGetPower d true s = _
  rw [execGetPower, Cx.smbus_answers haon]

theorem exec_getEventSummary_answers : exec (.getEventSummary d true) s =
    s.go (s.cx.reply d smbOk
      (leBytes 8 (if s.cx.arb.seq = 0#64 then 0 else (s.cx.arb.seq - 1#64).toNat) ++
        leBytes 2 (kget 0 s.cx.arb.sev3 0))) := by
  change execGetEventSummary d true s = _
  rw [execGetEventSummary, Cx.smbus_answers haon]

/-! ### Power states and registers -/

/-- A state that SMBus may ask for is asked for, with cause 5 (R387, R390). -/
theorem exec_requestPowerState_requests {target : Byte} (htarget : target.toNat ≠ 2) (hmax : target.toNat ≤ 3) :
    exec (.requestPowerState d true target) s = s.go
      ((s.cx.requestPower d target.toNat 5).1.reply d
        (if (s.cx.requestPower d target.toNat 5).2.isSome then smbRefused else smbOk) []) := by
  change execRequestPowerState d true target s = _
  rw [execRequestPowerState, Cx.smbus_answers haon]
  simp [htarget, Nat.not_lt.2 hmax]

section Register

variable {off : W32} {b : Blk} {o : Nat} (hblk : blockOf off.toNat = some (b, o)) (halign : off.toNat % 4 = 0)
  (hdef : s.cx.readReg d b o ≠ none) (hclock : b.isPwr = true ∨ (s.cx.die d).power = .run)

omit haon in
include hclock in
/-- A block in the always-on domain, or of a die that runs, has its clock (R108). -/
theorem Cx.clocked_runs (f : Cx → Cx) : s.cx.clocked d b f = f s.cx := by
  rcases hclock with hpwr | hrun
  · simp [Cx.clocked, hpwr]
  · simp [Cx.clocked, hrun]

include hblk halign hdef hclock

theorem exec_regRead_reads (hreads : b.smbReads = true) : exec (.regRead d true off) s =
    s.go ((s.cx.read32 d off.toNat).1.reply d smbOk (leBytes 4 (s.cx.read32 d off.toNat).2.toNat)) := by
  change execRegRead d true off s = _
  rw [execRegRead, Cx.smbus_answers haon]
  simp [hblk, halign, hdef, hreads, Cx.clocked_runs hclock]

theorem exec_regWrite_writes (v : W32) (hwrites : b.smbWrites o = true) : exec (.regWrite d true off v) s =
    s.go ((s.cx.write32 d off.toNat v).reply d smbOk []) := by
  change execRegWrite d true off v s = _
  rw [execRegWrite, Cx.smbus_answers haon]
  simp [hblk, halign, hdef, hwrites, Cx.clocked_runs hclock]

end Register

end Smbus

/-- A command that is one transaction answers a packet error with a NACK. -/
theorem exec_smbus_nacks {s : State} {d : Side} {i : Instr} {f : Cx → Cx} (haon : (s.cx.die d).aon = true)
    (hexec : exec i s = s.go (s.cx.smbus d false f)) : exec i s = s.go (s.cx.emit (.nack d)) := by
  rw [hexec, Cx.smbus_nacks haon]

/-- Settles O22, command by command from the answer to a good packet, and from the NACK that a broken one gets. -/
theorem smbusCommands : Obligations.SmbusCommands := by
  refine ⟨?reports, ?power, ?registers, ?nacks⟩
  case reports =>
    intro s d haon le
    exact ⟨exec_getId_answers haon, exec_getState_answers haon, exec_getTemp_answers haon, exec_getPower_answers haon,
      exec_getEventSummary_answers haon⟩
  case power =>
    intro s d target haon htarget r
    exact exec_requestPowerState_requests haon (by omega) (by omega)
  case registers =>
    intro s d off v b o haon hblk halign hdef hclock
    exact ⟨exec_regRead_reads haon hblk halign hdef hclock, exec_regWrite_writes haon hblk halign hdef hclock v⟩
  case nacks =>
    intro s d target off v haon
    simp only [List.forall_mem_cons, List.not_mem_nil, false_imp_iff, implies_true, and_true]
    have hnack {i : Instr} {f : Cx → Cx} := exec_smbus_nacks (i := i) (f := f) haon
    exact ⟨hnack rfl, hnack rfl, hnack rfl, hnack rfl, hnack rfl, hnack rfl, hnack rfl, hnack rfl⟩

end Sys2Proof.Machine
end

section
/-!
PROOF. The structure image: its load, its check, the end of its initialisation, a partial image and the disable (R103,
R124, R125, R127 to R131).
-/
namespace Sys2Proof.Machine

section Load

variable {s : State}

/-! ### Load (R124, R125) -/

/-- The staged address and length are taken and the load begins. -/
def ImageSt.loadFrom (m : ImageSt) (len : Nat) (addr : W64) : ImageSt :=
  { m with st := .loading, push := none, loadLen := len, loadAddr := addr }

theorem exec_imageLoad_begins {d : Side} (hserves : s.cx.serves d = true)
    (hst : s.cx.img.st = .empty ∨ s.cx.img.st = .loaded ∨ s.cx.img.st = .refused) :
    exec (.imageLoad d) s = s.go (s.cx.setImg fun m => m.loadFrom (s.cx.reg (hubBase .A + 8)).toNat
      (BitVec.ofNat 64 ((s.cx.reg (hubBase .A)).toNat + (s.cx.reg (hubBase .A + 4)).toNat * 2 ^ 32))) := by
  change execImageLoad d s = _
  rcases hst with hst | hst | hst <;> simp [execImageLoad, hserves, hst, ImageSt.loadFrom]

theorem exec_imageLoadDone_stages (hst : s.cx.img.st = .loading) (hpush : s.cx.img.push = none)
    (hlen : s.cx.img.loadLen ≠ 0) (hmax : s.cx.img.loadLen ≤ 0x4000000) (hloadable : s.cx.loadable = true) :
    exec (.imageLoadDone true) s = s.go ((s.cx.poke (sramKey s.cx.master stagingOff)
      (s.cx.readAt s.cx.img.loadAddr.toNat s.cx.img.loadLen)).setImg fun m =>
        { m with st := .loaded, stagedLen := s.cx.img.loadLen }) := by
  change execImageLoadDone true s = _
  simp [execImageLoadDone, hst, hpush, hlen, hmax, hloadable]

end Load

/-! ### Enable (R127) -/

section Enable

variable {s : State} {d : Side} (hserves : s.cx.serves d = true)
  (hst : s.cx.img.st = .loaded ∨ s.cx.img.st = .refused)

include hserves hst

theorem exec_imageEnable_starts : exec (.imageEnable d) s = s.go (s.cx.startCheck d) := by
  change execImageEnable d s = _
  rcases hst with hst | hst <;> simp [execImageEnable, hserves, hst]

/-- With both dies in Run the check is made at once. -/
theorem exec_imageEnable_checks (hA : s.cx.awake .A = true) (hB : s.cx.awake .B = true) :
    exec (.imageEnable d) s = s.go s.cx.checkImage := by
  rw [exec_imageEnable_starts hserves hst, Cx.startCheck]
  simp [hA, hB]

/-- A die that is not in Run is woken, and its twin with it (log entry 70). -/
theorem exec_imageEnable_wakes (hasleep : s.cx.awake .A = false ∨ s.cx.awake .B = false) :
    exec (.imageEnable d) s = s.go (((((s.cx.setImg fun m =>
      { m with st := .checking, enableBit := true, checked := none }).leaveFrost 1).wake d 1).wake d.twin 4)) := by
  have hwait : ¬ (s.cx.awake .A && s.cx.awake .B) = true := by
    rcases hasleep with h | h <;> simp [h]
  rw [exec_imageEnable_starts hserves hst, Cx.startCheck, if_neg hwait]

end Enable

theorem Cx.checkImage_passes {c : Cx} (h : checkFull c (c.staged false) c.hostClaim = none) :
    c.checkImage = (c.sectionsSkipped (c.staged false)).setImg fun m =>
      { m with st := .checking, enableBit := true, checked := some (c.staged false).img } := by
  simp [Cx.checkImage, h]

theorem Cx.checkImage_fails {c : Cx} {x : Bad} (h : checkFull c (c.staged false) c.hostClaim = some x) :
    c.checkImage = c.refuseImage false x := by
  simp [Cx.checkImage, h]

/-! ### The end of initialisation (R128) -/

/-- Engines, stacks, windows and parity as an image initialises them. -/
def Cx.initialised (c : Cx) (g : Img) : Cx :=
  (g.wmap.foldl (fun c m => c.initWindow g m)
    (g.geo.active.foldl (fun c k => c.initStack g k) (c.initUnits g))).initParity g

/-- The image is the enabled one, and each window's entry stands in its backing store. -/
def Cx.installed (c : Cx) (g : Img) : Cx :=
  g.wmap.foldl (fun e m => e.saveEntry m.window) (c.setImg fun m => { m with
    st := .enabled, cfg := some g, checked := none, part := .none, agreed := true, agreedMinor := c.hostMinor g })

theorem exec_imageInitDone_enables {s : State} {g : Img} (hchecked : s.cx.img.checked = some g)
    (hst : s.cx.img.st = .checking) (hA : s.cx.coreUp .A = true) (hB : s.cx.coreUp .B = true) :
    exec .imageInitDone s = s.go ((((s.cx.initialised g).installed g).enableFabric g).ev 0x2001 11 0
      ((s.cx.initialised g).installed g).master ((s.cx.initialised g).installed g).master.num [g.id.toNat]) := by
  change execImageInitDone s = _
  simp only [execImageInitDone, hchecked, hst, hA, hB]
  rfl

/-! ### Partial images and the disable (R129, R131) -/

/-- What has not started is discarded, and the waits without a bound end (log entry 32). -/
def Cx.discardUnstarted (c : Cx) : Cx :=
  ({ c with streams := c.streams.map fun p : Nat × Stream =>
    (p.1, { p.2 with cache := [], waiting := [], fetching := false, routing := none }) } : Cx).endWaits

/-- Speculative versions without a verdict are discarded (log entry 32). -/
def Cx.discardSpecs (c : Cx) : Cx :=
  c.openSpecs.foldl (fun (c : Cx) w => (c.discardSpec w).modWin w fun v =>
    { v with st := .quiet, hold := false, verdict := none }) c

/-- UP ports announce their departure and the others go down. -/
def Cx.departPorts (c : Cx) : Cx :=
  (List.range 12).foldl (fun (c : Cx) p => c.modFp p fun q =>
    if q.st == .up then { q with departing := true } else { q with st := .down, resetting := 0, bootstrap := true }) c

section Enabled

variable {s : State} {d : Side} (hserves : s.cx.serves d = true) (henabled : s.cx.enabled = true)

include hserves henabled

theorem exec_partialApply_applies {g : Img} (hcfg : s.cx.img.cfg = some g) (hpart : s.cx.img.part = .loaded)
    (hpass : checkPartial g (s.cx.staged true) s.cx.hostClaim = none) :
    exec (.partialApply d) s = s.go ((s.cx.sectionsSkipped (s.cx.staged true)).applyPartial g (s.cx.staged true)) := by
  change execPartialApply d s = _
  simp [execPartialApply, hcfg, hserves, henabled, hpart, hpass]

theorem exec_imageDisable_ends (hbit : s.cx.img.enableBit = true) :
    exec (.imageDisable d) s = s.go (((((s.cx.setImg fun m => { m with enableBit := false }).submit s.cx.master
      (.image 0)).discardUnstarted).discardSpecs).departPorts).endDisable := by
  change execImageDisable d s = _
  simp only [execImageDisable, hserves, henabled, hbit]
  rfl

end Enabled

/-- Settles O20, clause by clause from what each of the six commands does in the case that the clause names. -/
theorem imageLifeCycle : Obligations.ImageLifeCycle := by
  refine ⟨?load, ?staged, ?checks, ?wakes, ?initialised, ?patched, ?disabled⟩
  case load =>
    intro s d hserves hst
    exact exec_imageLoad_begins hserves hst
  case staged =>
    intro s hst hpush hlen hmax hloadable
    exact exec_imageLoadDone_stages hst hpush hlen hmax hloadable
  case checks =>
    intro s d hserves hst hA hB
    rw [exec_imageEnable_checks hserves hst hA hB]
    exact ⟨fun hpass => congrArg s.go (Cx.checkImage_passes hpass),
      fun x hfail => congrArg s.go (Cx.checkImage_fails hfail)⟩
  case wakes =>
    intro s d hserves hst hasleep
    exact exec_imageEnable_wakes hserves hst hasleep
  case initialised =>
    intro s g hchecked hst hA hB
    exact exec_imageInitDone_enables hchecked hst hA hB
  case patched =>
    intro s d g hcfg hserves henabled hpart hpass
    exact exec_partialApply_applies hserves henabled hcfg hpart hpass
  case disabled =>
    intro s d hserves henabled hbit
    exact exec_imageDisable_ends hserves henabled hbit

end Sys2Proof.Machine
end

section
/-!
PROOF. The front end of a stream: doorbells, flag polls, and fetches of descriptors and commands (R91, R140 to R146).
-/
namespace Sys2Proof.Machine

/-! ### A doorbell served -/

theorem seqCmp_ne_older_of_newer {n : Nat} {a b : BitVec n} (h : newer a b = true) :
    (seqCmp a b == .older) = false := by
  rw [(newer_iff a b).1 h]
  rfl

/-- A newer command within the ring makes the commands up to it valid (R143); the generation is the one in force. -/
theorem Cx.serveBell_newer {c : Cx} {st : StreamId} {v : W64} {d : Desc} (hgen : (c.strm st.toNat).gen = bellGen v)
    (hnewer : newer (bellLast v) (c.strm st.toNat).inForce = true)
    (hring : (bellLast v - (c.strm st.toNat).done).toNat ≤ 2 ^ d.ringLog2) :
    c.serveBell st v d =
      (c.modStrm st.toNat fun x => { x with gen := bellGen v, cache := [] }).modStrm st.toNat fun x =>
        { x with last := some (bellLast v), st := if x.pauseBit then .paused else .active } := by
  have hcmp := (newer_iff ..).1 hnewer
  simp [-BitVec.toNat_sub, Cx.serveBell, hgen, hcmp, Nat.not_lt.2 hring]

/-- A doorbell that finds its descriptor cached is served. -/
theorem Cx.takeBell_serves {c : Cx} {st : StreamId} {flag : Bool} {v : W64} {d : Desc}
    (hdesc : (c.strm st.toNat).desc = some d) (hhalted : (c.strm st.toNat).st ≠ .halted)
    (hreinit : (c.strm st.toNat).st ≠ .reinit) (hfetching : (c.strm st.toNat).fetching = false)
    (hpoll : d.poll = true → flag = true) (hnewer : newer (bellLast v) (c.strm st.toNat).inForce = true)
    (hgen : d.generation = bellGen v) : c.takeBell st flag v = c.serveBell st v d := by
  have hflag : (d.poll && !flag) = false := by
    cases hp : d.poll <;> simp [hpoll, hp]
  simp [Cx.takeBell, hdesc, hfetching, hflag, hgen, seqCmp_ne_older_of_newer hnewer]

/-! ### DOORBELL -/

section Doorbell

variable {s : State} {p : Side} {st : StreamId} {v : W64} {g : Img}

/-- An 8-byte write of a stream's word in BAR2 rings that stream's doorbell (R91). -/
theorem exec_doorbell_rings (hserves : s.cx.serves p = true) (henabled : s.cx.enabled = true)
    (hcfg : s.cx.img.cfg = some g) (hcount : st.toNat < g.streams.count) :
    exec (.doorbell p (BitVec.ofNat 15 (8 * st.toNat)) 8 true v) s = s.go (s.cx.ringBell p st v) := by
  change execDoorbell p _ 8 true v s = _
  have hoff : (BitVec.ofNat 15 (8 * st.toNat)).toNat = 8 * st.toNat := by
    rw [BitVec.toNat_ofNat]
    omega
  simp [execDoorbell, hserves, henabled, hcfg, hoff, Nat.not_le.2 hcount]

theorem Cx.ringBell_takes {c : Cx} (hserving : (c.strm st.toNat).serving = some p)
    (hrouting : (c.strm st.toNat).routing = none) (hhalted : (c.strm st.toNat).st ≠ .halted) :
    c.ringBell p st v = c.takeBell st false v := by
  simp [Cx.ringBell, hserving, hrouting, hhalted]

/-- The first doorbell of a stream that no die serves waits at its port for the read of the descriptor (R140). -/
theorem Cx.ringBell_routes {c : Cx} (hserving : (c.strm st.toNat).serving = none)
    (hrouting : (c.strm st.toNat).routing = none) (hhalted : (c.strm st.toNat).st ≠ .halted) :
    c.ringBell p st v =
      (c.modPort p fun q => { q with doorbells := q.doorbells ++ [(st, v)] }).modStrm st.toNat fun x =>
        { x with routing := some p } := by
  simp [Cx.ringBell, hserving, hrouting, hhalted]

end Doorbell

/-! ### POLL_FLAG_READ (R142) -/

theorem exec_pollFlagRead_unchanged {s : State} {st : StreamId} {g : Img} {d : Desc} {e : Side}
    (henabled : s.cx.enabled = true) (hbit : s.cx.img.enableBit = true) (hcfg : s.cx.img.cfg = some g)
    (hcount : st.toNat < g.streams.count) (hserving : (s.cx.strm st.toNat).serving = some e)
    (hdesc : (s.cx.strm st.toNat).desc = some d) (hpoll : d.poll = true) (hserves : s.cx.serves e = true)
    (hhalted : (s.cx.strm st.toNat).st ≠ .halted) (hreinit : (s.cx.strm st.toNat).st ≠ .reinit)
    (hfetch : s.cx.fetchable e d.flagAddr.toNat 8 = true)
    (hflag : (s.cx.strm st.toNat).flag = some (BitVec.ofNat 64 (s.cx.accessNum d.flagAddr.toNat 8).2)) :
    exec (.pollFlagRead st) s = s.go ((s.cx.accessNum d.flagAddr.toNat 8).1.modStrm st.toNat fun x =>
      { x with flag := some (BitVec.ofNat 64 (s.cx.accessNum d.flagAddr.toNat 8).2), cache := [] }) := by
  change execPollFlagRead st s = _
  simp [execPollFlagRead, henabled, hbit, hcfg, Nat.not_le.2 hcount, hserving, hdesc, hpoll, hserves, hhalted, hreinit,
    hfetch, hflag]

/-! ### DESCRIPTOR_FETCH (R140, R141) -/

theorem Cx.installDesc_installs {c : Cx} {st : StreamId} {e : Side} {v : Nat} {d : Desc} (hread : readDesc v = some d) :
    c.installDesc st e d.generation v = (c.strm st.toNat).waiting.foldl (fun c v => c.takeBell st v.1 v.2)
      ((c.modStrm st.toNat fun x => { x with serving := some e, fetching := false }).modStrm st.toNat fun x =>
        { x with desc := some d, waiting := [] }) := by
  unfold Cx.installDesc
  extract_lets
  rw [hread]
  exact if_neg (not_not_intro rfl)

theorem exec_descriptorFetch_installs {s : State} {st : StreamId} {e : Side} {gen : W16}
    (hbit : s.cx.img.enableBit = true) (hrouting : (s.cx.strm st.toNat).routing = none)
    (hfetching : (s.cx.strm st.toNat).fetching = true) (hserving : (s.cx.strm st.toNat).serving = some e)
    (hfetch : s.cx.fetchable e (s.cx.descAddr st.toNat) 64 = true)
    (hserver : (s.cx.accessNum (s.cx.descAddr st.toNat) 64).1.descServer e
      (s.cx.accessNum (s.cx.descAddr st.toNat) 64).2 = e)
    (hgen : gen = ((s.cx.strm st.toNat).waiting.head?.map fun w => bellGen w.2).getD (s.cx.strm st.toNat).gen) :
    exec (.descriptorFetch st true) s = s.go ((s.cx.accessNum (s.cx.descAddr st.toNat) 64).1.installDesc st e gen
      (s.cx.accessNum (s.cx.descAddr st.toNat) 64).2) := by
  change execDescriptorFetch st true s = _
  simp [execDescriptorFetch, hbit, hrouting, hfetching, hserving, hfetch, hserver, hgen]

/-! ### COMMAND_FETCH (R144, R146) -/

theorem exec_commandFetch_caches {s : State} {st : StreamId} {d : Desc} {n : W32} {die : Side} {a : Nat}
    (ha : a = d.ringBase.toNat + 64 * (n.toNat % 2 ^ d.ringLog2)) (hdesc : (s.cx.strm st.toNat).desc = some d)
    (hnext : (s.cx.strm st.toNat).toFetch = some n) (hserving : (s.cx.strm st.toNat).serving = some die)
    (hst : (s.cx.strm st.toNat).st = .active) (henabled : s.cx.enabled = true) (hbit : s.cx.img.enableBit = true)
    (hserves : s.cx.serves die = true) (hroom : s.cx.inFlight die < 4096) (hfetch : s.cx.fetchable die a 64 = true) :
    exec (.commandFetch st true) s = s.go (((s.cx.accessNum a 64).1.modStrm st.toNat fun x =>
      { x with cache := x.cache ++ [(n, BitVec.ofNat 512 (s.cx.accessNum a 64).2)] }).haltIfBad st) := by
  subst ha
  change execCommandFetch st true s = _
  simp [execCommandFetch, hdesc, hnext, hserving, hst, henabled, hbit, hserves, Nat.not_le.2 hroom, hfetch]

/-- Settles O14, from the two ways that a doorbell goes, the unchanged flag, and the two fetches. -/
theorem doorbellsAndFetches : Obligations.DoorbellsAndFetches := by
  refine ⟨?served, ?routed, ?polled, ?installed, ?cached⟩
  case served =>
    intro s p st v g d c x hserves henabled hcfg hcount hserving hrouting hdesc hhalted hreinit hfetching hpoll hgen
      hsame hnewer hring
    rw [exec_doorbell_rings hserves henabled hcfg hcount, Cx.ringBell_takes hserving hrouting hhalted,
      Cx.takeBell_serves hdesc hhalted hreinit hfetching (by simp [hpoll]) hnewer hgen,
      Cx.serveBell_newer hsame hnewer hring, State.go]
  case routed =>
    intro s p st v g c x hserves henabled hcfg hcount hserving hrouting hhalted
    rw [exec_doorbell_rings hserves henabled hcfg hcount, Cx.ringBell_routes hserving hrouting hhalted, State.go]
  case polled =>
    intro s st g d e c x r henabled hbit hcfg hcount hserving hdesc hpoll hserves hhalted hreinit hfetch hflag
    exact exec_pollFlagRead_unchanged henabled hbit hcfg hcount hserving hdesc hpoll hserves hhalted hreinit hfetch
      hflag
  case installed =>
    intro s st d e c x r hbit hrouting hfetching hserving hfetch hread hserver hgen
    rw [exec_descriptorFetch_installs hbit hrouting hfetching hserving hfetch hserver hgen,
      Cx.installDesc_installs hread, State.go]
  case cached =>
    intro s st d n die c x a r hdesc hnext hserving hst henabled hbit hserves hroom hfetch
    exact exec_commandFetch_caches rfl hdesc hnext hserving hst henabled hbit hserves hroom hfetch

end Sys2Proof.Machine
end

section
/-!
PROOF. What a hub die holds apart from the poison marks of its slow tier, and what leaves that alone: writes of memory,
gradients that wait, fabric messages, and a retired channel (R18, R127, R184, R195, R313 to R315).
-/
namespace Sys2Proof.Machine

/-- A hub die apart from the poison marks of its slow tier. -/
def Die.unmarked (k : Die) : Die := { k with slowPoison := [] }

/-- The two hub dies apart from the poison marks of their slow tiers. -/
def Cx.dies (c : Cx) (d : Side) : Die := (c.die d).unmarked

/-! ### Shared operations -/

theorem Cx.dies_congr {c e : Cx} (h : ∀ d, c.die d = e.die d) : c.dies = e.dies :=
  funext fun d => congrArg Die.unmarked (h d)

theorem Cx.dies_ev (c : Cx) (code cls sev : Nat) (d : Side) (idx : Nat) (fs : List Nat) (st : Option Step)
    (t : Option Nat) : (c.ev code cls sev d idx fs st t).dies = c.dies :=
  Cx.dies_congr fun _ => Cx.die_ev ..

theorem Cx.dies_bump (c : Cx) (off width : Nat) (d : Side) (n : Nat) : (c.bump off width d n).dies = c.dies :=
  Cx.dies_congr fun _ => Cx.die_bump ..

theorem Cx.dies_modPort (c : Cx) (p : Side) (f : Port → Port) : (c.modPort p f).dies = c.dies :=
  Cx.dies_congr (Cx.die_modPort c p f)

theorem Cx.dies_modStk (c : Cx) (s : Nat) (f : Stack → Stack) : (c.modStk s f).dies = c.dies := rfl

theorem Cx.dies_modFp (c : Cx) (p : Nat) (f : FabPort → FabPort) : (c.modFp p f).dies = c.dies := rfl

theorem Cx.dies_modNewt (c : Cx) (g : Nat) (f : Newt → Newt) : (c.modNewt g f).dies = c.dies := rfl

theorem Cx.dies_setImg (c : Cx) (f : ImageSt → ImageSt) : (c.setImg f).dies = c.dies := rfl

theorem Cx.dies_submit (c : Cx) (d : Side) (r : JRec) (x : Option (StreamId × W32)) : (c.submit d r x).dies = c.dies :=
  rfl

theorem Cx.dies_nan (c : Cx) (r : NanRec) : (c.nan r).dies = c.dies := rfl

theorem Cx.dies_putByte (c : Cx) (k : Nat) (b : Byte) : (c.putByte k b).dies = c.dies := rfl

theorem Cx.dies_retire (c : Cx) (s slot : Nat) : (c.retire s slot).dies = c.dies := rfl

theorem Cx.dies_countSource (c : Cx) (s i : Nat) : (c.countSource s i).dies = c.dies := rfl

theorem Cx.dies_dirty (c : Cx) (m : List Host.Cell) : ({ c with dirty := m } : Cx).dies = c.dies := rfl

theorem Cx.dies_acc (c : Cx) (m : List (Nat × W32)) : ({ c with acc := m } : Cx).dies = c.dies := rfl

theorem Cx.dies_arrivals (c : Cx) (n : Nat) : ({ c with arrivals := n } : Cx).dies = c.dies := rfl

theorem Cx.dies_wins (c : Cx) (m : List (Nat × Win)) : ({ c with wins := m } : Cx).dies = c.dies := rfl

theorem Cx.dies_master (c : Cx) (d : Side) : ({ c with master := d } : Cx).dies = c.dies := rfl

theorem Cx.dies_modWin (c : Cx) (w : Nat) (f : Win → Win) : (c.modWin w f).dies = c.dies := by
  unfold Cx.modWin
  split <;> rfl

theorem Cx.dies_orReg (c : Cx) (off : Nat) (v : W32) : (c.orReg off v).dies = c.dies := by
  unfold Cx.orReg
  split <;> rfl

/-! ### Writes of memory -/

theorem Cx.dies_clearPoison (c : Cx) (k : Nat) : (c.clearPoison k).dies = c.dies := by
  unfold Cx.clearPoison
  split
  · cases Side.ofNum (bits k 40 40) <;> exact funext fun d => by cases d <;> rfl
  · rfl

theorem Cx.dies_parityDelta (c : Cx) (s off : Nat) (a b : Byte) : (c.parityDelta s off a b).dies = c.dies := by
  unfold Cx.parityDelta
  split
  · rfl
  · split
    · rfl
    · split
      · rfl
      · dsimp only
        split
        · rw [Cx.dies_modStk]
          split
          · exact Cx.dies_ev ..
          · rfl
        · rfl

theorem Cx.dies_poke1 (c : Cx) (k : Nat) (b : Byte) : (c.poke1 k b).dies = c.dies := by
  unfold Cx.poke1
  dsimp only
  split
  · exact Cx.dies_parityDelta ..
  · rfl

theorem Cx.dies_poke (c : Cx) (k : Nat) (bs : List Byte) : (c.poke k bs).dies = c.dies :=
  (foldl_keeps Cx.dies Cx.dies_clearPoison _ _).trans
    (foldl_keeps (fun p : Cx × Nat => p.1.dies) (fun _ _ => Cx.dies_poke1 ..) bs (c, k))

theorem Cx.dies_writeBack (c : Cx) (sel : Nat → Bool) : (c.writeBack sel).dies = c.dies :=
  (foldl_keeps Cx.dies (fun _ _ => Cx.dies_clearPoison ..) _ _).trans
    (foldl_keeps Cx.dies (fun _ _ => Cx.dies_poke1 ..) _ _)

theorem Cx.dies_basePut (c : Cx) (s off : Nat) (bs : List Byte) : (c.basePut s off bs).dies = c.dies :=
  (Cx.dies_writeBack ..).trans (Cx.dies_poke ..)

theorem Cx.dies_poisonRange (c : Cx) (key n : Nat) : (c.poisonRange key n).dies = c.dies := rfl

theorem Cx.dies_zeroGranule (c : Cx) (key : Nat) : (c.zeroGranule key).dies = c.dies :=
  (Cx.dies_dirty ..).trans (Cx.dies_poke ..)

theorem Cx.dies_restore (c : Cx) (key : Nat) (bs : List Byte) : (c.restore key bs).dies = c.dies :=
  (foldl_keeps Cx.dies Cx.dies_clearPoison _ _).trans (foldl_keeps Cx.dies (fun _ _ => Cx.dies_putByte ..) _ c)

theorem Cx.dies_saveEntry (c : Cx) (w : Nat) : (c.saveEntry w).dies = c.dies := by
  unfold Cx.saveEntry
  split
  · exact Cx.dies_poke ..
  · rfl

theorem Cx.dies_saveApplied (c : Cx) (s : Nat) : (c.saveApplied s).dies = c.dies := by
  unfold Cx.saveApplied
  split
  · exact Cx.dies_poke ..
  · rfl

theorem Cx.dies_putEpoch (c : Cx) (w : Nat) (v : Win) (b e : Nat) : (c.putEpoch w v b e).dies = c.dies := by
  unfold Cx.putEpoch
  split
  · exact Cx.dies_basePut ..
  · exact Cx.dies_poke ..

/-! ### Gradients that wait (R184, R195) -/

theorem Cx.dies_spillBlock (c : Cx) (w : Nat) (v : Win) (eo b : Nat) : (c.spillBlock w v eo b).dies = c.dies := by
  unfold Cx.spillBlock
  extract_lets
  refine (Cx.dies_acc ..).trans ((Cx.dies_basePut ..).trans ((foldl_keeps Cx.dies (fun e j => ?_) _ _).trans
    ((Cx.dies_orReg ..).trans (Cx.dies_basePut ..))))
  exact foldl_keeps Cx.dies (fun _ _ => Cx.dies_nan ..) _ e

theorem Cx.dies_spill (c : Cx) (w : Nat) : (c.spill w).dies = c.dies := by
  unfold Cx.spill
  split
  · rfl
  · exact (Cx.dies_bump ..).trans (foldl_keeps Cx.dies (fun _ _ => Cx.dies_spillBlock ..) _ c)

theorem Cx.dies_makeRoom (fuel w epoch slot start n : Nat) (c : Cx) :
    (Cx.makeRoom fuel w epoch slot start n c).dies = c.dies := by
  induction fuel generalizing c with
  | zero => rfl
  | succ fuel ih =>
    rw [Cx.makeRoom]
    split
    · rfl
    · split
      · exact (ih _).trans (Cx.dies_spill ..)
      · rfl

theorem Cx.dies_addValue (c : Cx) (w : Nat) (t : Tensor) (k epoch slot i : Nat) (step : Option Step) (x : W16) :
    (c.addValue w t k epoch slot i step x).dies = c.dies := by
  unfold Cx.addValue
  extract_lets
  split <;> exact Cx.dies_orReg ..

theorem Cx.dies_addRun (c : Cx) (w : Nat) (t : Tensor) (k epoch slot i : Nat) (vals : List W16) (step : Option Step) :
    (c.addRun w t k epoch slot i vals step).dies = c.dies :=
  (Cx.dies_modWin ..).trans ((Cx.dies_arrivals ..).trans
    (foldl_keeps (fun p : Cx × Nat => p.1.dies) (fun _ _ => Cx.dies_addValue ..) vals (c, i)))

theorem Cx.dies_gradApply (c : Cx) (m w : Nat) (t : Tensor) (k epoch : Nat) (g : GradHdr) (vals : List W16)
    (status bucket : Nat) : (c.gradApply m w t k epoch g vals status bucket).dies = c.dies := by
  unfold Cx.gradApply
  dsimp only
  split
  · exact Cx.dies_bump ..
  · exact Cx.dies_addRun ..

theorem Cx.dies_gradTry {c e : Cx} {m epoch : Nat} {h : BitVec 128} {vals : List W16} {status bucket : Nat}
    (htry : c.gradTry m epoch h vals status bucket = some e) : e.dies = c.dies := by
  unfold Cx.gradTry at htry
  dsimp only at htry
  split at htry
  · cases htry
    rfl
  · split_ifs at htry
    · cases htry
      exact Cx.dies_gradApply ..
    · cases htry
      exact (Cx.dies_gradApply ..).trans (Cx.dies_makeRoom ..)

theorem Cx.dies_serveGrad (c : Cx) (q : GradHeld) : (c.serveGrad q).dies = c.dies := by
  unfold Cx.serveGrad
  split
  · rfl
  · split
    · rfl
    · dsimp only
      split
      · rename_i htry
        exact Cx.dies_gradTry htry
      · rfl

theorem Cx.dies_serveGrads (c : Cx) : c.serveGrads.dies = c.dies :=
  foldl_keeps Cx.dies Cx.dies_serveGrad _ _

/-! ### Speculative versions and fences (R77, R184, R233) -/

theorem Cx.dies_sayZeroed (c : Cx) (w : Nat) (p : Pass) : (c.sayZeroed w p).dies = c.dies := by
  unfold Cx.sayZeroed
  split
  · rfl
  · exact Cx.dies_ev ..

theorem Cx.dies_discardSpec (c : Cx) (w : Nat) : (c.discardSpec w).dies = c.dies := by
  unfold Cx.discardSpec
  split
  · rfl
  · rename_i v _
    have hretired : (if v.specValid then c.retire (winStack w) v.specSlot else c).dies = c.dies := by
      split <;> rfl
    refine (Cx.dies_modWin ..).trans (Eq.trans ?_ hretired)
    split
    · exact Cx.dies_sayZeroed ..
    · rfl

theorem Cx.dies_discardStats (c : Cx) (t : Tensor) (s : Nat) (n : Step) : (c.discardStats t s n).dies = c.dies := by
  unfold Cx.discardStats
  extract_lets
  split_ifs
  · rfl
  · exact Cx.dies_basePut ..
  · rfl

theorem Cx.dies_dropSpec (c : Cx) (w : Nat) : (c.dropSpec w).dies = c.dies := by
  unfold Cx.dropSpec
  split
  · rfl
  · dsimp only
    split
    · split
      · exact Cx.dies_discardSpec ..
      · exact (Cx.dies_discardStats ..).trans (Cx.dies_discardSpec ..)
    · exact Cx.dies_discardSpec ..

theorem Cx.dies_fenceWin (c : Cx) (w : Nat) : (c.fenceWin w).dies = c.dies :=
  (Cx.dies_serveGrads _).trans ((Cx.dies_submit ..).trans ((Cx.dies_modWin ..).trans (Cx.dies_dropSpec ..)))

theorem Cx.dies_unresolved (c : Cx) (w ranks : Nat) : (c.unresolved w ranks).dies = c.dies := by
  unfold Cx.unresolved
  split
  · rfl
  · refine (Cx.dies_ev ..).trans ?_
    split
    · rfl
    · exact Cx.dies_fenceWin ..

/-! ### Fabric messages (R335, R337, R341, R350) -/

theorem Cx.dies_sendOne {c e : Cx} {p : Nat} (hsend : c.sendOne p = some e) : e.dies = c.dies := by
  unfold Cx.sendOne at hsend
  dsimp only at hsend
  split at hsend
  · cases hsend
  · split at hsend
    · cases hsend
    · cases hsend
      rfl

theorem Cx.dies_pumpFuel (fuel p : Nat) (c : Cx) : (Cx.pumpFuel fuel p c).dies = c.dies := by
  induction fuel generalizing c with
  | zero => rfl
  | succ fuel ih =>
    rw [Cx.pumpFuel]
    split
    · rename_i hsend
      exact (ih _).trans (Cx.dies_sendOne hsend)
    · rfl

theorem Cx.dies_sendMsg (c : Cx) (p : Nat) (m : Msg) : (c.sendMsg p m).dies = c.dies := by
  unfold Cx.sendMsg
  split
  · rfl
  · split
    · unfold Cx.portSend
      split
      · rfl
      · exact Cx.dies_pumpFuel ..
    · exact Cx.dies_bump ..

/-! ### A retired channel (R313 to R315) -/

theorem Cx.dies_defaultGranule (c : Cx) (s row k : Nat) : (c.defaultGranule s row k).dies = c.dies := by
  unfold Cx.defaultGranule
  extract_lets key e lo stored zeroed
  -- Named apart, the zeroed granule stays closed: opened, it is 4096 writes.
  obtain ⟨z, hz⟩ : ∃ z, z = zeroed := ⟨_, rfl⟩
  have hzeroed : z.dies = e.dies := (congrArg Cx.dies hz).trans (Cx.dies_zeroGranule e key)
  have hstored : stored.dies = e.dies :=
    (foldl_keeps Cx.dies (fun _ _ => Cx.dies_saveEntry ..) _ _).trans (Cx.dies_zeroGranule e key)
  have hcounted : e.dies = c.dies := Cx.dies_countSource c s 3
  refine Eq.trans ?_ hcounted
  rw [← hz]
  cases e.areaOf s row k with
  | placed => exact Cx.dies_poisonRange ..
  | unused => exact Cx.dies_zeroGranule ..
  | stats =>
    dsimp only
    split
    · exact Cx.dies_restore ..
    · exact Cx.dies_zeroGranule ..
  | mapStore =>
    dsimp only
    split
    · exact (Cx.dies_saveApplied ..).trans hstored
    · exact hstored
  | stash region n => exact (Cx.dies_wins ..).trans hzeroed
  | grad n =>
    dsimp only
    split
    · exact hzeroed
    · exact (Cx.dies_modWin ..).trans ((foldl_keeps Cx.dies (fun _ _ => Cx.dies_putEpoch ..) _ _).trans hzeroed)
  | slot n =>
    dsimp only
    split
    · exact Cx.dies_zeroGranule ..
    · split
      · exact (Cx.dies_modWin ..).trans ((Cx.dies_retire ..).trans (Cx.dies_zeroGranule ..))
      · exact Cx.dies_unresolved ..

theorem Cx.dies_askPeer (c : Cx) (s row k w from_ : Nat) : (c.askPeer s row k w from_).dies = c.dies := by
  unfold Cx.askPeer
  split
  · exact Cx.dies_sendMsg ..
  · exact Cx.dies_defaultGranule ..

theorem Cx.dies_refill (s k : Nat) (c : Cx) (row : Nat) : (Cx.refill s k c row).dies = c.dies := by
  unfold Cx.refill
  dsimp only
  split
  · rfl
  · split
    · exact (Cx.dies_countSource ..).trans (Cx.dies_restore ..)
    · split
      · split
        · split
          · exact Cx.dies_askPeer ..
          · exact Cx.dies_defaultGranule ..
        · exact Cx.dies_defaultGranule ..
      · exact Cx.dies_defaultGranule ..

theorem Cx.dies_stopForRebuild (c : Cx) (s : Nat) : (c.stopForRebuild s).dies = c.dies :=
  foldl_keeps Cx.dies (fun _ _ => (Cx.dies_modWin ..).trans (Cx.dies_discardSpec ..)) _ c

theorem Cx.dies_loseChannel (c : Cx) (s k : Nat) : (c.loseChannel s k).dies = c.dies :=
  (Cx.dies_ev ..).trans ((Cx.dies_modNewt ..).trans
    ((foldl_keeps Cx.dies (fun _ _ => Cx.dies_fenceWin ..) _ _).trans (Cx.dies_modStk ..)))

theorem Cx.dies_retireChannel (c : Cx) (s k cause : Nat) : (c.retireChannel s k cause).dies = c.dies := by
  unfold Cx.retireChannel
  split
  · split
    · rfl
    · exact Cx.dies_loseChannel ..
  · exact (Cx.dies_modStk ..).trans ((foldl_keeps Cx.dies (Cx.dies_refill s k) _ _).trans
      ((Cx.dies_modNewt ..).trans ((Cx.dies_modStk ..).trans (Cx.dies_stopForRebuild ..))))

/-! ### The staged image and the roles (R18, R127, R134) -/

theorem Cx.dies_refuseImage (c : Cx) (isPart : Bool) (x : Bad) : (c.refuseImage isPart x).dies = c.dies :=
  Cx.dies_ev ..

theorem Cx.dies_checkImage (c : Cx) : c.checkImage.dies = c.dies := by
  unfold Cx.checkImage
  dsimp only
  split
  · exact Cx.dies_refuseImage ..
  · exact (Cx.dies_setImg ..).trans (foldl_keeps Cx.dies (fun _ _ => Cx.dies_ev ..) _ c)

theorem Cx.dies_resumeCheck (c : Cx) : c.resumeCheck.dies = c.dies := by
  unfold Cx.resumeCheck
  split
  · exact c.dies_checkImage
  · rfl

theorem Cx.dies_moveStaging (c : Cx) (d : Side) : (c.moveStaging d).dies = c.dies := by
  unfold Cx.moveStaging
  extract_lets lo n own
  exact foldl_keeps Cx.dies (fun e (p : Host.Cell) => e.dies_putByte (p.1 - lo d.twin + lo d) p.2) own _

theorem Cx.dies_rolesHome (c : Cx) : c.rolesHome.dies = c.dies := by
  unfold Cx.rolesHome
  split
  · rfl
  · exact (Cx.dies_master ..).trans (Cx.dies_moveStaging ..)

end Sys2Proof.Machine
end

section
/-!
PROOF. Start-up from the always-on domain to Run, and the resets (R93, R382, R400 to R402).
-/
namespace Sys2Proof.Machine

/-! ### AON_RST_N released (R400) -/

/-- The straps are sampled and PWR_REQ rises. -/
def Die.released (straps : Straps) (k : Die) : Die :=
  { k with aon := true, power := .frost, smbAddr := straps.smbAddr, imgAccept := straps.imgAccept, pwrReq := true }

section Release

variable {s : State} (straps : Straps)

/-- Hub die A samples the complex's uid as well. -/
theorem exec_aonRstRelease_A (haon : s.cx.dieA.aon = false) : exec (.aonRstRelease .A straps) s =
    s.go { s.cx.modDie .A (Die.released straps) with fab := { s.cx.fab with uid := straps.uid } } := by
  change execAonRstRelease .A straps s = _
  simp only [execAonRstRelease, Cx.die, haon]
  rfl

theorem exec_aonRstRelease_B (haon : s.cx.dieB.aon = false) :
    exec (.aonRstRelease .B straps) s = s.go (s.cx.modDie .B (Die.released straps)) := by
  change execAonRstRelease .B straps s = _
  simp only [execAonRstRelease, Cx.die, haon]
  rfl

end Release

/-! ### PG_IN rises and the die is in Thaw (R400) -/

/-- The die has the state asked for, whether it was in it already or not, and changes nothing else. -/
theorem Cx.dies_setPower_self (c : Cx) (d : Side) (p : Power) (cause : Nat) :
    (c.setPower d p cause).dies d = { c.dies d with power := p } := by
  unfold Cx.setPower
  dsimp only
  split
  · rename_i hsame
    rw [← beq_iff_eq.1 hsame]
    rfl
  · rw [Cx.pwrEv, Cx.dies_ev, Cx.dies, Cx.modDie_die_self]
    rfl

theorem Cx.dies_trainBridge (c : Cx) : c.trainBridge.dies = c.dies := by
  unfold Cx.trainBridge
  dsimp only
  split <;> rfl

theorem exec_pgInRise_thaws {s : State} {d : Side} (haon : (s.cx.die d).aon = true) (hreq : (s.cx.die d).pwrReq = true)
    (hfrost : (s.cx.die d).power = .frost) :
    ∃ c : Cx, exec (.pgInRise d) s = s.go c ∧ c.dies d = { s.cx.dies d with pgIn := true, power := .thaw } := by
  change ∃ c : Cx, execPgInRise d s = _ ∧ _
  simp only [execPgInRise, Cx.modDie_die_self, haon, hreq, hfrost]
  refine ⟨_, rfl, ?_⟩
  rw [Cx.dies_trainBridge, Cx.dies_setPower_self, Cx.dies, Cx.modDie_die_self]
  rfl

/-! ### The end of start-up (R400) -/

/-- The core is out of reset, and what trained of the slow tier is known. -/
def Die.started (t : Trained) (k : Die) : Die :=
  { k with
    core := true, coreAlive := true, shell := true, stale := false, twinSt := .paired
    slowType := t.slowType.toNat, slowPos := t.positions.toNat, slowGib := t.gib.toNat, slowRate := t.slowRate.toNat
    slowUp := true }

/-- Channels of the die that fail their self-test are retired (R313). -/
def Cx.retireFailed (c : Cx) (d : Side) (t : Trained) : Cx :=
  (t.badChannels.filter fun g => homeDie (g.val / 32) = d).foldl (fun (c : Cx) g =>
    c.retireChannel (g.val / 32) (g.val % 32) 1) c

/-- The slow tier's positions report the rate they trained at. -/
def Cx.reportSlow (c : Cx) (d : Side) (t : Trained) : Cx :=
  if t.slowRate != 0#2 && t.slowType != 0#2 then
    (List.range 8).foldl (fun (c : Cx) i => if bit t.positions.toNat i then
      c.ev 0x600B 8 1 d d.num [d.num, i, t.slowRate.toNat] else c) c
  else c

/-- The die's fabric ports begin their training. -/
def Cx.trainPorts (c : Cx) (d : Side) : Cx :=
  ((List.range 12).filter fun p => portDie p = d).foldl (fun (c : Cx) p =>
    c.modFp p fun q => { q with st := .training, bootstrap := true }) c

/-- Hub die A takes the roles home if its core runs; else hub die B holds them (R18). -/
def Cx.takeRoles (c : Cx) : Cx := if c.coreUp .A then c.rolesHome else { c with master := .B }

/-- What the die's training leaves before the die changes its state. -/
def Cx.trained (c : Cx) (d : Side) (t : Trained) : Cx :=
  ((((List.range 20).foldl (Cx.trainStack d t)
    (c.modDie d (Die.started t))).retireFailed d t).reportSlow d t).trainPorts d

/-- The die is in Run, with the links to its twin and its host. -/
def Cx.brought (c : Cx) (d : Side) : Cx :=
  ((c.setPower d .run (c.die d).wakeCause).trainBridge).trainPcie d

theorem exec_startupDone_runs {s : State} {d : Side} (t : Trained) (hthaw : (s.cx.die d).power = .thaw)
    (hcore : (s.cx.die d).core = false) (hfenced : (s.cx.die d).fenced = false) :
    exec (.startupDone d t) s = s.go (((((s.cx.trained d t).brought d).takeRoles).pwrEv 0x9006 0 d
      [d.num, maskOf (t.primary.map (·.1.val)), t.positions.toNat, maskOf (t.modules.map (·.val)),
        t.ms]).resumeCheck) := by
  change execStartupDone d t s = _
  have hgo : ¬ ((s.cx.die d).power != .thaw || (s.cx.die d).core || (s.cx.die d).fenced) = true := by
    simp [hthaw, hcore, hfenced]
  exact if_neg hgo

theorem Cx.dies_trainStack (d : Side) (t : Trained) (c : Cx) (s : Nat) : (Cx.trainStack d t c s).dies = c.dies := by
  unfold Cx.trainStack
  split <;> split <;> rfl

theorem Cx.dies_retireFailed (c : Cx) (d : Side) (t : Trained) : (c.retireFailed d t).dies = c.dies :=
  foldl_keeps Cx.dies (fun _ _ => Cx.dies_retireChannel ..) _ c

theorem Cx.dies_reportSlow (c : Cx) (d : Side) (t : Trained) : (c.reportSlow d t).dies = c.dies := by
  unfold Cx.reportSlow
  split
  · refine foldl_keeps Cx.dies (fun e i => ?_) _ c
    split
    · exact Cx.dies_ev ..
    · rfl
  · rfl

theorem Cx.dies_trainPorts (c : Cx) (d : Side) : (c.trainPorts d).dies = c.dies :=
  foldl_keeps Cx.dies (fun _ _ => Cx.dies_modFp ..) _ c

theorem Cx.dies_trainPcie (c : Cx) (d : Side) : (c.trainPcie d).dies = c.dies := by
  unfold Cx.trainPcie
  dsimp only
  split
  · exact Cx.dies_modPort ..
  · rfl

theorem Cx.dies_takeRoles (c : Cx) : c.takeRoles.dies = c.dies := by
  unfold Cx.takeRoles
  split
  · exact c.dies_rolesHome
  · rfl

theorem Cx.dies_trained_self (c : Cx) (d : Side) (t : Trained) :
    (c.trained d t).dies d = (Die.started t (c.die d)).unmarked := by
  rw [Cx.trained, Cx.dies_trainPorts, Cx.dies_reportSlow, Cx.dies_retireFailed,
    foldl_keeps Cx.dies (Cx.dies_trainStack d t), Cx.dies, Cx.modDie_die_self]

theorem Cx.dies_brought_self (c : Cx) (d : Side) : (c.brought d).dies d = { c.dies d with power := .run } := by
  rw [Cx.brought, Cx.dies_trainPcie, Cx.dies_trainBridge, Cx.dies_setPower_self]

/-- The die is in Run with its core out of reset, whatever its training found. -/
theorem exec_startupDone_die {s : State} {d : Side} (t : Trained) (hthaw : (s.cx.die d).power = .thaw)
    (hcore : (s.cx.die d).core = false) (hfenced : (s.cx.die d).fenced = false) :
    ∃ c : Cx, exec (.startupDone d t) s = s.go c ∧
      c.dies d = { (Die.started t (s.cx.die d)).unmarked with power := .run } := by
  refine ⟨_, exec_startupDone_runs t hthaw hcore hfenced, ?_⟩
  rw [Cx.dies_resumeCheck, Cx.pwrEv, Cx.dies_ev, Cx.dies_takeRoles, Cx.dies_brought_self, Cx.dies_trained_self]

/-! ### AON_RST_N low (R402) -/

theorem Cx.die_pushBroken (c : Cx) (p : Nat) (x : Side) : (c.pushBroken p).die x = c.die x := by
  unfold Cx.pushBroken
  split
  · exact Cx.die_ev ..
  · rfl

theorem Cx.die_modStk (c : Cx) (s : Nat) (f : Stack → Stack) (x : Side) : (c.modStk s f).die x = c.die x := rfl

theorem Cx.die_modFp (c : Cx) (p : Nat) (f : FabPort → FabPort) (x : Side) : (c.modFp p f).die x = c.die x := rfl

/-- A core that stops leaves the other die as it is. -/
theorem Cx.die_stopCore_twin (c : Cx) (f : Side) : (c.stopCore f).die f.twin = c.die f.twin := by
  unfold Cx.stopCore
  extract_lets own noted cleaned port reset closed cleared pushed
  have hnoted : noted.die f.twin = c.die f.twin :=
    foldl_keeps (fun e : Cx => e.die f.twin) (fun _ _ => Cx.die_modStk ..) own c
  have hreset : reset.die f.twin = cleaned.die f.twin := Cx.die_modPort ..
  have hclosed : closed.die f.twin = reset.die f.twin :=
    foldl_keeps (fun e : Cx => e.die f.twin) (fun _ _ => Cx.die_modFp ..) _ reset
  have hpushed : pushed.die f.twin = closed.die f.twin := by
    refine Eq.trans ?_ (rfl : cleared.die f.twin = _)
    dsimp only [pushed]
    split
    · split
      · exact Cx.die_pushBroken ..
      · rfl
    · rfl
  exact (Cx.modDie_die_twin ..).trans (hpushed.trans (hclosed.trans (hreset.trans hnoted)))

/-- With its twin powered, a power-on reset clears the one die and loses the bridge. -/
theorem Cx.powerOnReset_beside {c : Cx} {d : Side} (haon : (c.die d.twin).aon = true) :
    (c.powerOnReset d).bridge = false ∧ (c.powerOnReset d).die d = { suspectCause := 2 } ∧
      (c.powerOnReset d).die d.twin = c.die d.twin := by
  have htwin : (((c.stopCore d).modulesDown d).modDie d fun _ => { suspectCause := 2 }).die d.twin = c.die d.twin :=
    (Cx.modDie_die_twin ..).trans (Cx.die_stopCore_twin c d)
  have hself := Cx.modDie_die_self ((c.stopCore d).modulesDown d) d fun _ => { suspectCause := 2 }
  unfold Cx.powerOnReset
  extract_lets e own r
  have hon : (r.die d.twin).aon = true := (congrArg Die.aon htwin).trans haon
  rw [if_pos hon]
  exact ⟨rfl, hself, htwin⟩

theorem exec_aonRstAssert_resets (s : State) (d : Side) : exec (.aonRstAssert d) s = s.go (s.cx.powerOnReset d) := rfl

/-! ### TILE_RST_N and PERST_N (R93, R401, R402) -/

theorem exec_tileRst_resets (s : State) : exec .tileRst s = s.go s.cx.resetAll := rfl

theorem exec_perst_low (s : State) (d : Side) :
    exec (.perst d false) s = s.go ((s.cx.resetPort d).modPort d fun q => { q with perst := false }) := rfl

section Perst

variable {s : State} {d : Side} (hrun : (s.cx.die d).power = .run)

include hrun

/-- The port of a die in Run leaves reset, with nothing to wake. -/
theorem exec_perst_high :
    exec (.perst d true) s = s.go ((s.cx.modPort d fun q => { q with perst := true }).trainPcie d) := by
  change execPerst d true s = _
  simp [execPerst, hrun]

variable (hcore : s.cx.coreUp d = true)

include hcore

/-- The link trains, at a width and rate that are open values (log entry 90), and bus mastering is on (log entry 43). -/
theorem exec_perst_high_trains (hdown : (s.cx.port d).up = false) : exec (.perst d true) s =
    s.go ((((s.cx.modPort d fun q => { q with perst := true }).drawOpen 0x4001).2.modPort d fun q => { q with
      up := true, busMaster := true
      lanes := [16, 8, 4, 2, 1].getD
        (bits ((s.cx.modPort d fun q => { q with perst := true }).drawOpen 0x4001).1.toNat 7 0) 16
      rate := [64, 32, 16, 8, 5, 2].getD
        (bits ((s.cx.modPort d fun q => { q with perst := true }).drawOpen 0x4001).1.toNat 15 8) 64 })) := by
  rw [exec_perst_high hrun, Cx.trainPcie]
  simp [hdown, hrun, hcore]

omit hrun hcore in
theorem Cx.trainPcie_up {c : Cx} (hup : (c.port d).up = true) : c.trainPcie d = c := by
  simp [Cx.trainPcie, hup]

end Perst

/-- Settles O56, from the two releases, the two steps to Run, and the four resets. -/
theorem startsAndResets : Obligations.StartsAndResets := by
  refine ⟨?releaseA, ?releaseB, ?thaws, ?runs, ?asserts, ?beside, ?tile, ?perstLow, ?perstHigh⟩
  case releaseA =>
    intro s straps haon
    exact ⟨_, exec_aonRstRelease_A straps haon, rfl, rfl, rfl, rfl, rfl, rfl, rfl, rfl⟩
  case releaseB =>
    intro s straps haon
    exact exec_aonRstRelease_B straps haon
  case thaws =>
    intro s d haon hreq hfrost
    obtain ⟨c, hexec, hdie⟩ := exec_pgInRise_thaws haon hreq hfrost
    exact ⟨_, hexec, rfl, congrArg Die.power hdie, congrArg Die.pgIn hdie⟩
  case runs =>
    intro s d t hthaw hcore hfenced
    obtain ⟨c, hexec, hdie⟩ := exec_startupDone_die t hthaw hcore hfenced
    exact ⟨_, hexec, rfl, congrArg Die.power hdie, congrArg Die.core hdie, congrArg Die.shell hdie⟩
  case asserts =>
    intro s d
    exact exec_aonRstAssert_resets s d
  case beside =>
    intro s haon
    obtain ⟨hbridge, hdie, htwin⟩ := Cx.powerOnReset_beside (d := .A) haon
    exact ⟨_, exec_aonRstAssert_resets s .A, hdie, hbridge, htwin⟩
  case tile =>
    intro s
    exact ⟨_, exec_tileRst_resets s, rfl, rfl, rfl, rfl, rfl⟩
  case perstLow =>
    intro s d
    exact exec_perst_low s d
  case perstHigh =>
    intro s d hrun hcore c o
    refine ⟨exec_perst_high_trains hrun hcore, fun hup => ?_⟩
    rw [exec_perst_high hrun, Cx.trainPcie_up (by simp [hup])]
    rfl

end Sys2Proof.Machine
end

section
/-!
PROOF. Image pushes between neighbours (R126, R359) and UCIe modules (R133).
-/
namespace Sys2Proof.Machine

/-! ### The sender (R359) -/

/-- The first message of a push carries the first 4 KiB of the source, at offset 0. -/
theorem Cx.pushNext_first (c : Cx) (p len : Nat) : c.pushNext p 0 len =
    (c.modFp p fun q => { q with pushing := some (0, len), pushState := 1 }).portSend p
      (c.localMsg 0x28 0 0#64 (BitVec.ofNat 64 len) (c.readAt (pushAddr c p) (min 4096 len)) []) := by
  have hstart : pushAddr c p + 0 = pushAddr c p := Nat.add_zero _
  simp only [Cx.pushNext, hstart, Nat.sub_zero]

/-- A go on an idle UP port, whose source is not empty and passes the checks of R64, R65 and R17, sends. -/
theorem exec_fabPushGo_sends {s : State} {p : Fin 12} (hup : (s.cx.fp p).st = .up)
    (hidle : (s.cx.fp p).pushing = none)
    (hspace : [0, 2, 3, 4].contains (bits (pushAddr s.cx p) 63 60) = true) (hlen : 0 < pushLen s.cx p)
    (hrange : s.cx.checkRange .read (pushAddr s.cx p) (pushLen s.cx p) = none)
    (hhere : s.cx.away? (portDie p) (pushAddr s.cx p) = none)
    (hclean : s.cx.poisonIn (pushAddr s.cx p) (pushLen s.cx p) = none) :
    exec (.fabPushGo p) s = s.go (s.cx.pushNext p 0 (pushLen s.cx p)) := by
  change execFabPushGo p s = _
  simp only [execFabPushGo, hup, hidle, hspace, hrange, hhere, hclean, Nat.ne_of_gt hlen]
  rfl

section Acknowledged

variable {s : State} {p : Fin 13} {m : Msg} {off len : Nat} (hop : m.op.toNat = 0x29)
  (harrived : s.cx.arrived p m = true) (hpushing : ((s.cx.consume p m).fp p).pushing = some (off, len))

include hop harrived hpushing

/-- One message for each acknowledgement (log entry 75), until the push's length is sent. -/
theorem exec_imagePushAck_ok (hok : m.fields.getD 0 0 = stOk) : exec (.imagePushAck p m) s =
    s.go (if len ≤ off + 4096 then (s.cx.consume p m).endPush p len stOk
      else (s.cx.consume p m).pushNext p (off + 4096) len) := by
  change execImagePushAck p m s = _
  rw [execImagePushAck, Cx.onMsg_arrived _ hop harrived]
  simp only [hpushing, hok, bne_self_eq_false, Bool.false_eq_true, if_false, ge_iff_le]

theorem exec_imagePushAck_fails (hbad : m.fields.getD 0 0 ≠ stOk) : exec (.imagePushAck p m) s =
    s.go ((s.cx.consume p m).endPush p off (m.fields.getD 0 0)) := by
  change execImagePushAck p m s = _
  rw [execImagePushAck, Cx.onMsg_arrived _ hop harrived]
  simp only [hpushing, bne_iff_ne, ne_eq, hbad, not_false_eq_true, if_true]

end Acknowledged

/-! ### The receiver (R126) -/

/-- An empty complex that accepts pushes, and that no port pushes to, is open to a push of any port. -/
theorem Cx.pushOpen_of_empty {c : Cx} (p : Nat) (hempty : c.img.st = .empty) (haccept : (c.die .A).imgAccept = true)
    (hidle : c.img.push = none) : c.pushOpen p = true := by
  simp [Cx.pushOpen, hempty, haccept, hidle]

/-- The staging takes the data of a push message at its offset, and the push is bound to the port (R126). -/
def Cx.stagePush (c : Cx) (p : Nat) (m : Msg) : Cx :=
  (c.setImg fun i => { i with st := .loading, push := some (p, m.arg.toNat), lastPort := p }).poke
    (sramKey c.master (stagingOff + m.addr.toNat)) m.data

/-- IMAGE_PUSH_ACK with its status (R359). -/
def Cx.answerPush (c : Cx) (p status : Nat) : Cx := c.portSend p (c.localMsg 0x29 1 0#64 0#64 [] [status])

section Received

variable {s : State} {p : Fin 13} {m : Msg} (hop : m.op.toNat = 0x28) (harrived : s.cx.arrived p m = true)

include hop harrived

theorem exec_imagePush_tooLong (hlong : 0x4000000 < m.arg.toNat) :
    exec (.imagePush p m) s = s.go ((s.cx.consume p m).answerPush p stPoison) := by
  change execImagePush p m s = _
  rw [execImagePush, Cx.onMsg_arrived _ hop harrived]
  simp [hlong, Cx.answerPush]

/-- A message that leaves more of the push to come is staged, and the push goes on. -/
theorem exec_imagePush_stages (hmax : m.arg.toNat ≤ 0x4000000) (hmore : m.addr.toNat + m.data.length < m.arg.toNat)
    (hopen : (s.cx.consume p m).pushOpen p = true) :
    exec (.imagePush p m) s = s.go (((s.cx.consume p m).stagePush p m).answerPush p stOk) := by
  have hfits : (decide (m.arg.toNat = 0) || decide (0x4000000 < m.arg.toNat) ||
      decide (m.arg.toNat < m.addr.toNat + m.data.length)) = false := by
    simp only [Bool.or_eq_false_iff, decide_eq_false_iff_not]
    omega
  change execImagePush p m s = _
  rw [execImagePush, Cx.onMsg_arrived _ hop harrived]
  simp only [gt_iff_lt, hfits, hopen, Nat.ne_of_lt hmore, Bool.not_true, Bool.false_eq_true, if_false]
  rfl

end Received

/-! ### UCIe modules (R133) -/

/-- Without an enabled image the minor is bounded by the silicon alone, and a module of the complex's major comes up at
the lower of the two minors. -/
theorem exec_moduleBringup_runs {s : State} {m : Fin 64} {minor : Byte}
    (hshell : (s.cx.die (moduleDie m)).shell = true) (hdown : kget? s.cx.modules m.val = none)
    (hcfg : s.cx.img.cfg = none) : exec (.moduleBringup m (BitVec.ofNat 8 (silicon 0).1) minor) s =
      s.go (({ s.cx.emit (.advert m.val (silicon 0).1 (min (silicon 0).2 0xFF)) with
        modules := kput s.cx.modules m.val (min (min (silicon 0).2 0xFF) minor.toNat) } : Cx).ev 0x2006 3 0
          (moduleDie m) m [0, m.val, (silicon 0).1, min (silicon 0).2 0xFF, (silicon 0).1, minor.toNat,
            min (min (silicon 0).2 0xFF) minor.toNat]) := by
  have hmajor : (BitVec.ofNat 8 (silicon 0).1).toNat = (silicon 0).1 := rfl
  change execModuleBringup m _ minor s = _
  simp [execModuleBringup, hshell, hdown, hcfg, hmajor]

/-- A module that retrains stays up, and one that does not is down, without an event (log entry 58). -/
theorem exec_ucieModuleFailure (s : State) (m : Fin 64) (retrained : Bool) : exec (.ucieModuleFailure m retrained) s =
    s.go (if retrained then s.cx else { s.cx with modules := kdel s.cx.modules m.val }) := rfl

/-- Settles O50, clause by clause: the sender's go and its acknowledgements, the receiver's two answers, the modules. -/
theorem imagePushRuns : Obligations.ImagePushRuns := by
  refine ⟨?go, ?acknowledged, ?received, ?bringup, ?failure⟩
  case go =>
    intro s p hup hidle hspace hlen hrange hhere hclean
    rw [exec_fabPushGo_sends hup hidle hspace hlen hrange hhere hclean, Cx.pushNext_first]
    rfl
  case acknowledged =>
    intro s p m off len hop harrived c hpushing
    refine ⟨fun hok hmore => ?_, fun hok hlast => ?_, exec_imagePushAck_fails hop harrived hpushing⟩
    · rw [exec_imagePushAck_ok hop harrived hpushing hok, if_neg (Nat.not_le.2 hmore)]
      rfl
    · rw [exec_imagePushAck_ok hop harrived hpushing hok, if_pos hlast]
      rfl
  case received =>
    intro s p m hop harrived c
    refine ⟨exec_imagePush_tooLong hop harrived, fun _ hmax hmore hempty haccept hidle => ?_⟩
    exact exec_imagePush_stages hop harrived hmax hmore (Cx.pushOpen_of_empty p hempty haccept hidle)
  case bringup =>
    intro s m minor hshell hdown hcfg
    exact exec_moduleBringup_runs hshell hdown hcfg
  case failure =>
    intro s m
    exact ⟨exec_ucieModuleFailure s m false, exec_ucieModuleFailure s m true⟩

end Sys2Proof.Machine
end

section
/-!
PROOF. NOP, SIGNAL and WAIT (R145, R153 to R155, R172).
-/
namespace Sys2Proof.Machine

/-! ### A release leaves the image -/

@[simp] theorem Cx.clearPoison_img (c : Cx) (k : Nat) : (c.clearPoison k).img = c.img := by
  unfold Cx.clearPoison
  split
  · exact Cx.modDie_img ..
  · rfl

@[simp] theorem Cx.parityDelta_img (c : Cx) (s off : Nat) (a b : Byte) : (c.parityDelta s off a b).img = c.img := by
  unfold Cx.parityDelta
  split
  · rfl
  · split
    · rfl
    · split
      · rfl
      · dsimp only
        split
        · split <;> simp
        · rfl

@[simp] theorem Cx.poke1_img (c : Cx) (k : Nat) (b : Byte) : (c.poke1 k b).img = c.img := by
  unfold Cx.poke1
  dsimp only
  split
  · exact Cx.parityDelta_img ..
  · rfl

@[simp] theorem Cx.writeBack_img (c : Cx) (sel : Nat → Bool) : (c.writeBack sel).img = c.img :=
  (foldl_keeps Cx.img (fun c w => c.clearPoison_img (w * 64)) _ _).trans
    (foldl_keeps Cx.img (fun c (p : Host.Cell) => c.poke1_img p.1 p.2) _ _)

/-- Whether a disable runs is a matter of the image alone. -/
theorem Cx.disabling_of_img {c e : Cx} (h : e.img = c.img) : e.disabling = c.disabling := by
  simp [Cx.disabling, Cx.enabled, h]

/-! ### The meanings -/

section Meanings

variable {c : Cx} {st : StreamId} {f : Flight}

/-- A SIGNAL in flight whose record is on its way to the journal master, after its release. -/
def Cx.signalled (c : Cx) (st : StreamId) (f : Flight) : Cx :=
  let d := c.releaseComplex.modFlight st f.number fun g => { g with phase := 1, owed := g.owed + 1 }
  d.submit (d.dieOf st) (.sync (f.arg 16 12 0) (BitVec.ofNat 64 (f.arg 24 63 0))) (some (st, f.number))

theorem Cx.disabling_signalled (c : Cx) (st : StreamId) (f : Flight) :
    (c.signalled st f).disabling = c.disabling :=
  Cx.disabling_of_img (c.writeBack_img _)

theorem bodySignal_submits (hphase : f.phase = 0) (hmaster : c.noMaster st = false) (hfirst : c.earlier st f = false) :
    bodySignal st f c = (c.signalled st f, .wait .other) := by
  simp [bodySignal, hphase, hmaster, hfirst, Cx.signalled]

theorem bodyWait_reached (hmaster : c.noMaster st = false)
    (hvalue : newerEq (c.sync (f.arg 16 12 0)) (BitVec.ofNat 64 (f.arg 24 63 0)) = true) :
    bodyWait st f c = okOpen (c.acquire st) 0x11 := by
  simp [bodyWait, hmaster, hvalue]

theorem bodyWait_older (hmaster : c.noMaster st = false)
    (hvalue : newerEq (c.sync (f.arg 16 12 0)) (BitVec.ofNat 64 (f.arg 24 63 0)) = false) :
    bodyWait st f c = (c, .wait .other) := by
  simp [bodyWait, hmaster, hvalue]

/-- A meaning that ends the command it starts with `OK` and an open result. -/
theorem Cx.runStream_okOpen {e : Cx} {op o : Nat} {body : Body} {num : W32} {cmd : BitVec 512}
    (h : Starts c st op num cmd) (hb : body st (newFlight c st num cmd) (c.start st num cmd) = okOpen e o) :
    c.runStream op body st = ({ e with free := e.free + 1 } : Cx).ended st num stOk (e.openResult o) :=
  Cx.runStream_done h hb

end Meanings

/-- Settles O8, from the meaning of each of the three commands at its start. -/
theorem syncCommandsComplete : Obligations.SyncCommandsComplete := by
  refine ⟨?nop, ?signal, ?reached, ?older⟩
  case nop =>
    intro s st num cmd hstart c
    exact ⟨_, congrArg s.go (Cx.runStream_okOpen hstart rfl)⟩
  case signal =>
    intro s st num cmd hstart c f hmaster hfirst
    have hopen : (c.signalled st f).disabling = false := (c.disabling_signalled st f).trans hstart.not_disabling
    exact congrArg s.go (Cx.runStream_wait hstart (bodySignal_submits rfl hmaster hfirst) hopen)
  case reached =>
    intro s st num cmd hstart c f hmaster hvalue
    exact ⟨_, congrArg s.go (Cx.runStream_okOpen hstart (bodyWait_reached hmaster hvalue))⟩
  case older =>
    intro s st num cmd hstart c f hvalue hmaster
    exact congrArg s.go (Cx.runStream_wait hstart (bodyWait_older hmaster hvalue) hstart.not_disabling)

end Sys2Proof.Machine
end

section
/-!
PROOF. The micro-batch queue commands on queues of this complex (R156, R157).
-/
namespace Sys2Proof.Machine

/-! ### The meanings -/

section Meanings

variable {c : Cx} {st : StreamId} {f : Flight}

/-- The command may put an entry into its queue: it exists, is within reach and has room, and the command's turn has
come. -/
structure HasPlace (c : Cx) (st : StreamId) (f : Flight) : Prop where
  ok : c.queueOk (f.arg 24 8 0) = true
  reach : c.queueAway (c.dieOf st) (f.arg 24 8 0) = none
  room : c.queueFull (f.arg 24 8 0) = false
  turn : c.myTurn (f.turn st false (f.arg 24 8 0)) = true

/-- The command may take the oldest entry of its queue: it exists and is within reach, and the command's turn has
come. -/
structure TakesOldest (c : Cx) (st : StreamId) (f : Flight) (e : QEntry) (rest : List QEntry) : Prop where
  ok : c.queueOk (f.arg 24 8 0) = true
  reach : c.queueAway (c.dieOf st) (f.arg 24 8 0) = none
  entries : c.queue (f.arg 24 8 0) = e :: rest
  turn : c.myTurn (f.turn st true (f.arg 24 8 0)) = true

theorem bodyQueuePush_appends (h : HasPlace c st f) (hphase : f.phase = 0) (hnear : f.bit 24 26 = false)
    (hfits : f.arg 32 63 0 ≤ c.streamsRec.entryBytes)
    (hoperand : c.badOperand? st f .read 1 (f.arg 16 63 0) (f.arg 32 63 0) = none)
    (hclean : c.hubPoison (f.arg 16 63 0) (f.arg 32 63 0) = none) : bodyQueuePush st f c =
      okOpen (((c.hubRead (f.arg 16 63 0) (f.arg 32 63 0)).1.setQueue (f.arg 24 8 0) (c.queue (f.arg 24 8 0) ++
        [⟨BitVec.ofNat 32 (f.arg 40 31 0), (c.hubRead (f.arg 16 63 0) (f.arg 32 63 0)).2⟩])).leaveTurn
          (f.turn st false (f.arg 24 8 0))) 0x40 := by
  simp [bodyQueuePush, hphase, hnear, Nat.not_lt.2 hfits, h.ok, hoperand, h.reach, h.room, h.turn, hclean]

theorem bodyQueuePop_takes {e : QEntry} {rest : List QEntry} (h : TakesOldest c st f e rest)
    (hoperand : c.badOperand? st f .write 1 (f.arg 16 63 0) e.data.length = none) : bodyQueuePop st f c =
      ((((c.setQueue (f.arg 24 8 0) rest).hubWrite (f.arg 16 63 0) e.data).noteWrite st (f.arg 16 63 0)).leaveTurn
        (f.turn st true (f.arg 24 8 0)), .done stOk (e.tag.toNat + e.data.length * 2 ^ 32)) := by
  simp [bodyQueuePop, h.ok, h.reach, h.entries, hoperand, h.turn]

/-- R157's spaces, as the meanings of OFFLOAD and PREFETCH test them. -/
theorem contains_offloadSpace {a : Nat} (h : bits a 63 60 = 2 ∨ bits a 63 60 = 4) :
    [2, 4].contains (bits a 63 60) = true := by
  simpa using h

theorem bodyOffload_takes {e : QEntry} {rest : List QEntry} (h : TakesOldest c st f e rest)
    (hspace : bits (f.arg 16 63 0) 63 60 = 2 ∨ bits (f.arg 16 63 0) 63 60 = 4)
    (hoperand : c.badOperand? st f .write 1 (f.arg 16 63 0) (64 + e.data.length) = none) : bodyOffload st f c =
      okOpen ((((c.setQueue (f.arg 24 8 0) rest).writeAt (f.arg 16 63 0)
        (offloadHeader e (f.arg 24 8 0) ++ e.data)).noteWrite st (f.arg 16 63 0)).leaveTurn
          (f.turn st true (f.arg 24 8 0))) 0x42 := by
  simp only [bodyOffload, h.ok, contains_offloadSpace hspace, h.reach, h.entries, hoperand, h.turn, Bool.not_true,
    Bool.or_self, Bool.false_eq_true, if_false]

/-- Length that the header at an address gives for its offloaded entry (R157). -/
def Cx.offloadedLen (c : Cx) (a : Nat) : Nat := leNat (((c.readAt a 64).drop 4).take 4)

/-- The entry that the header at an address and the bytes behind it spell (R157). -/
def Cx.offloaded (c : Cx) (a : Nat) : QEntry :=
  ⟨BitVec.ofNat 32 (leNat ((c.readAt a 64).take 4)), c.readAt (a + 64) (c.offloadedLen a)⟩

/-- An offloaded entry stands at the command's source, sound and readable. -/
structure OffloadedAt (c : Cx) (st : StreamId) (f : Flight) (a : Nat) : Prop where
  source : f.arg 16 63 0 = a
  space : bits a 63 60 = 2 ∨ bits a 63 60 = 4
  header : c.badOperand? st f .read 1 a 64 = none
  headerClean : c.poisonIn a 64 = none
  sound : badOffload (c.readAt a 64) c.streamsRec.entryBytes = none
  operand : c.badOperand? st f .read 1 a (64 + c.offloadedLen a) = none
  clean : c.poisonIn a (64 + c.offloadedLen a) = none

theorem bodyPrefetch_queues {a : Nat} (h : HasPlace c st f) (hat : OffloadedAt c st f a) : bodyPrefetch st f c =
    okOpen ((c.setQueue (f.arg 24 8 0) (if f.bit 24 9 then c.offloaded a :: c.queue (f.arg 24 8 0)
      else c.queue (f.arg 24 8 0) ++ [c.offloaded a])).leaveTurn (f.turn st false (f.arg 24 8 0))) 0x43 := by
  obtain ⟨rfl, hspace, hheader, hheaderClean, hsound, hoperand, hclean⟩ := hat
  rw [Cx.offloadedLen] at hoperand hclean
  simp only [bodyPrefetch, h.ok, contains_offloadSpace hspace, h.reach, hheader, hheaderClean, hsound, hoperand, h.room,
    h.turn, hclean, Bool.not_true, Bool.or_self, Bool.false_eq_true, if_false]
  rfl

end Meanings

/-- Settles O11, from what each of the four commands does to its queue. -/
theorem queueCommandsComplete : Obligations.QueueCommandsComplete := by
  refine ⟨?push, ?pop, ?offload, ?prefetch⟩
  case push =>
    intro s st num cmd hstart c f src q n hnear hfits hok hoperand hreach hroom hturn hclean
    exact ⟨_, congrArg s.go (Cx.runStream_okOpen hstart (bodyQueuePush_appends ⟨hok, hreach, hroom, hturn⟩ rfl hnear
      hfits hoperand hclean))⟩
  case pop =>
    intro s st num cmd e rest hstart c f dst q hok hreach hentries hoperand hturn
    exact congrArg s.go (Cx.runStream_done hstart (bodyQueuePop_takes ⟨hok, hreach, hentries, hturn⟩ hoperand))
  case offload =>
    intro s st num cmd e rest hstart c f dst q hok hspace hreach hentries hoperand hturn
    exact ⟨_, congrArg s.go (Cx.runStream_okOpen hstart
      (bodyOffload_takes ⟨hok, hreach, hentries, hturn⟩ hspace hoperand))⟩
  case prefetch =>
    intro s st num cmd hstart c f src q h n e hok hspace hreach hheader hheaderClean hsound hoperand hroom hturn hclean
    exact ⟨_, congrArg s.go (Cx.runStream_okOpen hstart (bodyPrefetch_queues ⟨hok, hreach, hroom, hturn⟩
      ⟨rfl, hspace, hheader, hheaderClean, hsound, hoperand, hclean⟩))⟩

end Sys2Proof.Machine
end

section
/-!
PROOF. Responses to the remote accesses of commands (R151, R336, R354, R355, Table 13.5).
-/
namespace Sys2Proof.Machine

/-! ### A response finds its request -/

/-- A response of a kind has come for an outstanding request of its kind: d is the complex once it has acted and ended
the request, and g the request's command there. -/
structure Answers (c : Cx) (p : Nat) (m : Msg) (op req : Nat) (act : Cx → Req → Cx) (r : Req) (d : Cx) (g : Flight) :
    Prop where
  arrived : c.arrived p m = true
  op : m.op.toNat = op
  found : (c.consume p m).req? m.tag = some r
  kind : r.op = req
  taken : (act (c.consume p m) r).answered r (m.fields.getD 0 0) (remoteResult r m) = d
  flight : d.flight? r.stream r.command = some g

section Responses

variable {c d : Cx} {p : Nat} {m : Msg} {op req : Nat} {act : Cx → Req → Cx} {r : Req} {g : Flight}
  (h : Answers c p m op req act r d g) (body : Body)

include h

/-- While its command awaits more, a response acts and ends its request, and nothing else happens. -/
theorem Cx.onResponse_more (hmore : g.awaits ≠ []) : c.onResponse p m op req act body = d := by
  simp only [Cx.onResponse, Cx.onMsg_arrived _ h.op h.arrived, h.found, h.taken, h.flight]
  simp [h.kind, hmore]

/-- The last response lets the command's meaning go on. -/
theorem Cx.onResponse_last (hlast : g.awaits = []) (hopen : g.status = none) :
    c.onResponse p m op req act body = Cx.settle (body r.stream g d) r.stream r.command := by
  simp only [Cx.onResponse, Cx.onMsg_arrived _ h.op h.arrived, h.found, h.taken, h.flight]
  simp [h.kind, hlast, Cx.runFlight, h.flight, hopen]

theorem Cx.onResponse_ends {body : Body} {e : Cx} {status result : Nat} {fl : Flags} (hlast : g.awaits = [])
    (hopen : g.status = none) (hbody : body r.stream g d = (e, .done status result fl)) :
    c.onResponse p m op req act body = e.finish r.stream r.command status result fl := by
  rw [Cx.onResponse_last h body hlast hopen, hbody]
  rfl

end Responses

/-! ### Meanings whose responses have all come with success -/

section Resumed

variable {c : Cx} {st : StreamId} {f : Flight} (hlast : f.awaits = []) (hgood : f.worst ≤ 2)

include hlast hgood

theorem bodyCopy_written (hphase : f.phase = 2) : bodyCopy st f c =
    (c, .done stOk (f.arg 32 63 0 / (copySize (f.arg 40 2 0)).1 * (copySize (f.arg 40 2 0)).2)) := by
  simp [bodyCopy, hphase, hlast, Nat.not_lt.2 hgood]

theorem bodyCopy_read (hphase : f.phase = 1) : bodyCopy st f c = c.copyOut st f f.data := by
  simp [bodyCopy, hphase, hlast, Nat.not_lt.2 hgood]

theorem bodyRelease_fenced (hop : f.op = 0x13) (hphase : f.phase = 1) (hacq : bit (f.arg 16 5 4) 1 = false) :
    bodyRelease st f c = (c, .done stOk f.data.length) := by
  simp [bodyRelease, bodyFence, hop, hphase, hlast, Nat.not_lt.2 hgood, hacq]

theorem bodyQueuePush_pushed (hphase : f.phase = 1) : bodyQueuePush st f c = okOpen c 0x40 := by
  simp [bodyQueuePush, hphase, hlast, Nat.not_lt.2 hgood]

end Resumed

/-- Settles O13: a response before the last one, the last of each kind, and the two cases of READ_DATA. -/
theorem remoteAccessResponses : Obligations.RemoteAccessResponses := by
  refine ⟨?more, ?last, ?read⟩
  case more =>
    intro s p m r g harrived c hreq d hflight hmore
    exact ⟨fun hop hkind =>
        congrArg s.go (Cx.onResponse_more ⟨harrived, hop, hreq, hkind, rfl, hflight⟩ bodyCopy hmore),
      fun hop hkind =>
        congrArg s.go (Cx.onResponse_more ⟨harrived, hop, hreq, hkind, rfl, hflight⟩ bodyRelease hmore),
      fun hop hkind =>
        congrArg s.go (Cx.onResponse_more ⟨harrived, hop, hreq, hkind, rfl, hflight⟩ bodyQueuePush hmore)⟩
  case last =>
    intro s p m r g harrived c hreq d hflight hlast hopen hgood
    refine ⟨fun hop hkind hphase => ?_, fun hop hkind hfence hphase hacq => ?_,
      fun hop hkind hphase => ⟨d.openResult 0x40, ?_⟩⟩
    · exact congrArg s.go (Cx.onResponse_ends ⟨harrived, hop, hreq, hkind, rfl, hflight⟩ hlast hopen
        (bodyCopy_written hlast hgood hphase))
    · exact congrArg s.go (Cx.onResponse_ends ⟨harrived, hop, hreq, hkind, rfl, hflight⟩ hlast hopen
        (bodyRelease_fenced hlast hgood hfence hphase hacq))
    · exact congrArg s.go (Cx.onResponse_ends ⟨harrived, hop, hreq, hkind, rfl, hflight⟩ hlast hopen
        (bodyQueuePush_pushed hlast hgood hphase))
  case read =>
    intro s p m r g harrived c hreq hop hkind d hflight
    refine ⟨fun hmore => ?_, fun hlast hopen hgood hphase => ?_⟩
    · exact congrArg s.go (Cx.onResponse_more ⟨harrived, hop, hreq, hkind, rfl, hflight⟩ bodyCopy hmore)
    · rw [← bodyCopy_read hlast hgood hphase]
      exact congrArg s.go (Cx.onResponse_last ⟨harrived, hop, hreq, hkind, rfl, hflight⟩ bodyCopy hlast hopen)

end Sys2Proof.Machine
end

section
/-!
PROOF. Newt jobs, the neighbour chain, bank-compute grants and refresh (R159, R286 to R290, R295 to R300).
-/
namespace Sys2Proof.Machine

/-! ### Jobs (R287, R289, R296) -/

section Jobs

variable {s : State} {ch : Fin 640} {j : Job}

/-- A running job of a kind is the newt's job and of that kind. -/
theorem Cx.job_of_runningJob {c : Cx} {g kind : Nat} (h : c.runningJob g kind = some j) :
    (c.newt g).job = some j ∧ j.kind = kind := by
  unfold Cx.runningJob at h
  split at h
  case h_1 k hjob =>
    split at h
    case isTrue hfree =>
      cases h
      simp only [Bool.and_eq_true, decide_eq_true_eq] at hfree
      exact ⟨hjob, hfree.1.1⟩
    case isFalse => cases h
  case h_2 => cases h

theorem exec_dotJob_runs (hrun : s.cx.runningJob ch 0 = some j) : exec (.dotJob ch) s =
    s.go (((s.cx.runDot ch j (s.cx.newt ch).fx).1.keepFx ch 0 (s.cx.runDot ch j (s.cx.newt ch).fx).2).closeJob ch) := by
  change execDotJob ch s = _
  simp only [execDotJob, hrun]

/-- The newt keeps the triple that its ATTEND computed, not yet merged with what the chain brings. -/
def Cx.keepTriple (c : Cx) (g : Nat) (j : Job) : Cx :=
  (c.keepFx g 0 (c.attend g j (c.newt g).fx).2).modNewt g fun n => { n with
    partialTriple := some ⟨(c.attend g j (c.newt g).fx).1.vals, (c.attend g j (c.newt g).fx).2.bad⟩, merged := false }

theorem exec_attendJob_runs (hrun : s.cx.runningJob ch 1 = some j) (hfresh : (s.cx.newt ch).partialTriple = none) :
    exec (.attendJob ch) s = s.go (((s.cx.keepTriple ch j).finishAttend ch j).resumeSender ch) := by
  obtain ⟨hjob, hkind⟩ := Cx.job_of_runningJob hrun
  change execAttendJob ch s = _
  simp [execAttendJob, hjob, hkind, hfresh, hrun, Cx.keepTriple]

theorem exec_tadpoleJob_begins (hjob : (s.cx.newt ch).job = some j) (hkind : j.kind = 2)
    (hfresh : (s.cx.newt ch).tad = none) : exec (.tadpoleJob ch) s = s.go (s.cx.modNewt ch fun n => { n with
      tad := some { pc := bits j.count 7 0, a := ptrFields.map (s.cx.loadPtr ch j) ++ [none, none, none] } }) := by
  change execTadpoleJob ch s = _
  simp [execTadpoleJob, hjob, hkind, hfresh]

/-- A record reaches a free buffer; no ATTEND of the newt waits for it, since none has its own triple yet. -/
theorem exec_chainRecord_moves {r : ChainRec} (harriving : (s.cx.newt ch).arriving = some r)
    (hfree : (s.cx.newt ch).buffer = none) (hfresh : (s.cx.newt ch).partialTriple = none) :
    exec (.chainRecord ch) s =
      s.go ((s.cx.modNewt ch fun n => { n with buffer := some r, arriving := none }).resumeSender ch) := by
  change execChainRecord ch s = _
  cases hjob : (s.cx.newt ch).job <;> simp [execChainRecord, harriving, hfree, hfresh, hjob]

end Jobs

/-! ### Grants and refresh (R159, R298 to R300) -/

section Grants

variable {s : State}

/-- The admission unit's slot follows the shares and weights of the image; without an image there are none. -/
theorem Cx.giveGrant_eq (c : Cx) (k i : Nat) : c.giveGrant k i = c.modStk k fun x => { x with
    grants := nput x.grants i, grantQueue := x.grantQueue.filter (· != i)
    admission := (x.admission.slot ((c.img.cfg.map fun g => g.streams.share).getD [])
      ((c.img.cfg.map fun g => g.streams.weight).getD []) [0]).2 } := by
  cases hcfg : c.img.cfg <;> simp [Cx.giveGrant, hcfg]

theorem exec_grant_serves {stk : Fin 20} {k : Nat} (hlimit : (s.cx.grantsHeld stk).length < s.cx.grantLimit stk)
    (hnext : s.cx.nextGrant stk = some k) : exec (.grant stk) s =
      s.go ((s.cx.giveGrant stk k).modNewt (stk.val * 32 + k) fun n =>
        { n with suspended := n.suspended && !n.asked, asked := false }) := by
  change execGrant stk s = _
  simp only [execGrant, ge_iff_le, Nat.not_le.2 hlimit, if_false, hnext]

theorem exec_grantWindowEnd_ends {ch : Fin 640} (hgrant : s.cx.hasGrant ch = true) :
    exec (.grantWindowEnd ch) s = s.go ((s.cx.dropGrant ch).settleGrant ch) :=
  if_pos hgrant

/-- The channel's grant is gone and a refresh of it is under way (R23, R299). -/
def Cx.beginRefresh (c : Cx) (g : Nat) : Cx :=
  (c.dropGrant g).modStk (g / 32) fun k => { k with refreshing := nput k.refreshing (g % 32) }

/-- The newt that streamed is suspended (R299, R300). -/
def Cx.suspendNewt (c : Cx) (g : Nat) (forced : Bool) : Cx :=
  (c.modNewt g fun n => { n with suspended := true, asked := false, forced := forced }).settleGrant g

theorem exec_refreshDue_idle {ch : Fin 640} (forced : Bool) (hidle : s.cx.streaming ch = false) :
    exec (.refreshDue ch forced) s = s.go ((s.cx.beginRefresh ch).settleGrant ch) := by
  change execRefreshDue ch forced s = _
  simp [execRefreshDue, hidle, Cx.beginRefresh]

theorem exec_refreshDue_suspends {ch : Fin 640} (hstream : s.cx.streaming ch = true) :
    exec (.refreshDue ch false) s = s.go ((s.cx.beginRefresh ch).suspendNewt ch false) := by
  change execRefreshDue ch false s = _
  simp [execRefreshDue, hstream, Cx.beginRefresh, Cx.suspendNewt]

theorem exec_refreshDue_forces {ch : Fin 640} (hstream : s.cx.streaming ch = true) :
    exec (.refreshDue ch true) s = s.go ((((s.cx.beginRefresh ch).suspendNewt ch true).bump (nwtBase ch + 0x34) 31
      (homeDie (ch / 32))).newtEv 0x5004 0 ch [4]) := by
  change execRefreshDue ch true s = _
  simp [execRefreshDue, hstream, Cx.beginRefresh, Cx.suspendNewt]

theorem Cx.newt_modStk (c : Cx) (k : Nat) (f : Stack → Stack) (g : Nat) : (c.modStk k f).newt g = c.newt g := rfl

/-- After the refresh the suspended newt asks for a grant, and its suspension, which was not forced, is counted. -/
theorem exec_refreshDone_asks {ch : Fin 640} (hsuspended : (s.cx.newt ch).suspended = true)
    (hasked : (s.cx.newt ch).asked = false) (hforced : (s.cx.newt ch).forced = false) : exec (.refreshDone ch) s =
      s.go ((((s.cx.modStk (ch / 32) fun k => { k with refreshing := ndel k.refreshing (ch % 32) }).bump
        (nwtBase ch + 0x30) 31 (homeDie (ch / 32))).modNewt ch fun n =>
          { n with forced := false, asked := true }).settleGrant ch) := by
  change execRefreshDone ch s = _
  simp [execRefreshDone, Cx.newt_modStk, hsuspended, hasked, hforced]

end Grants

/-- Settles O32, from what each command of the newts and of the admission unit does. -/
theorem newtJobsRun : Obligations.NewtJobsRun := by
  refine ⟨?dot, ?attend, ?tadpole, ?chain, ?grant, ?window, ?due, ?idle, ?done⟩
  case dot =>
    intro s ch j hrun
    exact exec_dotJob_runs hrun
  case attend =>
    intro s ch j hrun hfresh
    exact exec_attendJob_runs hrun hfresh
  case tadpole =>
    intro s ch j hjob hkind hfresh
    exact exec_tadpoleJob_begins hjob hkind hfresh
  case chain =>
    intro s ch r harriving hfree hfresh
    exact exec_chainRecord_moves harriving hfree hfresh
  case grant =>
    intro s stk k hlimit hnext
    rw [exec_grant_serves hlimit hnext, Cx.giveGrant_eq]
    rfl
  case window =>
    intro s ch hgrant
    exact exec_grantWindowEnd_ends hgrant
  case due =>
    intro s ch hstream
    exact ⟨exec_refreshDue_suspends hstream, exec_refreshDue_forces hstream⟩
  case idle =>
    intro s ch forced hidle
    exact exec_refreshDue_idle forced hidle
  case done =>
    intro s ch hsuspended hasked hforced
    exact exec_refreshDone_asks hsuspended hasked hforced

end Sys2Proof.Machine
end

section
/-!
PROOF. FENCE, FLUSH_RANGE and SIGNAL_REMOTE (R168, R176, R177, R355, Table 7.3).
-/
namespace Sys2Proof.Machine

/-! ### Writing back leaves the streams -/

@[simp] theorem Cx.clearPoison_streams (c : Cx) (k : Nat) : (c.clearPoison k).streams = c.streams := by
  unfold Cx.clearPoison
  split
  · exact Cx.modDie_streams ..
  · rfl

@[simp] theorem Cx.parityDelta_streams (c : Cx) (s off : Nat) (a b : Byte) :
    (c.parityDelta s off a b).streams = c.streams := by
  unfold Cx.parityDelta
  split
  · rfl
  · split
    · rfl
    · split
      · rfl
      · dsimp only
        split
        · split <;> simp
        · rfl

@[simp] theorem Cx.poke1_streams (c : Cx) (k : Nat) (b : Byte) : (c.poke1 k b).streams = c.streams := by
  unfold Cx.poke1
  dsimp only
  split
  · exact Cx.parityDelta_streams ..
  · rfl

@[simp] theorem Cx.writeBack_streams (c : Cx) (sel : Nat → Bool) : (c.writeBack sel).streams = c.streams :=
  (foldl_keeps Cx.streams (fun c w => c.clearPoison_streams (w * 64)) _ _).trans
    (foldl_keeps Cx.streams (fun c (p : Host.Cell) => c.poke1_streams p.1 p.2) _ _)

/-- A command in flight stays so while its stream's record changes apart from its flights. -/
theorem Cx.flight?_of_flights {c e : Cx} {st : StreamId} (num : W32)
    (h : (e.strm st.toNat).flights = (c.strm st.toNat).flights) : e.flight? st num = c.flight? st num := by
  rw [Cx.flight?, h, Cx.flight?]

/-! ### FENCE (R176) -/

/-- What a FENCE of a local scope with release leaves: the dirty bytes of its scope are stored, at host scope the ports
get their reads, and an acquire drops the stream's fetch cache. -/
def Cx.localFence (c : Cx) (st : StreamId) (scope : Nat) (acquires : Bool) (sel : Nat → Bool) : Cx :=
  let d := c.writeBack sel
  let d := if scope = 3 then d.releaseHost st else d
  if acquires then d.acquire st else d

/-- A FENCE at its start that releases at a scope within the complex, whose named channel or stack is there. -/
structure FencesHere (c : Cx) (f : Flight) : Prop where
  phase : f.phase = 0
  scope : f.arg 16 2 0 ≤ 3
  releases : bit (f.arg 16 5 4) 0 = true
  channel : f.arg 16 2 0 = 0 → f.arg 24 9 0 < 640 ∧ c.active (f.arg 24 9 0 / 32) = true
  stack : f.arg 16 2 0 = 1 → f.arg 24 14 10 < 20 ∧ c.active (f.arg 24 14 10) = true

theorem FencesHere.kind_ne_zero {c : Cx} {f : Flight} (h : FencesHere c f) : f.arg 16 5 4 ≠ 0 := by
  intro hzero
  have hbit := h.releases
  rw [hzero] at hbit
  exact absurd hbit (by decide)

/-- The operands of such a FENCE pass its decode. -/
theorem FencesHere.decodes {c : Cx} {f : Flight} (h : FencesHere c f) :
    (decide (f.arg 16 2 0 > 4) || decide (f.arg 16 5 4 = 0)
      || (decide (f.arg 16 2 0 = 0) && (decide (f.arg 24 9 0 ≥ 640) || !c.active (f.arg 24 9 0 / 32)))
      || (decide (f.arg 16 2 0 = 1) && (decide (f.arg 24 14 10 ≥ 20) || !c.active (f.arg 24 14 10)))) = false := by
  have hscope : ¬ f.arg 16 2 0 > 4 := by
    have := h.scope
    omega
  simp only [Bool.or_eq_false_iff, decide_eq_false_iff_not, Bool.and_eq_false_imp, decide_eq_true_eq, Bool.not_eq_false']
  exact ⟨⟨⟨hscope, h.kind_ne_zero⟩, fun h0 => ⟨Nat.not_le.2 (h.channel h0).1, (h.channel h0).2⟩⟩,
    fun h1 => ⟨Nat.not_le.2 (h.stack h1).1, (h.stack h1).2⟩⟩

theorem bodyFence_releases {c : Cx} {st : StreamId} {f : Flight} (h : FencesHere c f) (hfirst : c.earlier st f = false) :
    let sel := c.scopeSel (f.arg 16 2 0) (f.arg 24 9 0) (f.arg 24 14 10)
    bodyFence st f c =
      (c.localFence st (f.arg 16 2 0) (bit (f.arg 16 5 4) 1) sel, .done stOk (c.dirtyLines sel).length) := by
  have hlocal : ¬ f.arg 16 2 0 = 4 := by
    have := h.scope
    omega
  simp only [bodyFence, h.decodes]
  simp [h.phase, h.releases, hlocal, hfirst, Cx.localFence]

/-! ### FLUSH_RANGE (R177) -/

theorem bodyFlushRange_stores {c : Cx} {st : StreamId} {f : Flight} (hsome : f.arg 24 63 0 ≠ 0)
    (hspace : bits (f.arg 16 63 0) 63 60 ≤ 1)
    (hrange : c.badOperand? st f .write 1 (f.arg 16 63 0) (f.arg 24 63 0) = none) :
    let sel := fun k => (c.rangesOf true (f.arg 16 63 0) (f.arg 24 63 0)).any fun r => lineIn r.lo r.len k
    bodyFlushRange st f c = (c.writeBack sel, .done stOk (c.dirtyLines sel).length) := by
  simp [bodyFlushRange, hsome, Nat.not_lt.2 hspace, hrange]

/-! ### SIGNAL_REMOTE (R355) -/

/-- A release over the fabric of a stream that has written to no node asks nobody. -/
theorem Cx.fabRelease_of_none {c : Cx} {st : StreamId} {f : Flight} {covered : Nat → Bool}
    (h : (c.strm st.toNat).wroteNodes = []) :
    c.fabRelease st f covered = c.modStrm st.toNat fun x => { x with wroteNodes := [] } := by
  simp [Cx.fabRelease, h]

/-- The commands in flight are those before a release at complex scope. -/
theorem Cx.flight?_releaseComplex (c : Cx) (st : StreamId) (num : W32) :
    c.releaseComplex.flight? st num = c.flight? st num :=
  Cx.flight?_of_flights num (by rw [Cx.strm, Cx.releaseComplex, Cx.writeBack_streams, Cx.strm])

theorem bodySignalRemote_sends {c : Cx} {st : StreamId} {f : Flight} (hphase : f.phase = 0) (hawaits : f.awaits = [])
    (hflight : c.flight? st f.number = some f) (hreach : c.fab.unreachable.contains (f.arg 16 48 32) = false)
    (hfirst : c.earlier st f = false) (hnone : (c.releaseComplex.strm st.toNat).wroteNodes = []) :
    bodySignalRemote st f c =
      (c.releaseComplex.modStrm st.toNat fun x => { x with wroteNodes := [] }).sendSignal f := by
  have hstill : (c.releaseComplex.modStrm st.toNat fun x => { x with wroteNodes := [] }).flight? st f.number = some f :=
    (Cx.flight?_of_flights f.number (by rw [Cx.modStrm_strm_self])).trans
      ((c.flight?_releaseComplex st f.number).trans hflight)
  simp only [bodySignalRemote, hphase, hreach, hfirst, Cx.fabRelease_of_none hnone, hstill]
  simp [hawaits]

/-- Settles O10, from the meanings of the three commands with nothing before them in flight. -/
theorem releaseCommandsComplete : Obligations.ReleaseCommandsComplete := by
  refine ⟨?fence, ?flush, ?signal⟩
  case fence =>
    intro s st num cmd hstart c f scope sel hscope hrel hchannel hstack hfirst
    exact congrArg s.go (Cx.runStream_done hstart
      (bodyFence_releases ⟨rfl, hscope, hrel, hchannel, hstack⟩ hfirst))
  case flush =>
    intro s st num cmd hstart c f a n sel hsome hspace hrange
    exact congrArg s.go (Cx.runStream_done hstart (bodyFlushRange_stores hsome hspace hrange))
  case signal =>
    intro s st num cmd hstart c f node hreach hfirst hnone
    exact ⟨_, congrArg s.go (Cx.runStream_okOpen hstart (bodySignalRemote_sends rfl rfl
      (Cx.start_flight s.cx st _ num cmd hstart) hreach hfirst hnone))⟩

end Sys2Proof.Machine
end

section
/-!
PROOF. NEWT_MODE and NEWT_JOB (R169, R277 to R279, R293).
-/
namespace Sys2Proof.Machine

/-! ### NEWT_MODE (R278) -/

theorem Cx.tryEnter_idle {c : Cx} {g : Nat} (w : Option Nat) (hstays : (c.newt g).exiting = false)
    (hmode : (c.newt g).mode = false) :
    c.tryEnter g w = some ((c.flushChannel g).modNewt g fun n => { n with mode := true, window := w }) := by
  simp [Cx.tryEnter, hstays, hmode, Cx.enterMode]

/-- A NEWT_MODE at its start that enters newt mode, without a window, on channels that are there. -/
structure EntersMode (c : Cx) (st : StreamId) (f : Flight) : Prop where
  phase : f.phase = 0
  stack : f.arg 16 4 0 < 20
  active : c.active (f.arg 16 4 0) = true
  mask : f.arg 24 31 0 ≠ 0
  enters : f.bit 16 32 = false
  windowless : f.bit 16 33 = false
  base : f.arg 32 31 0 % 65536 = 0
  free : c.stackBusy (f.arg 16 4 0) = false
  reached : c.needsTwin (c.dieOf st) (f.arg 16 4 0) = false
  present : ∀ g ∈ maskChannels (f.arg 16 4 0) (f.arg 24 31 0), (c.newt g).retired = false

/-- When every channel may change now, the command ends. -/
theorem bodyNewtMode_enters {c : Cx} {st : StreamId} {f : Flight} (h : EntersMode c st f)
    (hall : (c.changeAll (maskChannels (f.arg 16 4 0) (f.arg 24 31 0)) fun c g => c.tryEnter g none).2 = []) :
    bodyNewtMode st f c =
      okOpen (c.changeAll (maskChannels (f.arg 16 4 0) (f.arg 24 31 0)) fun c g => c.tryEnter g none).1 0x50 := by
  have hpresent : ((maskChannels (f.arg 16 4 0) (f.arg 24 31 0)).find? fun g => !false && (c.newt g).retired) = none :=
    List.find?_eq_none.2 fun g hg => by simp [h.present g hg]
  have hstack : ¬ f.arg 16 4 0 > 19 := by
    have := h.stack
    omega
  simp only [bodyNewtMode, h.enters, h.windowless, hpresent]
  simp [h.phase, hstack, h.active, h.mask, h.base, h.free, h.reached, hall]

/-! ### Submitting jobs leaves the image -/

@[simp] theorem Cx.settleGrant_img (c : Cx) (g : Nat) : (c.settleGrant g).img = c.img := by
  unfold Cx.settleGrant
  split
  · rfl
  · split <;> rfl

theorem Cx.takeJob_img (c : Cx) (g : Nat) (j : Job) : (c.takeJob g j).img = c.img := by
  unfold Cx.takeJob Cx.startJob
  split <;> simp

theorem Cx.enterMode_img (c : Cx) (g : Nat) (w : Option Nat) : (c.enterMode g w).img = c.img :=
  c.writeBack_img _

theorem Cx.submitJobs_img (c : Cx) (st : StreamId) (f : Flight) : (c.submitJobs st f).img = c.img := by
  refine foldl_keeps (fun p : Cx × List Nat => p.1.img) (fun p i => ?_) _ (c, [])
  dsimp only
  split
  · rfl
  · refine (Cx.takeJob_img ..).trans ?_
    split
    · rfl
    · exact Cx.enterMode_img _ _ none

theorem Cx.windowRead_img (c : Cx) (g off n : Nat) : (c.windowRead g off n).1.img = c.img := by
  unfold Cx.windowRead
  split
  case h_5 => exact Cx.ev_img ..
  all_goals rfl

theorem Cx.hubRead_img (c : Cx) (a n : Nat) : (c.hubRead a n).1.img = c.img := by
  unfold Cx.hubRead
  split
  · rfl
  · refine foldl_keeps (fun p : Cx × List Byte => p.1.img) (fun p u => ?_) _ (c, [])
    dsimp only
    split
    · exact Cx.windowRead_img ..
    · rfl

/-! ### NEWT_JOB (R293) -/

/-- The jobs whose descriptors stand one after the other in a list's bytes. -/
def listedJobs (n : Nat) (data : List Byte) : List Job :=
  (List.range n).map fun i => { desc := (data.drop (128 * i)).take 128 }

theorem getD_listedJobs_mem {n i : Nat} {data : List Byte} (h : i < n) (d : Job) :
    (listedJobs n data).getD i d ∈ listedJobs n data := by
  have hi : i < (listedJobs n data).length := by simpa [listedJobs] using h
  rw [List.getD_eq_getElem _ _ hi]
  exact List.getElem_mem hi

/-- A NEWT_JOB at its start whose list can be read and names no context. -/
structure ReadsList (c : Cx) (st : StreamId) (f : Flight) : Prop where
  phase : f.phase = 0
  pos : 0 < f.arg 24 12 0
  many : f.arg 24 12 0 ≤ 4096
  aligned : f.arg 16 63 0 % 128 = 0
  space : bits (f.arg 16 63 0) 63 60 = 0 ∨ bits (f.arg 16 63 0) 63 60 = 3 ∨ bits (f.arg 16 63 0) 63 60 = 4
  list : c.badOperand? st f .read 1 (f.arg 16 63 0) (128 * f.arg 24 12 0) = none
  clean : c.hubPoison (f.arg 16 63 0) (128 * f.arg 24 12 0) = none
  contexts : f.bit 24 32 = false

/-- A job that a command on a die may submit (R293 steps 1 and 2). -/
structure Submittable (c : Cx) (d : Side) (j : Job) : Prop where
  good : c.badJob j = none
  present : (c.newt j.channel).retired = false
  free : c.stackBusy (j.channel / 32) = false
  reached : c.needsTwin d (j.channel / 32) = false

section Lists

variable {c : Cx} {d : Side} {n : Nat} {data : List Byte} (h : ∀ j ∈ listedJobs n data, Submittable c d j)

include h

theorem findSome?_badJob_none : ((List.range n).findSome? fun i =>
    (c.badJob ((listedJobs n data).getD i { desc := [] })).map fun e => (i, e)) = none := by
  rw [List.findSome?_eq_none_iff]
  intro i hi
  rw [(h _ (getD_listedJobs_mem (List.mem_range.1 hi) _)).good, Option.map_none]

theorem find?_retired_none : ((listedJobs n data).find? fun j => (c.newt j.channel).retired) = none :=
  List.find?_eq_none.2 fun j hj => ne_true_of_eq_false (h j hj).present

theorem any_busy_false : ((listedJobs n data).any fun j =>
    c.stackBusy (j.channel / 32) || c.needsTwin d (j.channel / 32)) = false :=
  List.any_eq_false.2 fun j hj => by simp [(h j hj).free, (h j hj).reached]

end Lists

/-- Without contexts no record is on its way for one. -/
theorem Cx.contextPending_nil (c : Cx) : c.contextPending [] = false := by
  simp only [Cx.contextPending, List.any_eq_false]
  intro e _
  cases e.body <;> simp

/-- A NEWT_JOB that waits for all jobs of its list. -/
def Flight.awaitsJobs (f : Flight) (data : List Byte) (n : Nat) : Flight :=
  { f with phase := 1, data := data, awaits := List.range n }

theorem bodyNewtJob_submits {c e : Cx} {st : StreamId} {f : Flight} {data : List Byte} {n : Nat}
    (h : ReadsList c st f) (hn : n = f.arg 24 12 0) (hread : c.hubRead (f.arg 16 63 0) (128 * n) = (e, data))
    (hjobs : ∀ j ∈ listedJobs n data, Submittable e (e.dieOf st) j) :
    bodyNewtJob st f c = ((e.modFlight st f.number fun x => x.awaitsJobs data n).submitJobs st (f.awaitsJobs data n),
      .wait .other) := by
  subst hn
  have hspace : [0, 3, 4].contains (bits (f.arg 16 63 0) 63 60) = true := by simpa using h.space
  have hbad := findSome?_badJob_none hjobs
  have hretired := find?_retired_none hjobs
  have hbusy := any_busy_false hjobs
  unfold listedJobs at hbad hretired hbusy
  simp only [bodyNewtJob, h.list, h.clean, hread, hbad, hretired, hbusy, hspace, h.contexts]
  simp [h.phase, h.pos.ne', Nat.not_lt.2 h.many, h.aligned, Cx.contextPending_nil, Flight.awaitsJobs]

/-- Settles O33, from the change of every channel at once and from the submission of a list that passes. -/
theorem newtCommandsComplete : Obligations.NewtCommandsComplete := by
  refine ⟨?mode, fun c g w => Cx.tryEnter_idle w, ?job⟩
  case mode =>
    intro s st num cmd hstart c f k gs hstack hactive hmask henters hwindow hbase hfree hreached hpresent hall d
    exact ⟨_, congrArg s.go (Cx.runStream_okOpen hstart (bodyNewtMode_enters
      ⟨rfl, hstack, hactive, hmask, henters, hwindow, hbase, hfree, hreached, hpresent⟩ hall))⟩
  case job =>
    intro s st num cmd hstart c f a n rd js hpos hmany haligned hspace hlist hclean hjobs hcontexts g d
    have hbody : bodyNewtJob st f c = (d, .wait .other) :=
      bodyNewtJob_submits ⟨rfl, hpos, hmany, haligned, hspace, hlist, hclean, hcontexts⟩ rfl rfl fun j hj => by
        obtain ⟨hgood, hpresent, hfree, hreached⟩ := hjobs j hj
        exact ⟨hgood, hpresent, hfree, hreached⟩
    have himg : d.img = c.img := (Cx.submitJobs_img ..).trans (c.hubRead_img a (128 * n))
    exact congrArg s.go (Cx.runStream_wait hstart hbody
      ((Cx.disabling_of_img himg).trans hstart.not_disabling))

end Sys2Proof.Machine
end

section
/-!
PROOF. Gradients: GRAD_ADD, DRAIN and the drain of a window, PASS1 and the final sums (R184, R185, R190, R195, R197 to
R201, R244).
-/
namespace Sys2Proof.Machine

/-! ### GRAD_ADD (R184, R185, R195) -/

/-- A window takes the mode of a contribution; one that is away and had no mode is promoted, and its write-back ends. -/
def Cx.inMode (c : Cx) (w : Nat) (ordered : Bool) : Cx :=
  c.modWin w fun v => { v with mode := some ordered
                               promoting := v.promoting || (v.mode.isNone && !v.resident)
                               writingBack := v.writingBack && v.mode.isSome }

/-- Spills that make room for a contribution to an epoch of a window. -/
def Cx.roomFor (c : Cx) (w epoch : Nat) (g : GradHdr) : Cx :=
  Cx.makeRoom (c.accWindows (winStack w)).length w epoch g.slot (g.start % 1048576) g.count c

/-- An open epoch without a mode, or in the same one, lets a contribution in (R190). -/
theorem Win.mode_fits {v : Win} {ordered : Bool} (h : v.mode = none ∨ v.mode = some ordered) :
    (v.mode.isSome && v.mode != some ordered) = false := by
  rcases h with hnone | hsame
  · simp [hnone]
  · simp [hsame]

/-- Where there is room nothing is spilled. -/
theorem Cx.makeRoom_of_room {c : Cx} {w epoch slot start n : Nat} (fuel : Nat)
    (h : c.accRoom w epoch slot start n = true) : Cx.makeRoom fuel w epoch slot start n c = c := by
  cases fuel with
  | zero => rfl
  | succ fuel => rw [Cx.makeRoom, if_pos h]

section Try

variable {c : Cx} {m w epoch : Nat} {hdr : BitVec 128} {vals : List W16} {status bucket : Nat} {t : Tensor}

/-- A contribution that is not a duplicate is recorded, added to its epoch and answered. -/
theorem Cx.gradApply_new {k : Nat} {g : GradHdr} (hnew : c.gradDup m (winStack w) g = false) :
    c.gradApply m w t k epoch g vals status bucket =
      (({ c with seqs := kput c.seqs (seqKey m (winStack w)) g.seq } : Cx).addRun w t k epoch g.slot
        (g.start % 1048576) (vals.take g.count)).emit (.gradResp m status bucket g.seq.toNat) := by
  simp [Cx.gradApply, hnew]

/-- A duplicate is counted and answered (R185). -/
theorem Cx.gradApply_duplicate {k : Nat} {g : GradHdr} (hdup : c.gradDup m (winStack w) g = true) :
    c.gradApply m w t k epoch g vals status bucket =
      (c.bump (updBase (winStack w) + 0x80C) 31 (homeDie (winStack w))).emit (.gradResp m stOk 0 g.seq.toNat) := by
  simp [Cx.gradApply, hdup]

variable (htensor : c.tensor? (gradHdr hdr).tensor = some t)
  (hwindow : c.windowId t ((gradHdr hdr).start / 1048576) = w)

include htensor hwindow

theorem Cx.gradTry_duplicate (hfirst : c.gradBehind m (winStack w) = false)
    (hdup : c.gradDup m (winStack w) (gradHdr hdr) = true) : c.gradTry m epoch hdr vals status bucket =
      some (c.gradApply m w t ((gradHdr hdr).start / 1048576) epoch (gradHdr hdr) vals status bucket) := by
  simp [Cx.gradTry, htensor, hwindow, hfirst, hdup]

theorem Cx.gradTry_fits (hfirst : c.gradBehind m (winStack w) = false)
    (hnew : c.gradDup m (winStack w) (gradHdr hdr) = false)
    (hroom : (c.roomFor w epoch (gradHdr hdr)).accRoom w epoch (gradHdr hdr).slot ((gradHdr hdr).start % 1048576)
      (gradHdr hdr).count = true) : c.gradTry m epoch hdr vals status bucket =
      some ((c.roomFor w epoch (gradHdr hdr)).gradApply m w t ((gradHdr hdr).start / 1048576) epoch (gradHdr hdr) vals
        status bucket) := by
  unfold Cx.roomFor at hroom
  simp [Cx.gradTry, htensor, hwindow, hfirst, hnew, hroom, Cx.roomFor]

/-- A contribution waits behind an earlier one of its module to the stack (log entry 23), and where there is no room. -/
theorem Cx.gradTry_waits (hwaits : c.gradBehind m (winStack w) = true ∨
    (c.gradDup m (winStack w) (gradHdr hdr) = false ∧ (c.roomFor w epoch (gradHdr hdr)).accRoom w epoch
      (gradHdr hdr).slot ((gradHdr hdr).start % 1048576) (gradHdr hdr).count = false)) :
    c.gradTry m epoch hdr vals status bucket = none := by
  unfold Cx.roomFor at hwaits
  rcases hwaits with hbehind | ⟨hnew, hfull⟩
  · simp [Cx.gradTry, htensor, hwindow, hbehind]
  · simp [Cx.gradTry, htensor, hwindow, hnew, hfull]

end Try

/-- A GRAD_ADD of a module that is up, in order, to a window whose mode and state let it in. -/
structure TakesGradient (c : Cx) (m : Fin 64) (g : GradHdr) (t : Tensor) (w : Nat) (v : Win) : Prop where
  up : kget? c.modules m.val ≠ none
  shell : c.shellServes (moduleDie m.val) = true
  run : c.badRun g.tensor g.start g.count 512 g.reserved = none
  tensor : c.tensor? g.tensor = some t
  window : c.windowId t (g.start / 1048576) = w
  win : kget? c.wins w = some v
  mode : v.mode = none ∨ v.mode = some g.ordered
  good : c.gradStatus w (moduleDie m.val) = none

/-- A contribution that waits, in arrival order, and is counted in UPD_ACC_WAITS (R195). -/
def Cx.holdGrad (c : Cx) (m : Nat) (hdr : BitVec 128) (vals : List W16) (w : Nat) (v : Win) : Cx :=
  ({ c with gradHeld := c.gradHeld ++ [{
      m := m, epoch := v.openEpoch, hdr := hdr, vals := vals, since := c.ticks, slow := !v.resident
      die := c.owner (winStack w) }] } : Cx).bump (updBase (winStack w) + 0x808) 31 (homeDie (winStack w))

section Arrives

variable {s : State} {m : Fin 64} {hdr : BitVec 128} {t : Tensor} {w : Nat} {v : Win}
  (h : TakesGradient s.cx m (gradHdr hdr) t w v)

include h

theorem TakesGradient.tensor_inMode (o : Bool) : (s.cx.inMode w o).tensor? (gradHdr hdr).tensor = some t := by
  rw [Cx.tensor?, Cx.inMode, Cx.modWin_img]
  exact h.tensor

theorem TakesGradient.window_inMode (o : Bool) :
    (s.cx.inMode w o).windowId t ((gradHdr hdr).start / 1048576) = w := by
  rw [Cx.windowId, Cx.inMode, Cx.modWin_img]
  exact h.window

theorem exec_gradAdd_answers {vals : List W16} {d : Cx}
    (htry : (s.cx.inMode w (gradHdr hdr).ordered).gradTry m.val v.openEpoch hdr vals stOk 0 = some d) :
    exec (.gradAdd m hdr vals) s = s.go d := by
  change execGradAdd m hdr vals s = _
  unfold Cx.inMode at htry
  simp [execGradAdd, h.up, h.shell, h.run, h.tensor, h.window, h.win, Win.mode_fits h.mode, h.good, htry]

theorem exec_gradAdd_waits {vals : List W16}
    (htry : (s.cx.inMode w (gradHdr hdr).ordered).gradTry m.val v.openEpoch hdr vals stOk 0 = none) :
    exec (.gradAdd m hdr vals) s = s.go ((s.cx.inMode w (gradHdr hdr).ordered).holdGrad m.val hdr vals w v) := by
  change execGradAdd m hdr vals s = _
  unfold Cx.inMode at htry
  simp [execGradAdd, h.up, h.shell, h.run, h.tensor, h.window, h.win, Win.mode_fits h.mode, h.good, htry, Cx.holdGrad,
    Cx.inMode]

end Arrives

/-! ### Flights and the image beside shared operations -/

/-- Arming a step changes the arbiter alone. -/
theorem Cx.arm_eq (c : Cx) (n : Step) : c.arm n = { c with arb := (c.arm n).arb } := by
  unfold Cx.arm
  split
  · rfl
  · split <;> rfl

@[simp] theorem Cx.arm_img (c : Cx) (n : Step) : (c.arm n).img = c.img := by rw [Cx.arm_eq]

@[simp] theorem Cx.arm_streams (c : Cx) (n : Step) : (c.arm n).streams = c.streams := by rw [Cx.arm_eq]

@[simp] theorem Cx.orFlags_streams (c : Cx) (off : Nat) (f : Flags) : (c.orFlags off f).streams = c.streams := by
  unfold Cx.orFlags Cx.orReg
  split <;> rfl

@[simp] theorem Cx.poke_streams (c : Cx) (k : Nat) (bs : List Byte) : (c.poke k bs).streams = c.streams :=
  (foldl_keeps Cx.streams Cx.clearPoison_streams _ _).trans
    (foldl_keeps (fun p : Cx × Nat => p.1.streams) (fun _ _ => Cx.poke1_streams ..) bs (c, k))

@[simp] theorem Cx.basePut_streams (c : Cx) (s off : Nat) (bs : List Byte) :
    (c.basePut s off bs).streams = c.streams :=
  (Cx.writeBack_streams ..).trans (Cx.poke_streams ..)

theorem Cx.flight?_of_streams {c e : Cx} (st : StreamId) (num : W32) (h : e.streams = c.streams) :
    e.flight? st num = c.flight? st num := by
  rw [Cx.flight?, Cx.strm, h, Cx.flight?, Cx.strm]

/-- A command in flight after a change that keeps the commands' numbers. -/
theorem Cx.flight?_modFlight {c : Cx} {st : StreamId} {num : W32} {g : Flight} {f : Flight → Flight}
    (h : c.flight? st num = some g) (hnumber : ∀ x, (f x).number = x.number) :
    (c.modFlight st num f).flight? st num = some (f g) := by
  have hsame : ((fun x : Flight => decide (x.number = num)) ∘ fun x => if x.number = num then f x else x) =
      fun x => decide (x.number = num) := by
    funext x
    by_cases hx : x.number = num <;> simp [hx, hnumber]
  have hg : g.number = num := by simpa using List.find?_some h
  rw [Cx.flight?] at h
  rw [Cx.flight?, Cx.modFlight, Cx.modStrm_strm_self, List.find?_map, hsame, h]
  simp [hg]

/-! ### DRAIN (R197, R198) -/

theorem Cx.takeCut_img (c : Cx) (st : StreamId) (f : Flight) (scale : Option W32) (w : Nat) :
    (c.takeCut st f scale w).img = c.img := by
  unfold Cx.takeCut
  split
  · rfl
  · split_ifs
    · rfl
    · rfl
    · exact Cx.modWin_img ..

/-- A command that names a run of windows which it may use now: its tensor is not bound to another tenant, and no
window is fenced, busy or out of reach. -/
structure NamesRun (c : Cx) (st : StreamId) (f : Flight) (t : Tensor) (ws : List Nat) : Prop where
  run : c.runOf f = some (t, ws)
  bound : c.boundAway st f.tensor = false
  usable : windowsRefused st c ws = none

/-- A DRAIN in flight once it has taken the cuts that its windows let it take (log entry 29). -/
def Cx.drainCuts (c : Cx) (st : StreamId) (f : Flight) (ws : List Nat) : Cx :=
  ws.foldl (fun c w => c.takeCut st f f.fused w)
    (c.modFlight st f.number fun g => { g with phase := 1, wins := ws.map fun w => (w, WinOut.todo) })

theorem Cx.drainCuts_img (c : Cx) (st : StreamId) (f : Flight) (ws : List Nat) : (c.drainCuts st f ws).img = c.img :=
  foldl_keeps Cx.img (fun c w => c.takeCut_img st f f.fused w) ws _

theorem bodyDrain_waits {c : Cx} {st : StreamId} {f : Flight} {t : Tensor} {ws : List Nat} (h : NamesRun c st f t ws)
    (hphase : f.phase = 0) (hscale : (f.fused.map finitePositive).getD true = true)
    (hresident : (c.drainCuts st f ws).demandAll ws = (c.drainCuts st f ws, true))
    (hopen : (((c.drainCuts st f ws).flight? st f.number).map Flight.settled).getD false = false) :
    bodyDrain st f c = (c.drainCuts st f ws, .wait .gradients) := by
  unfold Cx.drainCuts at hresident hopen ⊢
  simp [bodyDrain, h.run, h.bound, h.usable, hphase, hscale, hresident, hopen, Function.comp_def]

theorem bodyDrain_ends {c : Cx} {st : StreamId} {f : Flight} {t : Tensor} {ws : List Nat}
    (hrun : c.runOf f = some (t, ws)) (hscale : (f.fused.map finitePositive).getD true = true)
    (hbound : c.boundAway st f.tensor = false) (hphase : f.phase = 1) (hsettled : f.settled = true) :
    bodyDrain st f c = okOpen c 0x21 := by
  simp [bodyDrain, hrun, hscale, hbound, hphase, hsettled]

/-! ### The drain of a window (R199) -/

/-- A window with a cut whose drain may start (R198). -/
structure Drains (c : Cx) (w : Nat) (v : Win) (own : StreamId × W32) : Prop where
  win : c.win? w = some v
  cut : v.cut = some own
  free : v.hold = false
  spec : v.specValid = false
  quiet : v.st = .quiet
  resident : v.resident = true
  unfenced : v.fenced = false
  arrived : c.lateValues w (v.eD + 1#3).toNat = false
  engine : c.engineHalted (winStack w) = false

theorem exec_windowDrain_drains {s : State} {w : BitVec 19} {v : Win} {own : StreamId × W32}
    (h : Drains s.cx w.toNat v own) :
    let ec := (v.eD + 1#3).toNat
    let c := (List.range 16384).foldl (fun c b => c.drainBlock w.toNat v ec own b) s.cx
    let c := (c.dropAcc w.toNat fun e => e = ec).modWin w.toNat fun v => { v with
      eD := BitVec.ofNat 3 ec, cuts := v.cuts.tail, lastCut := some own }
    exec (.windowDrain w) s = s.go (c.windowDone own w.toNat).serveGrads := by
  have hquiet : (v.st != .quiet) = false := by simp [h.quiet]
  intro ec d e
  change execWindowDrain w s = _
  simp only [execWindowDrain, h.win, h.cut, h.free, h.spec, hquiet, h.resident, h.unfenced, h.arrived, h.engine,
    Bool.not_true, Bool.or_self, Bool.false_eq_true, if_false, e, d, ec]

/-! ### PASS1 (R200, R244) -/

/-- A PASS1 in flight whose windows are all still to do, its step armed. -/
def Cx.pass1Begun (c : Cx) (st : StreamId) (f : Flight) (ws : List Nat) : Cx :=
  (c.arm f.step).modFlight st f.number fun g => { g with
    phase := 1, wins := ws.map fun w => (w, WinOut.todo), result := 0#64 }

theorem bodyPass1_ends {c : Cx} {st : StreamId} {f g : Flight} {t : Tensor} {ws : List Nat} (h : NamesRun c st f t ws)
    (hphase : f.phase = 0) (hresident : (c.pass1Begun st f ws).demandAll ws = (c.pass1Begun st f ws, true)) :
    let e := ws.foldl (fun c w => c.pass1Try st f t f.step w) (c.pass1Begun st f ws)
    e.flight? st f.number = some g → g.settled = true → bodyPass1 st f c = (e, .done stOk g.result.toNat) := by
  intro e hflight hsettled
  simp only [e] at hflight ⊢
  unfold Cx.pass1Begun at hresident hflight ⊢
  simp [bodyPass1, h.run, h.bound, h.usable, hphase, hresident, hflight, hsettled, Function.comp_def]

/-- A quiet window without a cut is held for the step, and its pass 1 runs. -/
theorem Cx.pass1Try_holds {c : Cx} {st : StreamId} {f : Flight} {t : Tensor} {n : Step} {w : Nat} {v : Win}
    (hwin : c.win? w = some v) (hresident : v.resident = true) (hquiet : v.st = .quiet)
    (hgoes : c.verdictFor v n ≠ some .abandon) (hcut : v.cut = none) :
    let u := { v with st := .held n, hold := true, verdict := none }
    c.pass1Try st f t n w = (c.modWin w fun _ => u).pass1Win st f w u t n := by
  simp [Cx.pass1Try, hwin, hresident, hquiet, hgoes, hcut]

theorem Cx.partials_streams (c : Cx) (w : Nat) (v : Win) (t : Tensor) : (c.partials w v t).1.streams = c.streams :=
  (Cx.basePut_streams ..).trans (Cx.basePut_streams ..)

/-- Pass 1 of a window marks it done in its command. -/
theorem Cx.flight?_pass1Win {c : Cx} {st : StreamId} {f g : Flight} (w : Nat) (v : Win) (t : Tensor) (n : Step)
    (h : c.flight? st f.number = some g) : ∃ x : Flight,
      (c.pass1Win st f w v t n).flight? st f.number = some x ∧ x.wins = setOut g.wins w .committed := by
  unfold Cx.pass1Win
  extract_lets s r p d gs bad nan zero e fl k
  have hpartials : d.streams = c.streams := by
    unfold d p
    split
    · exact Cx.partials_streams ..
    · rfl
  have hnans : e.streams = d.streams := by rw [show e = _ from Cx.foldl_nan _ nan d]
  have hflight : (e.orFlags (updFlagsReg s) fl).flight? st f.number = some g :=
    (Cx.flight?_of_streams st f.number ((Cx.orFlags_streams ..).trans (hnans.trans hpartials))).trans h
  -- Without their values the lists stay closed: opened, they are a million elements and 16384 blocks.
  clear_value e zero bad
  exact ⟨_, (Cx.flight?_of_streams st f.number (Cx.modWin_streams ..)).trans
    (Cx.flight?_modFlight hflight fun _ => rfl), rfl⟩

/-! ### The final sums (R201) -/

/-- The final sums of a factored tensor that has reported are recorded as those of the reported step. -/
theorem exec_statsCombine_records {s : State} {tensor : BitVec 24} {t : Tensor} {g : Img} {n : Step}
    (htensor : s.cx.tensor? tensor.toNat = some t) (hcfg : s.cx.img.cfg = some g) (hreported : s.cx.reported t = some n)
    (hfactored : t.factored = true) (hcore : s.cx.coreUp (s.cx.owner t.start) = true) :
    ∃ e : Cx, exec (.statsCombine tensor) s = s.go { e with finals := kput e.finals t.handle n } := by
  change ∃ e : Cx, execStatsCombine tensor s = _
  unfold execStatsCombine
  -- Named apart, the report stays closed: opened, it counts a tensor's windows one parameter at a time.
  obtain ⟨report, hreport⟩ : ∃ f, f = Cx.reported := ⟨_, rfl⟩
  rw [← hreport] at hreported ⊢
  simp only [htensor, hcfg, hreported, hfactored, hcore, Bool.not_true, Bool.or_self, Bool.false_eq_true, if_false]
  exact ⟨_, rfl⟩

/-- Settles O35, from the ways a contribution is tried, the meanings of DRAIN and PASS1, the drain of a window, and what
pass 1 of a window leaves of its command. -/
theorem gradientsComplete : Obligations.GradientsComplete := by
  refine ⟨?add, ?drain, ?drained, ?window, ?pass1, ?single, ?held, ?combine⟩
  case add =>
    intro s m hdr vals t v g w k i c d added hup hshell hrun htensor hwin hmode hgood
    have h : TakesGradient s.cx m g t w v := ⟨hup, hshell, hrun, htensor, rfl, hwin, hmode, hgood⟩
    have ht : c.tensor? g.tensor = some t := h.tensor_inMode g.ordered
    have hw : c.windowId t (g.start / 1048576) = w := h.window_inMode g.ordered
    have hadds (hfirst : c.gradBehind m.val k = false) (hnew : c.gradDup m.val k g = false)
        (hroom : d.accRoom w v.openEpoch g.slot i g.count = true) (hstill : d.gradDup m.val k g = false) :
        exec (.gradAdd m hdr vals) s = s.go (added d) :=
      exec_gradAdd_answers h ((Cx.gradTry_fits ht hw hfirst hnew hroom).trans
        (congrArg some (Cx.gradApply_new hstill)))
    refine ⟨fun hfirst hdup => ?_, fun hfirst hnew hroom => ?_, hadds, fun hwaits => ?_⟩
    · exact exec_gradAdd_answers h ((Cx.gradTry_duplicate ht hw hfirst hdup).trans
        (congrArg some (Cx.gradApply_duplicate hdup)))
    · have hd : d = c := Cx.makeRoom_of_room _ hroom
      have hsame := hadds hfirst hnew
      rw [hd] at hsame
      exact hsame hroom hnew
    · exact exec_gradAdd_waits h (Cx.gradTry_waits ht hw hwaits)
  case drain =>
    intro s st num cmd t ws hstart c f hrun hscale hbound husable d hresident hopen
    have hdisabling : d.disabling = false :=
      (Cx.disabling_of_img (c.drainCuts_img st f ws)).trans hstart.not_disabling
    exact congrArg s.go (Cx.runStream_wait hstart
      (bodyDrain_waits ⟨hrun, hbound, husable⟩ rfl hscale hresident hopen) hdisabling)
  case drained =>
    intro s st f t ws hresumes hrun hscale hbound hphase hsettled
    exact congrArg s.go (Cx.runStream_resumes hresumes (bodyDrain_ends hrun hscale hbound hphase hsettled))
  case window =>
    intro s w v own hwin hcut hhold hspec hquiet hresident hfenced hlate hengine
    exact exec_windowDrain_drains ⟨hwin, hcut, hhold, hspec, hquiet, hresident, hfenced, hlate, hengine⟩
  case pass1 =>
    intro s st num cmd t ws g hstart c f hrun hbound husable d hresident e hflight hsettled
    exact congrArg s.go (Cx.runStream_done hstart
      (bodyPass1_ends ⟨hrun, hbound, husable⟩ rfl hresident hflight hsettled))
  case single =>
    intro s st num cmd t w v hstart c f hrun hbound husable d hresident hwin haway hquiet hcut hgoes u e
    have harmed : (c.arm f.step).flight? st num = some f :=
      (Cx.flight?_of_streams st num (Cx.arm_streams ..)).trans (Cx.start_flight s.cx st _ num cmd hstart)
    have hbegun : (d.modWin w fun _ => u).flight? st num = some { f with
        phase := 1, wins := [(w, WinOut.todo)], result := 0#64 } :=
      (Cx.flight?_of_streams st num (Cx.modWin_streams ..)).trans (Cx.flight?_modFlight harmed fun _ => rfl)
    obtain ⟨g, hflight, hwins⟩ := Cx.flight?_pass1Win (f := f) w u t f.step hbegun
    have hsettled : g.settled = true := by simp [Flight.settled, hwins, setOut]
    have htry : d.pass1Try st f t f.step w = e := Cx.pass1Try_holds hwin haway hquiet hgoes hcut
    have hbody : bodyPass1 st f c = (d.pass1Try st f t f.step w, .done stOk g.result.toNat) :=
      bodyPass1_ends ⟨hrun, hbound, husable⟩ rfl hresident ((congrArg (Cx.flight? · st num) htry).trans hflight)
        hsettled
    exact ⟨g, hflight, congrArg s.go (Cx.runStream_done hstart (hbody.trans (by rw [htry])))⟩
  case held =>
    intro c st f t n w v hwin hresident hquiet hgoes hcut
    exact Cx.pass1Try_holds hwin hresident hquiet hgoes hcut
  case combine =>
    intro s tensor t g n htensor hcfg hreported hfactored hcore
    obtain ⟨e, hexec⟩ := exec_statsCombine_records htensor hcfg hreported hfactored hcore
    exact ⟨_, hexec, rfl, by simp [Cx.sumsFinal]⟩

end Sys2Proof.Machine
end

section
/-!
PROOF. NORM, REDUCE_SCATTER, ALL_GATHER and their messages (R205 to R210, R354, R356 to R358).
-/
namespace Sys2Proof.Machine

/-! ### A command's meaning beside the image -/

/-- A meaning that does not halt the stream as its command starts settles it. -/
theorem Cx.runStream_settles {c : Cx} {st : StreamId} {op : Nat} {body : Body} {num : W32} {cmd : BitVec 512}
    {r : Cx × Res} (h : Starts c st op num cmd) (hb : body st (newFlight c st num cmd) (c.start st num cmd) = r)
    (hgoes : ∀ reason, r.2 ≠ .halt reason) : c.runStream op body st = (Cx.settle r st num).haltIfBad st := by
  rw [Cx.runStream_starts c st op body num cmd h, hb]
  obtain ⟨d, res⟩ := r
  cases res with
  | done status result fl => rfl
  | wait why => rfl
  | halt reason => exact absurd rfl (hgoes reason)

/-- The image alone says which windows a command names. -/
theorem Cx.runOf_of_img {c e : Cx} (f : Flight) (h : e.img = c.img) : e.runOf f = c.runOf f := by
  simp only [Cx.runOf, Cx.tensor?, Cx.windowIds, Cx.windowId, h]

/-! ### NORM (R205, R357) -/

/-- A NORM that has read its lists. -/
def Flight.norming (f : Flight) (data : List Byte) : Flight := { f with data := data, phase := 1 }

/-- A NORM of one shard, at its start, whose operands are in order, whose lists a and b can be read, and whose tensors
it may use. -/
structure NormsAlone (c : Cx) (st : StreamId) (f : Flight) (a b : List Byte) : Prop where
  phase : f.phase = 0
  pos : 0 < f.normCount
  number : (Fmt.f64.unpack (f.arg 32 63 0)).isNan = false
  notNegative : (Fmt.f64.unpack (f.arg 32 63 0)).lt (.fin false 0 0) = false
  one : f.shards = 1
  first : f.shardRank = 0
  tensorTag : listTagOk (f.arg 16 63 0) = true
  shardTag : listTagOk (f.arg 48 63 0) = true
  tensors : c.listOperand st f 1 (f.arg 16 63 0) (4 * f.normCount) = .inr a
  shards : c.listOperand st f 5 (f.arg 48 63 0) (4 * f.shards) = .inr b
  known : ∀ h ∈ (f.norming (a ++ b)).normTensors, c.tensor? h ≠ none ∧ c.boundAway st h = false
  once : repeated (f.norming (a ++ b)).normTensors = false
  reached : c.noMasterFor st (f.norming (a ++ b)).normTensors = false

theorem bodyNorm_goes {c : Cx} {st : StreamId} {f : Flight} {a b : List Byte} (h : NormsAlone c st f a b) :
    bodyNorm st f c = ((c.arm f.normStep).modFlight st f.number fun x => x.norming (a ++ b)).normGo st
      (f.norming (a ++ b)) := by
  have hknown : ((f.norming (a ++ b)).normTensors.any fun x => (c.tensor? x).isNone) = false :=
    List.any_eq_false.2 fun x hx => by simpa [Option.isNone_iff_eq_none] using (h.known x hx).1
  have hbound : ((f.norming (a ++ b)).normTensors.any fun x => c.boundAway st x) = false :=
    List.any_eq_false.2 fun x hx => by simpa using (h.known x hx).2
  have honce := h.once
  have hreached := h.reached
  unfold Flight.norming at hknown hbound honce hreached ⊢
  simp only [bodyNorm, h.tensors, h.shards, hknown, hbound, honce, hreached]
  simp [h.phase, h.pos.ne', h.number, h.notNegative, h.one, h.first, h.tensorTag, h.shardTag]

/-- A NORM of one shard whose tensors have summed needs no other sum, and ends. -/
theorem Cx.normGo_alone {c : Cx} {st : StreamId} {g : Flight} {own : W64 × Flags} (hphase : g.phase = 1)
    (hreach : g.normNodes.find? (fun x => c.fab.unreachable.contains x) = none) (hone : g.normNodes.length = 1)
    (hfirst : g.shardRank = 0) (hown : c.shardSum g.normTensors g.normStep = some own) :
    c.normGo st g = ((c.sendSums g own.1).modFlight st g.number fun g => { g with phase := 2 }).endNorm st g [own.1]
      own.2 := by
  simp only [Cx.normGo, hreach, hown]
  simp [hphase, hone, hfirst, List.range_succ]

/-! ### REDUCE_SCATTER (R209, R356) -/

/-- A REDUCE_SCATTER that has read its list, its windows still to do. -/
def Flight.reducing (f : Flight) (ws : List Nat) (l : List Byte) : Flight :=
  { f with data := l, phase := 1, wins := ws.map fun w => (w, WinOut.todo) }

/-- A REDUCE_SCATTER at its start whose operands are in order and whose replica list l can be read and names this node;
c has its step armed. -/
structure Reduces (c : Cx) (st : StreamId) (f : Flight) (ws : List Nat) (l : List Byte) : Prop where
  phase : f.phase = 0
  pos : 0 < f.ranks
  many : f.ranks ≤ 4096
  rank : f.ownRank < f.ranks
  slots : f.rsOrdered = true → f.ranks ≤ 16
  scale : (f.fused.map finitePositive).getD true = true
  tag : listTagOk (f.arg 40 63 0) = true
  list : c.listOperand st f 4 (f.arg 40 63 0) (4 * f.ranks) = .inr l
  node : (f.reducing ws l).rsNodes.getD f.ownRank 0 = c.node.toNat
  bound : c.boundAway st f.tensor = false

theorem bodyReduceScatter_goes {c : Cx} {st : StreamId} {f : Flight} {t : Tensor} {ws : List Nat} {l : List Byte}
    (hrun : c.runOf f = some (t, ws)) (h : Reduces (c.arm (BitVec.ofNat 48 f.rsStep)) st f ws l) :
    bodyReduceScatter st f c =
      rsGo st (f.reducing ws l)
        ((c.arm (BitVec.ofNat 48 f.rsStep)).modFlight st f.number fun _ => f.reducing ws l) := by
  have hslots : (f.rsOrdered && decide (f.ranks > 16)) = false := by simpa using h.slots
  have hnode := h.node
  unfold Flight.reducing at hnode ⊢
  simp only [bodyReduceScatter, hrun, h.list, hnode, hslots, h.bound]
  simp [h.phase, h.pos.ne', Nat.not_lt.2 h.many, Nat.not_le.2 h.rank, h.scale, h.tag]

theorem windowsRefused_ends {st : StreamId} {c : Cx} {ws : List Nat} {r : Cx × Res}
    (h : windowsRefused st c ws = some r) (reason : Nat) : r.2 ≠ .halt reason := by
  unfold windowsRefused at h
  split at h
  · cases h
    split <;> nofun
  · split at h
    · cases h
      nofun
    · cases h

/-- With its run known, a REDUCE_SCATTER ends or waits. -/
theorem rsGo_goes {c : Cx} {st : StreamId} {f : Flight} {t : Tensor} {ws : List Nat} (hrun : c.runOf f = some (t, ws))
    (reason : Nat) : (rsGo st f c).2 ≠ .halt reason := by
  unfold rsGo
  split
  case h_1 hnone =>
    rw [hrun] at hnone
    cases hnone
  case h_2 => nofun
  case h_3 =>
    split
    case h_1 hrefused => exact windowsRefused_ends hrefused reason
    case h_2 =>
      dsimp only
      split
      · split <;> nofun
      · nofun

/-- With its windows in reach and resident, a REDUCE_SCATTER goes on window by window. -/
theorem rsGo_windows {c : Cx} {st : StreamId} {f g : Flight} {t : Tensor} {ws : List Nat}
    (hrun : c.runOf f = some (t, ws)) (hreach : f.rsNodes.find? (fun x => c.fab.unreachable.contains x) = none)
    (husable : windowsRefused st c ws = none) (hresident : c.demandAll ws = (c, true))
    (hflight : (c.tryReceipts.rsWindows st f.number ws).flight? st f.number = some g) :
    rsGo st f c = (c.tryReceipts.rsWindows st f.number ws, if g.wins.all fun x => x.2 == .untouched
      then .done stOk (ws.filter f.owns).length else .wait .gradients) := by
  simp only [rsGo, hrun, hreach, husable, hresident, hflight, if_true]
  split <;> rfl

/-- A contribution that the owner's command takes for its window, in the window's mode, with room for its blocks; d has
them added. -/
structure Contributes (c : Cx) (m : Msg) (bs : List (Nat × List W16)) (st : StreamId) (f : Flight) (v : Win)
    (t : Tensor) (d : Cx) : Prop where
  fresh : c.rsApplied (m.fields.getD 0 0) (m.fields.getD 1 0) (m.fields.getD 2 0) = false
  taker : c.rsTaker (m.fields.getD 0 0) (m.fields.getD 1 0) = some (st, f)
  win : c.win? (m.fields.getD 0 0) = some v
  tensor : c.tensor? v.tensor = some t
  mode : v.mode = none ∨ v.mode = some f.rsOrdered
  blocks : bs = (blocksIn (m.fields.getD 3 0) (m.fields.getD 5 0) m.data).filter fun b => b.1 < 16384
  some_block : bs ≠ []
  added : c.addBlocks (m.fields.getD 0 0) t v (if f.rsOrdered then m.fields.getD 2 0 else 0) (m.fields.getD 1 0) bs =
    some d

/-! ### ALL_GATHER (R358) -/

theorem Cx.sendOne_img {c e : Cx} {p : Nat} (hsend : c.sendOne p = some e) : e.img = c.img := by
  unfold Cx.sendOne at hsend
  dsimp only at hsend
  split at hsend
  · cases hsend
  · split at hsend
    · cases hsend
    · cases hsend
      rfl

theorem Cx.pumpFuel_img (fuel p : Nat) (c : Cx) : (Cx.pumpFuel fuel p c).img = c.img := by
  induction fuel generalizing c with
  | zero => rfl
  | succ fuel ih =>
    rw [Cx.pumpFuel]
    split
    · rename_i hsend
      exact (ih _).trans (Cx.sendOne_img hsend)
    · rfl

theorem Cx.sendMsg_img (c : Cx) (p : Nat) (m : Msg) : (c.sendMsg p m).img = c.img := by
  unfold Cx.sendMsg
  split
  · rfl
  · split
    · unfold Cx.portSend
      split
      · rfl
      · exact Cx.pumpFuel_img ..
    · exact Cx.bump_img ..

theorem Cx.request_img (c : Cx) (st : StreamId) (num : W32) (op vc : Nat) (dest : BitVec 17) (addr arg : W64)
    (size : Nat) (data : List Byte) (off len : Nat) (fields : List Nat) :
    (c.request st num op vc dest addr arg size data off len fields).img = c.img :=
  Cx.sendMsg_img ..

/-- An ALL_GATHER in flight whose n entries have each been sent to their node. -/
def Cx.agAsked (c : Cx) (st : StreamId) (f : Flight) (n : Nat) (l : List Byte) : Cx :=
  (List.range n).foldl (fun c i => match (agEntries l n)[i]? with
    | some e => c.request st f.number 0x15 2 (BitVec.ofNat 17 e.node) 0#64 0#64 1 [] i 0
        [e.tensor, e.k, e.count, e.version, b2n e.latest]
    | none => c) (c.modFlight st f.number fun g => { g with
      phase := 1, data := l
      wins := (List.range n).map fun i => ((c.fab.nextTag + BitVec.ofNat 16 i).toNat, WinOut.todo) })

theorem Cx.agAsked_img (c : Cx) (st : StreamId) (f : Flight) (n : Nat) (l : List Byte) :
    (c.agAsked st f n l).img = c.img :=
  foldl_keeps Cx.img (fun c i => by split; exacts [Cx.request_img .., rfl]) _ _

/-- An ALL_GATHER at its start whose operands are in order and whose n entries l can be read. -/
structure GathersAll (c : Cx) (st : StreamId) (f : Flight) (n : Nat) (l : List Byte) : Prop where
  phase : f.phase = 0
  count : f.arg 24 12 0 = n
  pos : 0 < n
  many : n ≤ 4096
  space : bits (f.arg 32 63 0) 63 60 = 0 ∨ bits (f.arg 32 63 0) 63 60 = 2 ∨ bits (f.arg 32 63 0) 63 60 = 3 ∨
    bits (f.arg 32 63 0) 63 60 = 4
  list : c.listOperand st f 1 (f.arg 16 63 0) (32 * n) = .inr l
  entries : ∀ e ∈ agEntries l n, e.reserved = false ∧ e.off % 64 = 0 ∧ c.fab.unreachable.contains e.node = false
  apart : agOverlap (agEntries l n) = false
  dest : c.badOperand? st f .write 3 (f.arg 32 63 0) (((agEntries l n).map fun e => e.off + e.len).foldl max 0) = none

theorem bodyAllGather_asks {c : Cx} {st : StreamId} {f : Flight} {n : Nat} {l : List Byte}
    (h : GathersAll c st f n l) : bodyAllGather st f c = (c.agAsked st f n l, .wait .fabricCredit) := by
  have hspace : [0, 2, 3, 4].contains (bits (f.arg 32 63 0) 63 60) = true := by simpa using h.space
  have hgood : ((agEntries l n).any fun e => e.reserved || e.off % 64 != 0) = false :=
    List.any_eq_false.2 fun e he => by
      obtain ⟨hreserved, haligned, _⟩ := h.entries e he
      simp [hreserved, haligned]
  have hreach : ((agEntries l n).find? fun e => c.fab.unreachable.contains e.node) = none :=
    List.find?_eq_none.2 fun e he => by
      obtain ⟨_, _, hreached⟩ := h.entries e he
      rw [hreached]
      decide
  have hcount : (decide (n = 0) || decide (n > 4096)) = false := by simp [h.pos.ne', h.many]
  simp only [bodyAllGather, h.phase, h.count, hcount, hspace, h.list, hgood, h.apart, h.dest, hreach]
  rfl

/-- A query holds the slots of the windows that it selects, in the name of its node and tag (R78). -/
def Cx.agHold (c : Cx) (m : Msg) (l : List AgWin) : Cx :=
  { c with
    fab := { c.fab with agHolds := c.fab.agHolds ++ [{ tag := m.tag.toNat, src := m.src.toNat, wins := l }] }
    holds := (c.holds ++ (l.filter fun x => !x.stash).map fun x =>
      (winStack x.w, x.slot, agHolder m.src.toNat, m.tag.toNat)) }

/-! ### Messages (R354, R356 to R358) -/

section Messages

variable {s : State} {p : Fin 13} {m : Msg} (harrived : s.cx.arrived p m = true)

include harrived

/-- A sum for a step without a waiting NORM is kept (log entry 76). -/
theorem exec_normSum_keeps (hop : m.op.toNat = 0x12)
    (hnone : (s.cx.consume p m).waitingNorm (BitVec.ofNat 48 (m.fields.getD 0 0)) = none) :
    exec (.normSum p m) s = s.go { s.cx.consume p m with fab := { (s.cx.consume p m).fab with
      sums := keepSum (s.cx.consume p m).fab.sums (BitVec.ofNat 48 (m.fields.getD 0 0), m.src.toNat, m.fields.getD 1 0,
        BitVec.ofNat 64 (m.fields.getD 2 0)) } } := by
  change execNormSum p m s = _
  simp only [execNormSum, Cx.onMsg_arrived _ hop harrived, hnone]

/-- The blocks of a contribution that is not its last message are added, and its window takes the command's mode (log
entry 55). -/
theorem exec_rsBlocks_adds (hop : m.op.toNat = 0x10) {bs : List (Nat × List W16)} {st : StreamId} {f : Flight} {v : Win}
    {t : Tensor} {d : Cx} (h : Contributes s.cx m bs st f v t d) (hmore : m.fields.getD 4 0 ≠ 1) :
    exec (.rsBlocks p m) s =
      s.go ((d.modWin (m.fields.getD 0 0) fun v => { v with mode := some f.rsOrdered }).consume p m) := by
  change execRsBlocks p m s = _
  simp only [execRsBlocks, ← h.blocks, h.fresh, h.taker, h.win, h.tensor, Option.map_some, Option.getD_some,
    Win.mode_fits h.mode, h.added, List.isEmpty_eq_false_iff.2 h.some_block, hmore]
  simp [hop, harrived]

/-- A query whose windows are resident and serve its version holds them, and is answered `OK`. -/
theorem exec_agQuery_holds (hop : m.op.toNat = 0x15) {t : Tensor} {l : List AgWin}
    (htensor : s.cx.tensor? (m.fields.getD 0 0) = some t) (hpos : 0 < m.fields.getD 2 0)
    (hrange : m.fields.getD 1 0 + m.fields.getD 2 0 ≤ t.windows)
    (hresident : s.cx.demandAll (s.cx.windowIds t (m.fields.getD 1 0) (m.fields.getD 2 0)) = (s.cx, true))
    (hserved : (s.cx.consume p m).agSelect t (m.fields.getD 1 0) (m.fields.getD 2 0) (m.fields.getD 4 0 = 1)
      (BitVec.ofNat 32 (m.fields.getD 3 0)) = .inr l) :
    exec (.agQuery p m) s = s.go (((s.cx.consume p m).agHold m l).sendMsg 0
      (((s.cx.consume p m).agHold m l).mkMsg 0x16 2 m.src m.tag 0#64 0#64 1 [] [stOk, 0])) := by
  have hgood : (decide (m.fields.getD 2 0 = 0) || decide (m.fields.getD 1 0 + m.fields.getD 2 0 > t.windows)) =
      false := by rw [decide_eq_false hpos.ne', decide_eq_false hrange.not_gt, Bool.or_self]
  change execAgQuery p m s = _
  simp only [execAgQuery, hop, harrived, htensor, hgood, hresident, hserved]
  rfl

/-- A node that serves its query leaves the worst status as it is (R261), and the command goes on. -/
theorem exec_agReply_goes (hop : m.op.toNat = 0x16) {r : Req} (hreq : (s.cx.consume p m).req? m.tag = some r)
    (hkind : r.op = 0x15) (hok : m.fields.getD 0 0 = 0) : exec (.agReply p m) s =
      s.go ((((s.cx.consume p m).dropReq r.tag).modFlight r.stream r.command fun f =>
        { f with awaits := f.awaits.filter (· != r.tag.toNat) }).runFlight bodyAllGather r.stream r.command) := by
  have hbest (k : Nat) : ¬ agRank 0 > agRank k := Nat.not_lt_zero _
  change execAgReply p m s = _
  simp only [execAgReply, Cx.onMsg_arrived _ hop harrived, hreq, hkind, hok, hbest, if_false]
  rfl

/-- Image data that is not the last of its node is written at the entry's place of the destination. -/
theorem exec_agData_stores (hop : m.op.toNat = 0x17) {r : Req} {f : Flight} (hdata : m.fields.getD 0 0 = 1)
    (hmore : m.fields.getD 1 0 = 0) (hreq : (s.cx.consume p m).req? m.tag = some r)
    (hflight : (s.cx.consume p m).flight? r.stream r.command = some f) (hkind : r.op = 0x17) (hopen : f.status = none) :
    exec (.agData p m) s = s.go (((s.cx.consume p m).hubWrite (f.arg 32 63 0 +
      ((agEntries f.data (r.off + 1)).map (·.off)).getD r.off 0 + m.addr.toNat) m.data).noteWrite r.stream
        (f.arg 32 63 0)) := by
  change execAgData p m s = _
  simp only [execAgData, Cx.onMsg_arrived _ hop harrived, hdata, hmore, hreq, hflight, hkind, hopen]
  rfl

end Messages

/-- Settles O39, from the meanings of the three commands at their start, the progress of a REDUCE_SCATTER, and what each
message does. -/
theorem collectivesComplete : Obligations.CollectivesComplete := by
  refine ⟨?norm, ?sum, ?reduce, ?windows, ?blocks, ?receipt, ?gather, ?query, ?reply, ?data, ?release, fun s tag => rfl⟩
  case norm =>
    intro s st num cmd a b own hstart c f g x hpos hnan hnegative hone hfirst htensorTag hshardTag htensors hshards
      hknown honce hreached d hreach hlength hown e r
    have hgo : bodyNorm st f c = r :=
      (bodyNorm_goes ⟨rfl, hpos, hnan, hnegative, hone, hfirst, htensorTag, hshardTag, htensors, hshards, hknown, honce,
        hreached⟩).trans (Cx.normGo_alone rfl hreach hlength hfirst hown)
    exact congrArg s.go (Cx.runStream_settles hstart hgo nofun)
  case sum =>
    intro s p m hop harrived c n hnone
    exact exec_normSum_keeps harrived hop hnone
  case reduce =>
    intro s st num cmd t ws l hstart c f g hrun hpos hmany hrank hslots hscale a htag hlist hnode hbound
    have himg : (a.modFlight st num fun _ => g).img = c.img := Cx.arm_img ..
    exact congrArg s.go (Cx.runStream_settles hstart
      (bodyReduceScatter_goes hrun ⟨rfl, hpos, hmany, hrank, hslots, hscale, htag, hlist, hnode, hbound⟩)
      (rsGo_goes ((Cx.runOf_of_img g himg).trans hrun)))
  case windows =>
    intro c st f g t ws hrun hreach husable hresident hflight
    exact rsGo_windows hrun hreach husable hresident hflight
  case blocks =>
    intro s p m st f v t d w bs hop harrived hfresh htaker hwin htensor hmode hsome hmore hadded
    exact exec_rsBlocks_adds harrived hop ⟨hfresh, htaker, hwin, htensor, hmode, rfl, hsome, hadded⟩ hmore
  case receipt =>
    intro s p m hop harrived c w step old new d
    exact congrArg s.go (Cx.onMsg_arrived _ hop harrived)
  case gather =>
    intro s st num cmd l hstart c f n dest es hpos hmany hspace hlist hentries hapart hdest d e
    have hopen : e.disabling = false := (Cx.disabling_of_img (c.agAsked_img st f n l)).trans hstart.not_disabling
    exact congrArg s.go (Cx.runStream_wait hstart
      (bodyAllGather_asks ⟨rfl, rfl, hpos, hmany, hspace, hlist, hentries, hapart, hdest⟩) hopen)
  case query =>
    intro s p m t l k n ver hop harrived htensor hpos hrange hresident c hserved d
    exact exec_agQuery_holds harrived hop htensor hpos hrange hresident hserved
  case reply =>
    intro s p m r hop harrived c hreq hkind hok
    exact exec_agReply_goes harrived hop hreq hkind hok
  case data =>
    intro s p m r f hop harrived c hdata hmore hreq hflight hkind hopen dest off
    exact exec_agData_stores harrived hop hdata hmore hreq hflight hkind hopen
  case release =>
    intro s p m hop harrived
    exact congrArg s.go (Cx.onMsg_arrived _ hop harrived)

end Sys2Proof.Machine
end

section
/-!
PROOF. Words of rule instructions: their fields, and that a word and its instruction name each other (R219, Tables 9.2 to
9.4).
-/
namespace Sys2Proof.Machine

/-! ### The fields of a rule word (Table 9.2) -/

section Fields

variable (op : BitVec 6) (d : BitVec 4) (a b c : BitVec 6) (q : RPred)

/-- The bits of a rule word, lowest first. -/
theorem getLsbD_ruleWord (i : Nat) : (ruleWord op d a b c q).getLsbD i =
    if i < 2 then q.p.getLsbD i else if i < 3 then q.pn else if i < 4 then q.pe
    else if i < 10 then c.getLsbD (i - 4) else if i < 16 then b.getLsbD (i - 10)
    else if i < 22 then a.getLsbD (i - 16) else if i < 26 then d.getLsbD (i - 22) else op.getLsbD (i - 26) := by
  change BitVec.getLsbD (w := 6 + 4 + 6 + 6 + 6 + 1 + 1 + 2) _ i = _
  simp only [ruleWord, BitVec.getLsbD_append, Nat.sub_sub]
  grind [BitVec.getLsbD_ofBool]

@[simp] theorem ruleWord_op : (ruleWord op d a b c q).extractLsb' 26 6 = op := by
  ext j hj
  grind [getLsbD_ruleWord]

@[simp] theorem ruleWord_d {k : Nat} (hk : k ≤ 4) :
    (ruleWord op d a b c q).extractLsb' 22 k = d.extractLsb' 0 k := by
  ext j hj
  grind [getLsbD_ruleWord]

@[simp] theorem ruleWord_a {k : Nat} (hk : k ≤ 6) :
    (ruleWord op d a b c q).extractLsb' 16 k = a.extractLsb' 0 k := by
  ext j hj
  grind [getLsbD_ruleWord]

@[simp] theorem ruleWord_b {k : Nat} (hk : k ≤ 6) :
    (ruleWord op d a b c q).extractLsb' 10 k = b.extractLsb' 0 k := by
  ext j hj
  grind [getLsbD_ruleWord]

@[simp] theorem ruleWord_c : (ruleWord op d a b c q).extractLsb' 4 6 = c := by
  ext j hj
  grind [getLsbD_ruleWord]

@[simp] theorem ruleWord_p : (ruleWord op d a b c q).extractLsb' 0 2 = q.p := by
  ext j hj
  grind [getLsbD_ruleWord]

@[simp] theorem ruleWord_bit_b : (ruleWord op d a b c q)[10] = b[0] := by
  rw [← BitVec.getLsbD_eq_getElem, getLsbD_ruleWord]
  rfl

@[simp] theorem ruleWord_bit_pe : (ruleWord op d a b c q)[3] = q.pe := by
  rw [← BitVec.getLsbD_eq_getElem, getLsbD_ruleWord]
  rfl

@[simp] theorem ruleWord_bit_pn : (ruleWord op d a b c q)[2] = q.pn := by
  rw [← BitVec.getLsbD_eq_getElem, getLsbD_ruleWord]
  rfl

end Fields

/-! ### Registers and modes in a wider field -/

@[simp] theorem low_predDest (d : BitVec 2) : (0#2 ++ d : BitVec 4).extractLsb' 0 2 = d :=
  BitVec.extractLsb'_append_eq_right

@[simp] theorem low_predOperand (a : BitVec 2) : (0#4 ++ a : BitVec 6).extractLsb' 0 2 = a :=
  BitVec.extractLsb'_append_eq_right

@[simp] theorem low_vecOperand (a : BitVec 4) : (0#2 ++ a : BitVec 6).extractLsb' 0 4 = a :=
  BitVec.extractLsb'_append_eq_right

@[simp] theorem low_modeBit (m : Bool) : (0#5 ++ BitVec.ofBool m : BitVec 6)[0] = m := by
  cases m <;> rfl

/-! ### Round trip (R219) -/

/-- The fields of an instruction's word name the instruction. -/
theorem readRule_encodeRule (i : RInstr) : readRule (encodeRule i) = some i := by
  cases i with
  | alu2 op d a b q => cases op <;> simp [encodeRule, readRule, Alu2.op]
  | alu3 op d a b c q => cases op <;> simp [encodeRule, readRule, Alu3.op]
  | alu1 op d a q => cases op <;> simp [encodeRule, readRule, Alu1.op]
  | cmp op d a b q => cases op <;> simp [encodeRule, readRule, Cmp.op]
  | _ => simp [encodeRule, readRule]

/-- A word decodes to the instruction that its fields name when that is well formed and the word is its own. -/
theorem decodeRule_eq_some_iff {w : BitVec 32} {i : RInstr} :
    decodeRule w = some i ↔ i.wf = true ∧ encodeRule i = w := by
  constructor
  · intro h
    unfold decodeRule at h
    split at h
    · split at h
      case isTrue hgood =>
        cases h
        simpa using hgood
      case isFalse => cases h
    · cases h
  · rintro ⟨hwf, rfl⟩
    simp [decodeRule, readRule_encodeRule, hwf]

/-- Settles O5, from what decoding a word says of its instruction. -/
theorem ruleWordRoundTrip : Obligations.RuleWordRoundTrip :=
  ⟨fun _ hwf => decodeRule_eq_some_iff.2 ⟨hwf, rfl⟩, fun _ _ h => decodeRule_eq_some_iff.1 h⟩

/-- Settles O7: each word is evaluated. -/
theorem wordsDecode : Obligations.WordsDecode := by
  unfold Obligations.WordsDecode
  decide

end Sys2Proof.Machine
end

section
/-!
PROOF. What an instruction puts into the registers of its lane group (R215, R220, R222, Tables 9.3 and 9.4).
-/
namespace Sys2Proof.Machine

/-! ### Lists of lanes -/

/-- Entries made from a list of keys. -/
theorem kget?_map_keys {α : Type} (f : Nat → α) (l : List Nat) (j : Nat) :
    kget? (l.map fun k => (k, f k)) j = if j ∈ l then some (f j) else none := by
  induction l with
  | nil => rfl
  | cons k l ih =>
    by_cases hk : k = j
    · simp [kget?, hk]
    · simp [kget?, hk, ih, Ne.symm hk]

/-- A number made of bits stays below its width. -/
theorem sum_bits_lt (g : Nat → Bool) (n : Nat) :
    (List.range n).foldl (fun a j => a + b2n (g j) * 2 ^ j) 0 < 2 ^ n := by
  induction n with
  | zero => exact Nat.one_pos
  | succ n ih =>
    have htop : b2n (g n) * 2 ^ n ≤ 2 ^ n := by cases g n <;> simp [b2n]
    rw [List.range_succ, List.foldl_append, List.foldl_cons, List.foldl_nil, pow_succ]
    omega

/-- A number made of bits has them. -/
theorem testBit_sum_bits (g : Nat → Bool) (n j : Nat) :
    ((List.range n).foldl (fun a j => a + b2n (g j) * 2 ^ j) 0).testBit j = (decide (j < n) && g j) := by
  induction n with
  | zero => simp
  | succ n ih =>
    have htop : b2n (g n) = (g n).toNat := by cases g n <;> rfl
    rw [List.range_succ, List.foldl_append, List.foldl_cons, List.foldl_nil, Nat.add_comm, Nat.mul_comm,
      Nat.testBit_two_pow_mul_add _ (sum_bits_lt g n), ih, htop, Nat.testBit_bool_toNat]
    rcases lt_trichotomy j n with hlt | rfl | hgt
    · simp [hlt, Nat.lt_succ_of_lt hlt]
    · simp
    · simp [hgt.not_gt, Nat.sub_ne_zero_of_lt hgt, show ¬ j < n + 1 by omega]

/-! ### Registers of a lane group -/

theorem LaneCtx.vreg_setV_self {l : LaneCtx} {r : Nat} (x : List W32) (h : r < l.v.length) :
    (l.setV r x).vreg r = x := by
  simp [LaneCtx.vreg, LaneCtx.setV, h]

theorem LaneCtx.vreg_setV_ne (l : LaneCtx) {r q : Nat} (x : List W32) (h : q ≠ r) :
    (l.setV r x).vreg q = l.vreg q := by
  simp [LaneCtx.vreg, LaneCtx.setV, List.getElem?_set_ne h.symm]

theorem LaneCtx.preg_setP_self {l : LaneCtx} {r : Nat} (x : BitVec 64) (h : r < l.p.length) :
    (l.setP r x).preg r = x := by
  simp [LaneCtx.preg, LaneCtx.setP, h]

theorem LaneCtx.preg_setP_ne (l : LaneCtx) {r q : Nat} (x : BitVec 64) (h : q ≠ r) :
    (l.setP r x).preg q = l.preg q := by
  simp [LaneCtx.preg, LaneCtx.setP, List.getElem?_set_ne h.symm]

/-! ### Vector results (R215, R220) -/

section Vector

variable (e : RuleEnv) (l : LaneCtx) (d : Nat) (q : RPred) (f : Nat → LaneOut)

theorem vecFx_lane (hd : d < l.v.length) {j : Nat} (hj : j < 64) :
    ((vecFx e l d q f).l.vreg d).getD j 0#32 = if predRuns q l j then (f j).v else (l.vreg d).getD j 0#32 := by
  simp only [vecFx, LaneCtx.vreg_setV_self _ hd, kget?_map_keys, List.mem_filter, List.mem_range]
  cases hruns : predRuns q l j <;> simp [hj, hruns]

theorem vecFx_vreg_ne {r : Nat} (h : r ≠ d) : (vecFx e l d q f).l.vreg r = l.vreg r :=
  LaneCtx.vreg_setV_ne l _ h

@[simp] theorem vecFx_p : (vecFx e l d q f).l.p = l.p := rfl
@[simp] theorem vecFx_puts : (vecFx e l d q f).puts = [] := rfl
@[simp] theorem vecFx_drizzle : (vecFx e l d q f).drizzle = [] := rfl

end Vector

section Predicate

variable (e : RuleEnv) (l : LaneCtx) (d : Nat) (q : RPred) (f : Nat → Bool × Flags)

theorem predFx_lane (hd : d < l.p.length) {j : Nat} (hj : j < 64) :
    ((predFx e l d q f).l.preg d).getLsbD j = if predRuns q l j then (f j).1 else (l.preg d).getLsbD j := by
  simp only [predFx, LaneCtx.preg_setP_self _ hd, BitVec.getLsbD_ofNat, testBit_sum_bits, kget?_map_keys,
    List.mem_filter, List.mem_range]
  cases hruns : predRuns q l j <;> simp [hj]

theorem predFx_preg_ne {r : Nat} (h : r ≠ d) : (predFx e l d q f).l.preg r = l.preg r :=
  LaneCtx.preg_setP_ne l _ h

@[simp] theorem predFx_v : (predFx e l d q f).l.v = l.v := rfl
@[simp] theorem predFx_puts : (predFx e l d q f).puts = [] := rfl

end Predicate

/-- The outputs that an instruction puts into a vector register, and the lane values that it gives there. -/
theorem ruleSem_of_laneValue {c : Cx} {e : RuleEnv} {l : LaneCtx} {i : RInstr} (h : laneValue c e l 0 i ≠ none) :
    i.dest < 16 ∧ ∃ f : Nat → LaneOut, ruleSem i c e l = vecFx e l i.dest i.pred f ∧
      ∀ j, laneValue c e l j i = some (f j).v := by
  cases i with
  | alu2 op d a b q => exact ⟨d.isLt, _, rfl, fun _ => rfl⟩
  | alu3 op d a b k q => exact ⟨d.isLt, _, rfl, fun _ => rfl⟩
  | alu1 op d a q => exact ⟨d.isLt, _, rfl, fun _ => rfl⟩
  | ldw d m q => exact ⟨d.isLt, _, rfl, fun _ => rfl⟩
  | ldg d q => exact ⟨d.isLt, _, rfl, fun j => by simp only [laneValue]; split <;> rfl⟩
  | ldm d q => exact ⟨d.isLt, _, rfl, fun _ => rfl⟩
  | ldb d q => exact ⟨d.isLt, _, rfl, fun _ => rfl⟩
  | fac d q => exact ⟨d.isLt, _, rfl, fun j => by simp only [laneValue]; split <;> rfl⟩
  | _ => exact absurd rfl h

/-- The bits that an instruction puts into a predicate register. -/
theorem ruleSem_of_laneBit {c : Cx} {e : RuleEnv} {l : LaneCtx} {i : RInstr} (h : laneBit e l 0 i ≠ none) :
    i.dest < 4 ∧ ∃ f : Nat → Bool × Flags, ruleSem i c e l = predFx e l i.dest i.pred f ∧
      ∀ j, j < 64 → laneBit e l j i = some (f j).1 := by
  cases i with
  | cmp op d a b q => exact ⟨d.isLt, _, rfl, fun _ _ => rfl⟩
  | pand d a b q => exact ⟨d.isLt, _, rfl, fun _ _ => rfl⟩
  | por d a b q => exact ⟨d.isLt, _, rfl, fun _ _ => rfl⟩
  | pnot d a q => exact ⟨d.isLt, _, rfl, fun j hj => by simp [laneBit, hj]⟩
  | _ => exact absurd rfl h

/-- Settles O24, from the lane outputs of the instruction. -/
theorem ruleLaneValues : Obligations.RuleLaneValues := by
  intro c e l i hlen hvalue
  obtain ⟨hd, f, hsem, hlane⟩ := ruleSem_of_laneValue hvalue
  rw [hsem]
  refine ⟨fun j hj x hx => ?_, fun r hr => vecFx_vreg_ne e l _ _ f hr, rfl, rfl, rfl⟩
  obtain rfl : (f j).v = x := Option.some.inj ((hlane j).symm.trans hx)
  exact vecFx_lane e l _ _ f (hlen ▸ hd) hj

/-- Settles O25, from the lane bits of the instruction. -/
theorem rulePredicateBits : Obligations.RulePredicateBits := by
  intro c e l i hlen hbit
  obtain ⟨hd, f, hsem, hlane⟩ := ruleSem_of_laneBit (c := c) hbit
  rw [hsem]
  refine ⟨fun j hj x hx => ?_, fun r hr => predFx_preg_ne e l _ _ f hr, rfl, rfl⟩
  obtain rfl : (f j).1 = x := Option.some.inj ((hlane j hj).symm.trans hx)
  exact predFx_lane e l _ _ f (hlen ▸ hd) hj

end Sys2Proof.Machine
end

section
/-!
PROOF. A rule instruction in a lane group that has reached it (R213, R220, R227), and a store that reaches beyond its
stack.
-/
namespace Sys2Proof.Machine

/-! ### A rule row is its instruction's step (Table 9.4) -/

/-- The command of an instruction that works on a block steps its lane group by the instruction's meaning. -/
theorem exec_row {i : RInstr} (at_ : LaneAt) (s : State) (h : i.isFstat = false) :
    exec (i.row at_) s = s.go (s.cx.ruleStep at_ i (ruleSem i)) := by
  cases i with
  | alu2 op d a b q => cases op <;> rfl
  | alu3 op d a b k q => cases op <;> rfl
  | alu1 op d a q => cases op <;> rfl
  | cmp op d a b q => cases op <;> rfl
  | fstat a b k => cases h
  | _ => rfl

/-- The lane group's context after an instruction. -/
def LaneCtx.after (l : LaneCtx) (f : RuleFx) : LaneCtx :=
  { f.l with pc := l.pc + 1, clamped := f.l.clamped || f.clamped != 0, zeroed := f.l.zeroed || f.zeroed != 0 }

theorem LaneCtx.after_block (i : RInstr) (c : Cx) (e : RuleEnv) (l : LaneCtx) :
    (l.after (ruleSem i c e l)).block = l.block := ruleSem_block i c e l

/-- The complex after an instruction that a lane group runs, before its block closes. -/
def Cx.afterRow (c : Cx) (at_ : LaneAt) (i : RInstr) (e : RuleEnv) (l : LaneCtx) : Cx :=
  let f := ruleSem i c e l
  (c.applyFx e i.cycles f).keepLane at_.window.toNat at_.group.val (l.after f) f.fl f.zeroed

/-- An instruction that its lane group has reached runs; after the program's last word the block closes and the group
takes its next one (R213, R215, R227). -/
theorem exec_row_runs {s : State} {at_ : LaneAt} {i : RInstr} {v : Win} {p : Pass} {t : Tensor} {l : LaneCtx}
    (h : LaneRuns s.cx at_ i v p t l) (hfstat : i.isFstat = false) :
    let e := laneEnv s.cx at_ v p t l
    let c := s.cx.afterRow at_ i e l
    exec (i.row at_) s = s.go (if p.prog.length ≤ l.pc + 1
      then (c.closeBlock e (l.after (ruleSem i s.cx e l))).nextBlock at_.window.toNat v p t at_.group.val (l.block + 32)
      else c) := by
  intro e c
  rw [exec_row at_ s hfstat, Cx.ruleStep_runs h, ← LaneCtx.after_block i s.cx e l]
  rfl

/-- Settles O23, from the run of an instruction that its lane group has reached. -/
theorem ruleRowsRun : Obligations.RuleRowsRun := by
  intro s at_ v p t l d a b k x y z m q r hr hruns
  have hrow : r.2 = r.1.row at_ ∧ r.1.isFstat = false := by
    revert r
    simp [RInstr.row, RInstr.isFstat]
  rw [hrow.1]
  exact exec_row_runs hruns hrow.2

/-! ### A mirror beside its stack -/

/-- A tensor of one window. -/
def mirrorTensor : Tensor where
  handle := 0
  region := 0
  start := 0
  base := 0
  count := 1
  rows := 0
  columns := 0
  rule := 0
  factored := false
  frozen := false

/-- An image of that tensor alone, in stack 0. -/
def mirrorImg : Img where
  id := 0#64
  geo := { active := [0], parity := 0, master := .A, slowType := [], positions := [], gib := [] }
  lay := { stateBase := 0, live := 2, pool := 0, promoBase := 0, promo := 0, gradBase := 0, mapBase := 0
           stashBase := 0, stashRows := 0, spareBase := 0, parityBase := 0, parityRows := 0, stagingRows := 0 }
  regions := []
  stash := []
  tensors := [mirrorTensor]
  wmap := []
  rules := []
  tadpoles := []
  fabric := {}
  streams := { tableBase := 0#64, count := 0, queuesA := 0, queuesB := 0, depth := 0, entryBytes := 0, share := []
               weight := [], sramA := (0, 0), sramB := (0, 0) }
  stagedSlots := 0
  tenant0 := ⟨0, 0, 0⟩
  tenants := []
  power := {}
  versions := []
  statRows := 0

def mirrorSte : RInstr := .ste 0#4 0#2

/-- A pass whose program stores the mirror of its one parameter, at the key where the slow tier of die A begins. -/
def mirrorPass : Pass where
  slot := 1
  step := 0#48
  clip := 0#32
  table := ⟨[], 0#64, 0#32, slowKey .A 0, 0⟩
  prog := [encodeRule mirrorSte, encodeRule mirrorSte]
  fstatDone := true
  stream := 0#12
  command := 0#32
  lanes := [(0, { block := 0 })]

def mirrorWin : Win :=
  { tensor := 0, region := 0, k := 0, valid := 1, stateSlot := 0, gSlot := 0, pass := some mirrorPass }

/-- Window 0 runs the pass. The first codeword of die A's slow tier stands dirty in the stack cache and is marked as
poisoned, and so is its granule. -/
def mirrorState : State where
  pending := []
  cx := { Cx.reset with
    dirty := (List.range 64).map fun n => (slowKey .A n, 0#8)
    poison := [slowKey .A 0 / 64]
    dieA := { slowPoison := [0] }
    img := { cfg := some mirrorImg }
    wins := [(0, mirrorWin)]
    stks := [(0, { owner := .A, grants := [0] })] }

def mirrorAt : LaneAt := ⟨0#19, 0⟩

theorem mirrorState_runs : LaneRuns mirrorState.cx mirrorAt mirrorSte mirrorWin mirrorPass
    mirrorTensor { block := 0 } where
  win := rfl
  pass := rfl
  tensor := by decide +kernel
  lane := rfl
  ready := rfl
  word := by decide +kernel
  granted := by decide +kernel

theorem mirrorState_loses_mark :
    (mirrorState.cx.ruleStep mirrorAt mirrorSte (ruleSem mirrorSte)).dieA.slowPoison = [] := by
  decide +kernel

/-- Refutes O26: nothing bounds a mirror to its stack, so a STE can store at the key where the slow tier begins; the
write-back of the dirty codeword there clears a poison mark of die A. -/
theorem not_ruleStoresFrame : ¬ Obligations.RuleStoresFrame := by
  intro h
  obtain ⟨u, hexec, -, -, -, -, hdie, -⟩ := h mirrorState mirrorAt mirrorSte mirrorWin mirrorPass mirrorTensor
    { block := 0 } mirrorState_runs rfl (by decide)
  rw [exec_row mirrorAt mirrorState rfl] at hexec
  cases hexec
  have hkept := mirrorState_loses_mark.symm.trans (congrArg Die.slowPoison hdie)
  exact absurd hkept (by decide)

end Sys2Proof.Machine
end

section
/-!
PROOF. The statistics prologue of a pass (R231, R233).
-/
namespace Sys2Proof.Machine

/-! ### The prologue of a pass (R231, R233) -/

/-- The pass under way on a window is DIRECT (R250). -/
def Win.runsDirect (v : Win) : Bool :=
  match v.st with
  | .writeRun _ d => d
  | _ => false

section Prologue

variable {c : Cx} {w : Nat} {v : Win} {p : Pass} {t : Tensor} {a b k : BitVec 6}

theorem Cx.prologue_unfactored (h : t.factored = false) : c.prologue w v p t a b k = c.statDone w none 0#8 := by
  simp [Cx.prologue, h]

theorem Cx.prologue_ran (h : t.factored = true) (hran : (c.statRun (c.ruleEnv w v p t 0 0) a b k).ran = true) :
    c.prologue w v p t a b k = c.statDone w (some (c.statRun (c.ruleEnv w v p t 0 0) a b k).buf) 0#8 := by
  simp [Cx.prologue, h, hran]

theorem Cx.prologue_folds (h : t.factored = true) (hran : (c.statRun (c.ruleEnv w v p t 0 0) a b k).ran = false)
    (hready : c.fstatReady (winStack w) t p.step v.runsDirect = true) :
    c.prologue w v p t a b k =
      c.runFstat w (c.ruleEnv w v p t 0 0) t (c.statRun (c.ruleEnv w v p t 0 0) a b k) := by
  simp only [Cx.prologue, h, hran, Bool.not_true, Bool.false_eq_true, if_false]
  exact if_pos hready

end Prologue

/-- FSTAT that stands first in a pass's program and has not run is the pass's prologue. -/
theorem exec_rFstat_runs {s : State} {w : BitVec 19} {a b k : BitVec 6} {v : Win} {p : Pass} {t : Tensor}
    (hwin : kget? s.cx.wins w.toNat = some v) (hpass : v.pass = some p) (htensor : s.cx.tensor? v.tensor = some t)
    (hnew : p.fstatDone = false) (hword : p.prog.head?.bind decodeRule = some (.fstat a b k)) :
    exec (.rFstat w a b k) s = s.go (s.cx.prologue w.toNat v p t a b k) := by
  change execRFstat w a b k s = _
  simp [execRFstat, hwin, hpass, htensor, hnew, hword]

/-- Settles O27, from the three ways that a prologue runs. -/
theorem fstatRuns : Obligations.FstatRuns := by
  intro s w a b k v p t hwin hpass htensor hnew hword st e r
  rw [exec_rFstat_runs hwin hpass htensor hnew hword]
  exact ⟨fun h => congrArg s.go (Cx.prologue_unfactored h), fun h hran => congrArg s.go (Cx.prologue_ran h hran),
    fun h hran hready => congrArg s.go (Cx.prologue_folds h hran hready)⟩

end Sys2Proof.Machine
end

section
/-!
PROOF. What leaves a disable under way, or none, as it is: writes of memory, gradients that wait, fences, and a window
that is staged or scrubbed (R129, R184, R195, R266, R272, R329).
-/
namespace Sys2Proof.Machine

/-! ### Shared operations -/

theorem Cx.disabling_modWin (c : Cx) (w : Nat) (f : Win → Win) : (c.modWin w f).disabling = c.disabling :=
  Cx.disabling_of_img (Cx.modWin_img ..)

theorem Cx.disabling_modStk (c : Cx) (s : Nat) (f : Stack → Stack) : (c.modStk s f).disabling = c.disabling := rfl

theorem Cx.disabling_submit (c : Cx) (d : Side) (r : JRec) (x : Option (StreamId × W32)) :
    (c.submit d r x).disabling = c.disabling := rfl

theorem Cx.disabling_emit (c : Cx) (o : Out) : (c.emit o).disabling = c.disabling := rfl

theorem Cx.disabling_nan (c : Cx) (r : NanRec) : (c.nan r).disabling = c.disabling := rfl

theorem Cx.disabling_dirty (c : Cx) (m : List Host.Cell) : ({ c with dirty := m } : Cx).disabling = c.disabling := rfl

theorem Cx.disabling_acc (c : Cx) (m : List (Nat × W32)) : ({ c with acc := m } : Cx).disabling = c.disabling := rfl

theorem Cx.disabling_arrivals (c : Cx) (n : Nat) : ({ c with arrivals := n } : Cx).disabling = c.disabling := rfl

theorem Cx.disabling_ev (c : Cx) (code cls sev : Nat) (d : Side) (idx : Nat) (fs : List Nat) (st : Option Step)
    (t : Option Nat) : (c.ev code cls sev d idx fs st t).disabling = c.disabling :=
  Cx.disabling_of_img (Cx.ev_img ..)

theorem Cx.disabling_bump (c : Cx) (off width : Nat) (d : Side) (n : Nat) :
    (c.bump off width d n).disabling = c.disabling :=
  Cx.disabling_of_img (Cx.bump_img ..)

theorem Cx.disabling_orFlags (c : Cx) (off : Nat) (f : Flags) : (c.orFlags off f).disabling = c.disabling := by
  unfold Cx.orFlags Cx.orReg
  split <;> rfl

/-! ### Writes of memory -/

theorem Cx.disabling_clearPoison (c : Cx) (k : Nat) : (c.clearPoison k).disabling = c.disabling :=
  Cx.disabling_of_img (Cx.clearPoison_img ..)

theorem Cx.disabling_poke1 (c : Cx) (k : Nat) (b : Byte) : (c.poke1 k b).disabling = c.disabling :=
  Cx.disabling_of_img (Cx.poke1_img ..)

theorem Cx.disabling_poke (c : Cx) (k : Nat) (bs : List Byte) : (c.poke k bs).disabling = c.disabling :=
  (foldl_keeps Cx.disabling Cx.disabling_clearPoison _ _).trans
    (foldl_keeps (fun p : Cx × Nat => p.1.disabling) (fun _ _ => Cx.disabling_poke1 ..) bs (c, k))

theorem Cx.disabling_basePut (c : Cx) (s off : Nat) (bs : List Byte) : (c.basePut s off bs).disabling = c.disabling :=
  (Cx.disabling_of_img (Cx.writeBack_img ..)).trans (Cx.disabling_poke ..)

theorem Cx.disabling_hubPut (c : Cx) (k : Nat) (b : Byte) : (c.hubPut k b).disabling = c.disabling := by
  unfold Cx.hubPut
  split
  · rfl
  · exact Cx.disabling_poke1 ..

theorem Cx.disabling_hubPoke (c : Cx) (k : Nat) (bs : List Byte) : (c.hubPoke k bs).disabling = c.disabling := by
  unfold Cx.hubPoke
  extract_lets d
  have hputs : d.disabling = c.disabling :=
    foldl_keeps (fun p : Cx × Nat => p.1.disabling) (fun _ _ => Cx.disabling_hubPut ..) bs (c, k)
  split
  · exact hputs
  · exact (foldl_keeps Cx.disabling Cx.disabling_clearPoison _ _).trans hputs

/-! ### Gradients that wait (R184, R195) -/

theorem Cx.disabling_spillBlock (c : Cx) (w : Nat) (v : Win) (eo b : Nat) :
    (c.spillBlock w v eo b).disabling = c.disabling := by
  unfold Cx.spillBlock
  extract_lets
  refine (Cx.disabling_acc ..).trans ((Cx.disabling_basePut ..).trans
    ((foldl_keeps Cx.disabling (fun e j => ?_) _ _).trans ((Cx.disabling_orFlags ..).trans (Cx.disabling_basePut ..))))
  exact foldl_keeps Cx.disabling (fun _ _ => Cx.disabling_nan ..) _ e

theorem Cx.disabling_spill (c : Cx) (w : Nat) : (c.spill w).disabling = c.disabling := by
  unfold Cx.spill
  split
  · rfl
  · exact (Cx.disabling_bump ..).trans (foldl_keeps Cx.disabling (fun _ _ => Cx.disabling_spillBlock ..) _ c)

theorem Cx.disabling_makeRoom (fuel w epoch slot start n : Nat) (c : Cx) :
    (Cx.makeRoom fuel w epoch slot start n c).disabling = c.disabling := by
  induction fuel generalizing c with
  | zero => rfl
  | succ fuel ih =>
    rw [Cx.makeRoom]
    split
    · rfl
    · split
      · exact (ih _).trans (Cx.disabling_spill ..)
      · rfl

theorem Cx.disabling_addValue (c : Cx) (w : Nat) (t : Tensor) (k epoch slot i : Nat) (step : Option Step) (x : W16) :
    (c.addValue w t k epoch slot i step x).disabling = c.disabling := by
  unfold Cx.addValue
  extract_lets
  split <;> exact Cx.disabling_orFlags ..

theorem Cx.disabling_addRun (c : Cx) (w : Nat) (t : Tensor) (k epoch slot i : Nat) (vals : List W16)
    (step : Option Step) : (c.addRun w t k epoch slot i vals step).disabling = c.disabling :=
  (Cx.disabling_modWin ..).trans ((Cx.disabling_arrivals ..).trans
    (foldl_keeps (fun p : Cx × Nat => p.1.disabling) (fun _ _ => Cx.disabling_addValue ..) vals (c, i)))

theorem Cx.disabling_gradApply (c : Cx) (m w : Nat) (t : Tensor) (k epoch : Nat) (g : GradHdr) (vals : List W16)
    (status bucket : Nat) : (c.gradApply m w t k epoch g vals status bucket).disabling = c.disabling := by
  unfold Cx.gradApply
  dsimp only
  split
  · exact Cx.disabling_bump ..
  · exact Cx.disabling_addRun ..

theorem Cx.disabling_gradTry {c e : Cx} {m epoch : Nat} {h : BitVec 128} {vals : List W16} {status bucket : Nat}
    (htry : c.gradTry m epoch h vals status bucket = some e) : e.disabling = c.disabling := by
  unfold Cx.gradTry at htry
  dsimp only at htry
  split at htry
  · cases htry
    rfl
  · split_ifs at htry
    · cases htry
      exact Cx.disabling_gradApply ..
    · cases htry
      exact (Cx.disabling_gradApply ..).trans (Cx.disabling_makeRoom ..)

theorem Cx.disabling_serveGrad (c : Cx) (q : GradHeld) : (c.serveGrad q).disabling = c.disabling := by
  unfold Cx.serveGrad
  split
  · rfl
  · split
    · exact Cx.disabling_emit ..
    · dsimp only
      split
      · rename_i htry
        exact Cx.disabling_gradTry htry
      · rfl

theorem Cx.disabling_serveGrads (c : Cx) : c.serveGrads.disabling = c.disabling :=
  foldl_keeps Cx.disabling Cx.disabling_serveGrad _ _

/-! ### Fences (R77, R272, R315) -/

theorem Cx.disabling_sayZeroed (c : Cx) (w : Nat) (p : Pass) : (c.sayZeroed w p).disabling = c.disabling := by
  unfold Cx.sayZeroed
  split
  · rfl
  · exact Cx.disabling_ev ..

theorem Cx.disabling_discardSpec (c : Cx) (w : Nat) : (c.discardSpec w).disabling = c.disabling := by
  unfold Cx.discardSpec
  split
  · rfl
  · rename_i v _
    have hretired : (if v.specValid then c.retire (winStack w) v.specSlot else c).disabling = c.disabling := by
      split <;> rfl
    refine (Cx.disabling_modWin ..).trans (Eq.trans ?_ hretired)
    split
    · exact Cx.disabling_sayZeroed ..
    · rfl

theorem Cx.disabling_discardStats (c : Cx) (t : Tensor) (s : Nat) (n : Step) :
    (c.discardStats t s n).disabling = c.disabling := by
  unfold Cx.discardStats
  extract_lets
  split_ifs
  · rfl
  · exact Cx.disabling_basePut ..
  · rfl

theorem Cx.disabling_dropSpec (c : Cx) (w : Nat) : (c.dropSpec w).disabling = c.disabling := by
  unfold Cx.dropSpec
  split
  · rfl
  · dsimp only
    split
    · split
      · exact Cx.disabling_discardSpec ..
      · exact (Cx.disabling_discardStats ..).trans (Cx.disabling_discardSpec ..)
    · exact Cx.disabling_discardSpec ..

theorem Cx.disabling_fenceWin (c : Cx) (w : Nat) : (c.fenceWin w).disabling = c.disabling :=
  (Cx.disabling_serveGrads _).trans ((Cx.disabling_submit ..).trans
    ((Cx.disabling_modWin ..).trans (Cx.disabling_dropSpec ..)))

/-! ### Imports and scrubs (R265, R266, R329) -/

theorem Cx.disabling_sendCommit (c : Cx) (w : Nat) (n : Step) : (c.sendCommit w n).disabling = c.disabling := by
  unfold Cx.sendCommit
  dsimp only
  split <;> exact Cx.disabling_modWin ..

theorem Cx.disabling_stageWin (c : Cx) (w : Nat) (img : List Byte) (step : Step) (tenant : Nat) :
    (c.stageWin w img step tenant).disabling = c.disabling := by
  unfold Cx.stageWin
  split
  · extract_lets s at_ vals hdrs d e f g
    have htails : e.disabling = d.disabling := by
      unfold e
      split
      · exact Cx.disabling_hubPoke ..
      · rfl
    exact (Cx.disabling_modWin ..).trans ((Cx.disabling_modStk ..).trans ((Cx.disabling_hubPoke ..).trans
      ((Cx.disabling_hubPoke ..).trans (htails.trans (Cx.disabling_hubPoke ..)))))
  · rfl

theorem Cx.disabling_scrubRange (c : Cx) (key n : Nat) : (c.scrubRange key n).disabling = c.disabling :=
  (Cx.disabling_poke ..).trans (Cx.disabling_dirty ..)

theorem Cx.disabling_scrubWin (c : Cx) (w : Nat) : (c.scrubWin w).disabling = c.disabling := by
  unfold Cx.scrubWin
  split
  · rfl
  · exact (Cx.disabling_acc ..).trans ((foldl_keeps Cx.disabling (fun _ _ => Cx.disabling_scrubRange ..) _ _).trans
      ((Cx.disabling_scrubRange ..).trans (Cx.disabling_scrubRange ..)))

theorem Cx.disabling_scrubStats (c : Cx) (t : Tensor) : (c.scrubStats t).disabling = c.disabling := by
  unfold Cx.scrubStats
  split
  · rfl
  · split
    · rfl
    · exact foldl_keeps Cx.disabling (fun _ _ => Cx.disabling_scrubRange ..) _ c

end Sys2Proof.Machine
end

section
/-!
PROOF. IMPORT, STAGE_TENANT, SCRUB_TENANT and the tenant key registers (R265, R266, R325, R326, R328, R329).
-/
namespace Sys2Proof.Machine

/-! ### Images are staged and their commits sent (R265, R266) -/

/-- A command's window images staged, their commits sent, and its windows to do until the journal has committed them. -/
def Cx.imported (c : Cx) (st : StreamId) (num : W32) (ids : List Nat) (imgs : List (List Byte)) (step : Step)
    (tenant : Nat) : Cx :=
  (ids.foldl (fun c w => c.sendCommit w step) ((List.range ids.length).foldl (fun c i =>
    c.stageWin (ids.getD i 0) (imgs.getD i []) step tenant) c)).modFlight st num fun g => { g with
      phase := 2, wins := ids.map fun w => (w, WinOut.todo) }

theorem Cx.disabling_imported (c : Cx) (st : StreamId) (num : W32) (ids : List Nat) (imgs : List (List Byte))
    (step : Step) (tenant : Nat) : (c.imported st num ids imgs step tenant).disabling = c.disabling :=
  (Cx.disabling_modFlight ..).trans ((foldl_keeps Cx.disabling (fun _ _ => Cx.disabling_sendCommit ..) _ _).trans
    (foldl_keeps Cx.disabling (fun _ _ => Cx.disabling_stageWin ..) _ c))

/-- The windows of a list may take their images now, all of which pass. -/
structure TakesImages (c : Cx) (ps : List (Nat × Nat × Nat)) (src key : Nat) (imgs : List (List Byte)) : Prop where
  resident : c.demandAll (ps.map (·.1)) = (c, true)
  idle : (ps.map (·.1)).all c.winIdle = true
  room : c.slotsFor (ps.map (·.1)) = true
  pass : c.readImages src key ps = .ok imgs

theorem importCore_stages {st : StreamId} {f : Flight} {c : Cx} {ps : List (Nat × Nat × Nat)} {src key : Nat}
    {imgs : List (List Byte)} (h : TakesImages c ps src key imgs) (step : Step)
    (tenant : Nat) : importCore st f c ps src key step false id tenant =
      (c.imported st f.number (ps.map (·.1)) imgs step tenant, .wait .peerCommit) := by
  simp only [importCore, h.resident, h.idle, h.room, h.pass, Bool.not_true, Bool.or_self, Bool.false_eq_true, if_false]
  rfl

/-- No window of a list is fenced. -/
theorem any_fenced_false {c : Cx} {ws : List Nat} (h : ∀ w ∈ ws, (c.win? w).any (·.fenced) = false) :
    (ws.any fun w => (c.win? w).any (·.fenced)) = false :=
  List.any_eq_false.2 fun w hw => ne_true_of_eq_false (h w hw)

theorem contains_imageSpace {a : Nat} (h : bits a 63 60 = 2 ∨ bits a 63 60 = 4) :
    (bits a 63 60 != 2 && bits a 63 60 != 4) = false := by
  rcases h with h | h <;> simp [h]

/-! ### IMPORT (R265) -/

/-- Windows of a tensor that an IMPORT names, with the offset and the length of their images. -/
def Flight.importParts (f : Flight) (t : Tensor) (ws : List Nat) : List (Nat × Nat × Nat) :=
  (List.range f.count).map fun i =>
    (ws.getD i 0, t.imageOff f.first i, t.imageOff f.first (i + 1) - t.imageOff f.first i)

/-- An IMPORT at its start, without reset_stats, whose operands are in order and whose windows it may use. -/
structure Imports (c : Cx) (st : StreamId) (f : Flight) (t : Tensor) (ws : List Nat) : Prop where
  phase : f.phase = 0
  run : c.runOf f = some (t, ws)
  space : bits (f.arg 32 63 0) 63 60 = 2 ∨ bits (f.arg 32 63 0) 63 60 = 4
  key : c.badKey (f.arg 40 51 49) = false
  pool : c.overPool ws = false
  operand : c.badOperand? st f .read 3 (f.arg 32 63 0) (t.imageBytes f.first f.count) = none
  bound : c.boundAway st f.tensor = false
  unfenced : ∀ w ∈ ws, (c.win? w).any (·.fenced) = false
  reached : c.cutOff st ws = false
  free : c.anyBusy ws = false
  keepsStats : f.bit 40 48 = false

theorem bodyImport_stages {c : Cx} {st : StreamId} {f : Flight} {t : Tensor} {ws : List Nat} {imgs : List (List Byte)}
    (h : Imports c st f t ws) (himgs : TakesImages (c.arm (BitVec.ofNat 48 (f.arg 40 47 0))) (f.importParts t ws)
      (f.arg 32 63 0) (f.arg 40 51 49) imgs) :
    bodyImport st f c = ((c.arm (BitVec.ofNat 48 (f.arg 40 47 0))).imported st f.number
      ((f.importParts t ws).map (·.1)) imgs (BitVec.ofNat 48 (f.arg 40 47 0)) (kget 0 c.binding f.tensor),
      .wait .peerCommit) := by
  rw [← importCore_stages himgs]
  simp only [bodyImport, h.phase, h.run, contains_imageSpace h.space, h.key, h.pool, h.operand, h.bound,
    any_fenced_false h.unfenced, h.reached, h.free, h.keepsStats]
  rfl

theorem bodyImport_ends {c : Cx} {st : StreamId} {f : Flight} (hphase : f.phase = 2) (hsettled : f.settled = true) :
    bodyImport st f c = okOpen c 0x25 := by
  simp [bodyImport, hphase, hsettled]

/-! ### STAGE_TENANT (R328) -/

/-- A STAGE_TENANT that has read its list. -/
def Flight.staging (f : Flight) (l : List Byte) : Flight := { f with data := l }

/-- A STAGE_TENANT at its start whose operands are in order, whose list l can be read, and whose tensors, each named
once, are not bound to another tenant and stay within the tenant's quota. -/
structure Stages (c : Cx) (st : StreamId) (f : Flight) (l : List Byte) (hs : List Nat)
    (ps : List (Nat × Nat × Nat)) : Prop where
  phase : f.phase ≠ 2
  space : bits (f.arg 40 63 0) 63 60 = 2 ∨ bits (f.arg 40 63 0) 63 60 = 4
  key : c.badKey (f.arg 32 26 24) = false
  list : c.listOperand st f 2 (f.arg 24 63 0) (4 * f.arg 32 23 0) = .inr l
  tensors : (f.staging l).stageTensors = hs
  parts : c.stageParts hs = ps
  known : ∀ h ∈ hs, c.tensor? h ≠ none ∧ c.stageForeign st (f.arg 16 13 0) h = false
  once : repeated hs = false
  pool : c.overPool (ps.map (·.1)) = false
  operand : c.badOperand? st f .read 4 (f.arg 40 63 0) (partsLen ps) = none
  quota : c.overStackQuota (f.arg 16 13 0) (hs.map (c.stageCharge (f.arg 16 13 0))).sum = false
  unfenced : ∀ w ∈ ps.map (·.1), (c.win? w).any (·.fenced) = false
  reached : c.cutOff st (ps.map (·.1)) = false
  free : c.anyBusy (ps.map (·.1)) = false

/-- The started command of a STAGE_TENANT keeps the list; its step is armed. -/
def Cx.stageBegun (c : Cx) (st : StreamId) (f : Flight) (l : List Byte) : Cx :=
  (c.arm (BitVec.ofNat 48 (f.arg 48 47 0))).modFlight st f.number fun x => x.staging l

theorem bodyStage_stages {c : Cx} {st : StreamId} {f : Flight} {l : List Byte} {hs : List Nat}
    {ps : List (Nat × Nat × Nat)} {imgs : List (List Byte)} (h : Stages c st f l hs ps)
    (himgs : TakesImages (c.stageBegun st f l) ps (f.arg 40 63 0) (f.arg 32 26 24) imgs) :
    bodyStage st f c = ((c.stageBegun st f l).imported st f.number (ps.map (·.1)) imgs
      (BitVec.ofNat 48 (f.arg 48 47 0)) (f.arg 16 13 0), .wait .peerCommit) := by
  have hknown : (hs.any fun x => (c.tensor? x).isNone) = false :=
    List.any_eq_false.2 fun x hx => by simpa [Option.isNone_iff_eq_none] using (h.known x hx).1
  have hours : hs.find? (c.stageForeign st (f.arg 16 13 0)) = none :=
    List.find?_eq_none.2 fun x hx => ne_true_of_eq_false (h.known x hx).2
  have hopen : ((ps.map (·.1)).find? fun w => (c.win? w).any (·.fenced)) = none :=
    List.find?_eq_none.2 fun w hw => ne_true_of_eq_false (h.unfenced w hw)
  have htensors := h.tensors
  refine Eq.trans ?_ (importCore_stages (f := f.staging l) himgs _ _)
  unfold Flight.staging at htensors
  simp only [bodyStage, if_neg h.phase, contains_imageSpace h.space, h.key, h.list, htensors, h.parts, hknown, h.once,
    h.pool, h.operand, h.quota, hours, hopen, h.free, h.reached]
  rfl

/-- A stage whose windows have committed sends the records that bind its tensors to the tenant. -/
def Cx.stageBinds (c : Cx) (st : StreamId) (f : Flight) : Cx :=
  (f.stageTensors.foldl (fun c h => c.submit c.master (.bind h (f.arg 16 13 0) true (c.stageCharge (f.arg 16 13 0) h))
    (some (st, f.number))) c).modFlight st f.number fun g => { g with owed := g.owed + f.stageTensors.length }

theorem bodyStage_binds {c : Cx} {st : StreamId} {f : Flight} (hphase : f.phase = 2) (hsettled : f.settled = true)
    (hmaster : c.noMaster st = false) : bodyStage st f c = okOpen (c.stageBinds st f) 0x60 := by
  simp [bodyStage, hphase, hsettled, hmaster, Cx.stageBinds]

/-! ### SCRUB_TENANT (R329) -/

/-- Pool slots that the tenant's tag marks, over the active stacks. -/
def Cx.taggedSlots (c : Cx) (tenant : Nat) : List (Nat × Nat) :=
  ((List.range 20).flatMap fun s => (c.taggedPool s tenant).map fun n => (s, n)).filter fun p => c.active p.1

/-- What a tenant left is zeroed: its fenced windows, its pool slots and its tensors' statistics. -/
def Cx.scrubbed (c : Cx) (ts : List Tensor) (ws : List Nat) (pool : List (Nat × Nat)) : Cx :=
  ts.foldl Cx.scrubStats (pool.foldl (fun c p => c.scrubRange (stackKey p.1 (c.slotOff p.2)) slotBytes)
    (ws.foldl Cx.scrubWin c))

/-- The commits of scrubbed windows go toward the journal. -/
def Cx.scrubCommits (c : Cx) (ws : List Nat) : Cx :=
  ws.foldl (fun c w => (c.modWin w fun v => { v with commitSent := true, commitHeld := false }).submit
    (c.owner (winStack w)) (.commit w)) c

/-- A SCRUB_TENANT at its start whose windows are all QUIET and not fenced, free and in reach. -/
structure Scrubs (c : Cx) (st : StreamId) (f : Flight) (ws : List Nat) : Prop where
  phase : f.phase = 0
  windows : c.boundWindows (f.arg 16 13 0) = ws
  free : c.anyBusy ws = false
  reached : c.cutOff st ws = false
  quiet : ∀ w ∈ ws, ((c.win? w).map fun v => v.st) = some .quiet ∧ (c.win? w).any (·.fenced) = false

/-- A SCRUB_TENANT in flight that has zeroed what its tenant left and waits for the journal to hold its commits. -/
def Cx.scrubBegun (c : Cx) (st : StreamId) (f : Flight) (ws : List Nat) : Cx :=
  let d := ws.foldl Cx.fenceWin c
  let pool := (ws.foldl Cx.scrubWin d).taggedSlots (f.arg 16 13 0)
  ((d.scrubbed (c.boundTensors (f.arg 16 13 0)) ws pool).scrubCommits ws).modFlight st f.number fun g => { g with
    phase := 2, wins := ws.map fun w => (w, WinOut.todo), worst := pool.length }

theorem Cx.disabling_scrubBegun (c : Cx) (st : StreamId) (f : Flight) (ws : List Nat) :
    (c.scrubBegun st f ws).disabling = c.disabling := by
  have hcommits (d : Cx) : (d.scrubCommits ws).disabling = d.disabling :=
    foldl_keeps Cx.disabling (fun _ _ => (Cx.disabling_submit ..).trans (Cx.disabling_modWin ..)) _ d
  have hscrubbed (d : Cx) (ts : List Tensor) (pool : List (Nat × Nat)) :
      (d.scrubbed ts ws pool).disabling = d.disabling :=
    (foldl_keeps Cx.disabling Cx.disabling_scrubStats _ _).trans
      ((foldl_keeps Cx.disabling (fun _ _ => Cx.disabling_scrubRange ..) _ _).trans
        (foldl_keeps Cx.disabling Cx.disabling_scrubWin _ d))
  exact (Cx.disabling_modFlight ..).trans ((hcommits _).trans ((hscrubbed ..).trans
    (foldl_keeps Cx.disabling Cx.disabling_fenceWin _ c)))

theorem bodyScrub_scrubs {c : Cx} {st : StreamId} {f : Flight} {ws : List Nat} (h : Scrubs c st f ws) :
    bodyScrub st f c = (c.scrubBegun st f ws, .wait .peerCommit) := by
  simp only [bodyScrub, h.phase, h.windows, h.free, h.reached]
  rw [List.filter_eq_self (l := ws).2, List.any_eq_false (l := ws).2]
  · rfl
  · intro w hw
    simp [(h.quiet w hw).1]
  · intro w hw
    simp [h.quiet w hw]

/-- A SCRUB_TENANT whose commits the journal holds. -/
structure Scrubbed (c : Cx) (st : StreamId) (f : Flight) : Prop where
  phase : f.phase = 2
  master : c.noMaster st = false
  held : ∀ w ∈ f.wins.map (·.1), ∀ v, c.win? w = some v → v.commitHeld = true

/-- Key slots that hold a tenant's keys. -/
def Cx.keySlots (c : Cx) (tenant : Nat) : List Nat :=
  ((List.range 4).map (· + 1)).filter fun n => c.slotTenant n = tenant && (kget? c.keys n).isSome

/-- The windows commit in place, and the records that erase the tenant's keys and end its bindings are sent. -/
def Cx.scrubEnds (c : Cx) (st : StreamId) (f : Flight) : Cx :=
  let d := (f.wins.map (·.1)).foldl Cx.scrubCommit c
  let slots := d.keySlots (f.arg 16 13 0)
  let ts := c.boundTensors (f.arg 16 13 0)
  (ts.foldl (fun c t => c.submit c.master (.bind t.handle (f.arg 16 13 0) false t.windows) (some (st, f.number)))
    (slots.foldl (fun c n => c.sendKey n 0 true [] (some (st, f.number))) d)).modFlight st f.number fun g => { g with
      owed := g.owed + slots.length + ts.length }

theorem bodyScrub_ends {c : Cx} {st : StreamId} {f : Flight} (h : Scrubbed c st f) :
    let d := c.scrubEnds st f
    bodyScrub st f c = okOpen (d.ev 0x600E 6 0 (d.dieOf st) (d.dieOf st).num
      [f.arg 16 13 0, (f.wins.map (·.1)).length, f.worst] none (some (f.arg 16 13 0))) 0x61 := by
  have hheld : ((f.wins.map (·.1)).all fun w => (c.win? w).all fun v => v.commitHeld) = true :=
    List.all_eq_true.2 fun w hw => (Option.all_eq_true ..).2 (h.held w hw)
  simp only [bodyScrub, h.phase, hheld, h.master]
  rfl

/-! ### Tenant key registers (R326) -/

/-- A key word stands in its slot. -/
def Cx.keepKeyWord (c : Cx) (n word : Nat) (v : W32) : Cx :=
  { c with keyWords := kput c.keyWords (16 * n + word) v }

section Keys

variable {s : State} {slot : Fin 4} (hserves : s.cx.serves s.cx.master = true)
  (hunused : s.cx.keyInUse (slot.val + 1) = false)

include hserves hunused

theorem exec_tenantSlotClear_sends : exec (.tenantSlotClear slot) s =
    s.go ((s.cx.dropKeyWords (slot.val + 1)).sendKey (slot.val + 1) 0 true []) := by
  change execTenantSlotClear slot s = _
  simp [execTenantSlotClear, hserves, hunused]

section Words

variable {word : Fin 16} {v : W32} {ks : List W32} (hstaged : slot.val + 1 ≤ s.cx.stagedSlots)

include hstaged

/-- While a word of the slot is missing, the word written is kept. -/
theorem exec_tenantKeyWrite_keeps
    (hmissing : (s.cx.keepKeyWord (slot.val + 1) word v).keyPending (slot.val + 1) = none) :
    exec (.tenantKeyWrite slot word v) s = s.go (s.cx.keepKeyWord (slot.val + 1) word v) := by
  change execTenantKeyWrite slot word v s = _
  unfold Cx.keepKeyWord at hmissing ⊢
  simp [execTenantKeyWrite, hserves, hunused, hmissing, Nat.not_lt.2 hstaged]

variable (hall : (s.cx.keepKeyWord (slot.val + 1) word v).keyPending (slot.val + 1) = some ks)

include hall

/-- The sixteenth word sends both halves of the pair. -/
theorem exec_tenantKeyWrite_loads (hdiffer : ks.take 8 ≠ ks.drop 8) : exec (.tenantKeyWrite slot word v) s =
    s.go ((((s.cx.keepKeyWord (slot.val + 1) word v).dropKeyWords (slot.val + 1)).sendKey (slot.val + 1) 0 false
      (ks.take 8)).sendKey (slot.val + 1) 1 false (ks.drop 8)) := by
  change execTenantKeyWrite slot word v s = _
  unfold Cx.keepKeyWord at hall ⊢
  simp [execTenantKeyWrite, hserves, hunused, hall, hdiffer, Nat.not_lt.2 hstaged]

/-- A pair of equal halves is refused with cause 0 (log entry 63). -/
theorem exec_tenantKeyWrite_refuses (hsame : ks.take 8 = ks.drop 8) : exec (.tenantKeyWrite slot word v) s =
    s.go (((s.cx.keepKeyWord (slot.val + 1) word v).dropKeyWords (slot.val + 1)).ev 0x600F 11 1 s.cx.master
      s.cx.master.num [slot.val + 1, 0]) := by
  change execTenantKeyWrite slot word v s = _
  unfold Cx.keepKeyWord at hall ⊢
  simp [execTenantKeyWrite, hserves, hunused, hall, hsame, Nat.not_lt.2 hstaged]

end Words

end Keys

/-- Settles O38, from the meanings of the three commands at their start and once the journal holds their commits, and
from what the two key registers do. -/
theorem importAndTenantsComplete : Obligations.ImportAndTenantsComplete := by
  refine ⟨?images, ?committed, ?stage, ?binds, ?scrub, ?ends, ?keyWord, ?clear⟩
  case images =>
    intro s st num cmd t ws imgs hstart c f src step key ps ids a hrun hspace hkey hpool hoperand hbound hunfenced
      hreached hfree hkeeps hresident hidle hroom hpass e
    have hopen : (a.imported st num ids imgs step (kget 0 c.binding f.tensor)).disabling = false :=
      (Cx.disabling_imported ..).trans ((Cx.disabling_arm ..).trans hstart.not_disabling)
    exact congrArg s.go (Cx.runStream_wait hstart (bodyImport_stages
      ⟨rfl, hrun, hspace, hkey, hpool, hoperand, hbound, hunfenced, hreached, hfree, hkeeps⟩
      ⟨hresident, hidle, hroom, hpass⟩) hopen)
  case committed =>
    intro s st f hresumes hphase hsettled
    exact congrArg s.go (Cx.runStream_resumes hresumes (bodyImport_ends hphase hsettled))
  case stage =>
    intro s st num cmd l imgs hstart c f g tenant src step key hs ps ids a hspace hkey hlist hknown honce hpool hoperand
      hquota hunfenced hreached hfree hresident hidle hroom hpass e
    have hopen : (a.imported st num ids imgs step tenant).disabling = false :=
      (Cx.disabling_imported ..).trans ((Cx.disabling_arm ..).trans hstart.not_disabling)
    exact congrArg s.go (Cx.runStream_wait hstart (bodyStage_stages
      ⟨nofun, hspace, hkey, hlist, rfl, rfl, hknown, honce, hpool, hoperand, hquota, hunfenced, hreached, hfree⟩
      ⟨hresident, hidle, hroom, hpass⟩) hopen)
  case binds =>
    intro s st f hresumes hphase hsettled hmaster hs tenant c
    exact congrArg s.go (Cx.runStream_resumes hresumes (bodyStage_binds hphase hsettled hmaster))
  case scrub =>
    intro s st num cmd hstart c f tenant ts ws hfree hreached hquiet a pool b e
    have hopen : (c.scrubBegun st f ws).disabling = false :=
      (Cx.disabling_scrubBegun ..).trans hstart.not_disabling
    exact congrArg s.go (Cx.runStream_wait hstart (bodyScrub_scrubs ⟨rfl, rfl, hfree, hreached, hquiet⟩) hopen)
  case ends =>
    intro s st f hresumes hphase hmaster tenant ts ws hheld c slots d e g
    exact congrArg s.go (Cx.runStream_resumes hresumes (bodyScrub_ends ⟨hphase, hmaster, hheld⟩))
  case keyWord =>
    intro s slot word v hserves hstaged hunused n c
    exact ⟨exec_tenantKeyWrite_keeps hserves hunused hstaged,
      fun ks hall hdiffer => exec_tenantKeyWrite_loads hserves hunused hstaged hall hdiffer,
      fun ks hall hsame => exec_tenantKeyWrite_refuses hserves hunused hstaged hall hsame⟩
  case clear =>
    intro s slot hserves hunused
    exact exec_tenantSlotClear_sends hserves hunused

end Sys2Proof.Machine
end

section
/-!
PROOF. The replica audit: DIGEST_EXCHANGE, DIGEST and LEAVES, FETCH and FETCH_DATA, and requests without an answer (R268
to R272, R354, R357).
-/
namespace Sys2Proof.Machine

/-! ### DIGEST_EXCHANGE (R269, R270, R272) -/

/-- A DIGEST_EXCHANGE in mode ACCEPT_LOCAL at its start, on a window v that it may use; its step is armed in c. -/
structure AcceptsLocal (c : Cx) (st : StreamId) (f : Flight) (v : Win) : Prop where
  mode : f.dgMode = 2
  win : c.win? f.dgWindow = some v
  bound : c.boundAway st v.tensor = false
  free : c.stackBusy (winStack f.dgWindow) = false
  reached : c.cutOff st [f.dgWindow] = false

theorem dgHost_accepts {c : Cx} {st : StreamId} {f : Flight} {v : Win} (h : AcceptsLocal c st f v) :
    dgHost st f c = ((if v.fenced then c.unfenceWin f.dgWindow else c).modWin f.dgWindow fun v =>
      { v with eccSeen := false }, .done stOk 1) := by
  simp [dgHost, h.mode, h.win, h.bound, h.free, h.reached]

/-- A mode other than the exchange of digests is the host's word on one window. -/
theorem bodyDigest_host {c : Cx} {st : StreamId} {f : Flight} (hphase : f.phase = 0) (hgood : c.dgHalts f = false)
    (hmode : f.dgMode ≠ 0) : bodyDigest st f c = dgHost st f (c.arm (BitVec.ofNat 48 f.dgStep)) := by
  simp [bodyDigest, hphase, hgood, hmode]

/-- A DIGEST_EXCHANGE that has read its lists. -/
def Flight.auditing (f : Flight) (data : List Byte) : Flight := { f with data := data, phase := 1 }

/-- A DIGEST_EXCHANGE at its start that exchanges the digests of no tensor with no other replica; its step is armed in
c, which can read the rank list b. -/
structure AuditsAlone (c : Cx) (st : StreamId) (f : Flight) (b : List Byte) : Prop where
  mode : f.dgMode = 0
  tensorless : f.dgCount = 0
  one : f.ranks = 1
  list : c.listOperand st f 4 (f.arg 40 63 0) 4 = .inr b
  reach : c.fab.unreachable = []
  reached : c.cutOff st (c.dgWindows (f.auditing b)) = false

theorem bodyDigest_alone {c : Cx} {st : StreamId} {f : Flight} {b : List Byte} (hphase : f.phase = 0)
    (hgood : c.dgHalts f = false) (h : AuditsAlone (c.arm (BitVec.ofNat 48 f.dgStep)) st f b) :
    bodyDigest st f c = (c.arm (BitVec.ofNat 48 f.dgStep)).endAudit (f.auditing b) := by
  have htensors : (f.auditing b).dgTensors = [] := by
    have hcount : (f.auditing b).dgCount = 0 := h.tensorless
    simp [Flight.dgTensors, entries4, hcount]
  have hnodes : ((f.auditing b).dgNodes.find? fun n =>
      decide (n ∈ (c.arm (BitVec.ofNat 48 f.dgStep)).fab.unreachable)) = none :=
    List.find?_eq_none.2 (by simp [h.reach])
  have hreached := h.reached
  unfold Flight.auditing at htensors hnodes hreached ⊢
  simp [bodyDigest, hphase, hgood, h.mode, h.tensorless, h.one, h.list, htensors, hnodes, hreached]

/-- An audit that has compared nothing ends with the result 0 and keeps the leaf lists. -/
theorem Cx.endAudit_nothing {c : Cx} {f : Flight} (hresult : f.result = 0#64) (hwins : f.wins = []) :
    c.endAudit f = ({ c with fab := { c.fab with
      auditPeers := f.dgNodes, auditRank := f.ownRank
      digests := c.fab.digests.filter fun d => d.step != f.dgStep } }, .done stOk 0) := by
  simp [Cx.endAudit, countWins, hresult, hwins]

/-! ### DIGEST and LEAVES (R357) -/

/-- Entries of a DIGEST message. -/
def digestEntries (m : Msg) : List DigestRec :=
  (List.range (m.data.length / 32)).map fun i => readDigest m.src.toNat (m.data.drop (32 * i))

/-- Mark that a replica has sent its last DIGEST message of a step. -/
def digestMark (m : Msg) : List DigestRec :=
  if m.fields.getD 1 0 = 1 then [⟨m.src.toNat, m.fields.getD 0 0, 2 ^ 24, 0, []⟩] else []

/-- The part of a leaf list that a LEAVES message brings, and its sender's ecc_seen as part 16 (log entry 57). -/
def leafRecs (m : Msg) : List LeafRec :=
  [⟨m.src.toNat, m.fields.getD 0 0, m.fields.getD 1 0, m.data⟩,
    ⟨m.src.toNat, m.fields.getD 0 0, 16, [BitVec.ofNat 8 (m.fields.getD 2 0)]⟩]

/-- The message brings a record anew: it is of the same part, or the ecc_seen, of the sender's leaf list. -/
def replacesLeaf (m : Msg) (l : LeafRec) : Bool :=
  decide (l.src = m.src.toNat ∧ l.w = m.fields.getD 0 0 ∧ (l.part = m.fields.getD 1 0 ∨ l.part = 16))

section Messages

variable {s : State} {p : Fin 13} {m : Msg} (harrived : s.cx.arrived p m = true)

include harrived

theorem exec_digest_keeps (hop : m.op.toNat = 0x13) : exec (.digest p m) s =
    s.go ({ s.cx.consume p m with fab := { (s.cx.consume p m).fab with
      digests := (s.cx.consume p m).fab.digests ++ digestEntries m ++ digestMark m } } : Cx).auditsGo :=
  congrArg s.go (Cx.onMsg_arrived _ hop harrived)

theorem exec_leaves_keeps (hop : m.op.toNat = 0x14) : exec (.leaves p m) s =
    s.go ({ s.cx.consume p m with fab := { (s.cx.consume p m).fab with
      leafLists := ((s.cx.consume p m).fab.leafLists.filter fun l => !replacesLeaf m l) ++ leafRecs m } } :
        Cx).auditsGo := by
  change execLeaves p m s = _
  rw [execLeaves, Cx.onMsg_arrived _ hop harrived]
  simp only [leafRecs, replacesLeaf, Bool.decide_and, Bool.decide_or, Bool.and_assoc]

/-! ### FETCH and FETCH_DATA (R271, R314) -/

/-- A FETCH for a repair names bytes of a resident window that are free of poison. -/
structure Fetches (c : Cx) (m : Msg) (v : Win) : Prop where
  win : c.win? (m.fields.getD 1 0) = some v
  repair : m.fields.getD 0 0 = 0
  within : m.fields.getD 2 0 + m.fields.getD 3 0 ≤ slotBytes
  free : c.stackBusy (winStack (m.fields.getD 1 0)) = false
  resident : v.resident = true
  clean : c.hubPoisonIn (c.stateKey (m.fields.getD 1 0) v (m.fields.getD 2 0)) (m.fields.getD 3 0) = none

theorem exec_fetch_answers (hop : m.op.toNat = 0x19) {v : Win} (h : Fetches s.cx m v) : exec (.fetch p m) s =
    s.go ((s.cx.consume p m).respond m 0x1A 0#64 0#64 (s.cx.hubBytes (s.cx.stateKey (m.fields.getD 1 0) v
      (m.fields.getD 2 0)) (m.fields.getD 3 0)) [stOk, 0, leNat v.digest]) := by
  change execFetch p m s = _
  simp only [execFetch, hop, harrived, h.win, h.repair, h.free, h.resident, h.clean, gt_iff_lt, Nat.not_lt.2 h.within]
  rfl

variable {r : Req} (hop : m.op.toNat = 0x1A) (hreq : (s.cx.consume p m).req? m.tag = some r)

include hop hreq

theorem exec_fetchData_rebuilds (hkind : r.op = opRebuildFetch) : exec (.fetchData p m) s =
    s.go (((s.cx.consume p m).dropReq r.tag).rebuildData r (m.fields.getD 0 0 = stOk) m.data) := by
  change execFetchData p m s = _
  rw [execFetchData, Cx.onMsg_arrived _ hop harrived]
  simp only [hreq, hkind, if_true]

theorem exec_fetchData_repairs (hkind : r.op = 0x19) (hrepair : r.op ≠ opRebuildFetch) : exec (.fetchData p m) s =
    s.go (((((s.cx.consume p m).dropReq r.tag).modFlight r.stream r.command fun f =>
      { f with awaits := f.awaits.filter (· != r.tag.toNat) }).repairData r (m.fields.getD 0 0 = stOk) m.data
        (leBytes 16 (m.fields.getD 2 0))).runFlight bodyDigest r.stream r.command) := by
  change execFetchData p m s = _
  rw [execFetchData, Cx.onMsg_arrived _ hop harrived]
  simp only [hreq, if_neg hrepair, if_pos hkind]

end Messages

/-! ### REQUEST_TIMEOUT (R354) -/

/-- A request's node is unreachable, and its command awaits the request no more and is refused. -/
def Cx.requestEnds (c : Cx) (tag : W16) (r : Req) : Cx :=
  (({ c with fab := { c.fab with unreachable := nput c.fab.unreachable r.dest } } : Cx).dropReq tag).modFlight r.stream
    r.command fun f => { f with
      awaits := f.awaits.filter (· != tag.toNat), worst := stFenced, result := BitVec.ofNat 64 r.dest }

theorem exec_requestTimeout_ends {s : State} {tag : W16} {r : Req} {f : Flight} (hreq : s.cx.req? tag = some r)
    (hrebuild : r.op ≠ opRebuildFetch) (hrepair : r.op ≠ 0x19)
    (hflight : (s.cx.requestEnds tag r).flight? r.stream r.command = some f) : exec (.requestTimeout tag) s =
      s.go (if f.awaits.isEmpty then (s.cx.requestEnds tag r).runFlight (fabricBody f.op) r.stream r.command
        else s.cx.requestEnds tag r) := by
  change s.go (s.cx.requestLost tag) = _
  unfold Cx.requestEnds at hflight ⊢
  simp only [Cx.requestLost, hreq, if_neg hrebuild, if_neg hrepair, hflight]

/-- Settles O42, from the two exchanges that end at once, what each message does, and a request that is lost. -/
theorem auditMessages : Obligations.AuditMessages := by
  refine ⟨?accept, ?alone, ?digest, ?leaves, ?fetch, ?data, ?timeout⟩
  case accept =>
    intro s st num cmd v hstart c f w a hgood hmode hwin hbound hfree hreached
    have hbody := (bodyDigest_host (st := st) rfl hgood (by rw [hmode]; decide)).trans
      (dgHost_accepts ⟨hmode, hwin, hbound, hfree, hreached⟩)
    exact congrArg s.go (Cx.runStream_done hstart hbody)
  case alone =>
    intro s st num cmd b hstart c f g hgood hmode hnone hone a hlist hreach hreached
    have hbody := (bodyDigest_alone rfl hgood ⟨hmode, hnone, hone, hlist, hreach, hreached⟩).trans
      (Cx.endAudit_nothing rfl rfl)
    exact congrArg s.go (Cx.runStream_done hstart hbody)
  case digest =>
    intro s p m hop harrived c ds
    exact exec_digest_keeps harrived hop
  case leaves =>
    intro s p m hop harrived c mine
    exact exec_leaves_keeps harrived hop
  case fetch =>
    intro s p m v w off n hop harrived hwin hrepair hwithin hfree hresident hclean
    exact exec_fetch_answers harrived hop ⟨hwin, hrepair, hwithin, hfree, hresident, hclean⟩
  case data =>
    intro s p m r hop harrived hreq
    exact ⟨exec_fetchData_rebuilds harrived hop hreq, exec_fetchData_repairs harrived hop hreq⟩
  case timeout =>
    intro s tag r f hreq hrebuild hrepair d hflight
    exact exec_requestTimeout_ends hreq hrebuild hrepair hflight

end Sys2Proof.Machine
end

section
/-!
PROOF. Words of tadpole instructions: their fields, and that a word and its instruction name each other (R296, Table 11.7).
-/
namespace Sys2Proof.Machine

/-! ### The fields of a tadpole word (R296) -/

section Fields

variable (op : BitVec 6) (f1 f2 f3 : BitVec 3) (imm : BitVec 17)

/-- The bits of a tadpole word, lowest first. -/
theorem getLsbD_tadWord (i : Nat) : (tadWord op f1 f2 f3 imm).getLsbD i =
    if i < 17 then imm.getLsbD i else if i < 20 then f3.getLsbD (i - 17) else if i < 23 then f2.getLsbD (i - 20)
    else if i < 26 then f1.getLsbD (i - 23) else op.getLsbD (i - 26) := by
  change BitVec.getLsbD (w := 6 + 3 + 3 + 3 + 17) _ i = _
  simp only [tadWord, BitVec.getLsbD_append, Nat.sub_sub]
  grind

@[simp] theorem tadWord_op : (tadWord op f1 f2 f3 imm).extractLsb' 26 6 = op := by
  ext j hj
  grind [getLsbD_tadWord]

@[simp] theorem tadWord_f1 : (tadWord op f1 f2 f3 imm).extractLsb' 23 3 = f1 := by
  ext j hj
  grind [getLsbD_tadWord]

@[simp] theorem tadWord_f2 : (tadWord op f1 f2 f3 imm).extractLsb' 20 3 = f2 := by
  ext j hj
  grind [getLsbD_tadWord]

@[simp] theorem tadWord_f3 : (tadWord op f1 f2 f3 imm).extractLsb' 17 3 = f3 := by
  ext j hj
  grind [getLsbD_tadWord]

@[simp] theorem tadWord_imm {k : Nat} (hk : k ≤ 17) :
    (tadWord op f1 f2 f3 imm).extractLsb' 0 k = imm.extractLsb' 0 k := by
  ext j hj
  grind [getLsbD_tadWord]

@[simp] theorem tadWord_bit {i : Nat} (hi : i < 17) : (tadWord op f1 f2 f3 imm)[i] = imm[i] := by
  rw [← BitVec.getLsbD_eq_getElem, getLsbD_tadWord, if_pos hi, BitVec.getLsbD_eq_getElem hi]

end Fields

/-! ### Operands in the immediate field (Table 11.7) -/

theorem low_operand {m k : Nat} (z : BitVec m) (v : BitVec k) : (z ++ v).extractLsb' 0 k = v :=
  BitVec.extractLsb'_append_eq_right

@[simp] theorem loadImm_advance (adv : Bool) : (0#16 ++ BitVec.ofBool adv : BitVec 17)[0] = adv := by
  cases adv <;> rfl

@[simp] theorem storeImm_advance (adv rto : Bool) :
    (0#15 ++ BitVec.ofBool rto ++ BitVec.ofBool adv : BitVec 17)[0] = adv := by
  cases adv <;> cases rto <;> rfl

@[simp] theorem storeImm_towardOdd (adv rto : Bool) :
    (0#15 ++ BitVec.ofBool rto ++ BitVec.ofBool adv : BitVec 17)[1] = rto := by
  cases adv <;> cases rto <;> rfl

@[simp] theorem dotImm_advance (adv : Bool) (lane : BitVec 6) :
    (0#10 ++ BitVec.ofBool adv ++ lane : BitVec 17)[6] = adv := by
  change BitVec.getLsbD (w := 10 + 1 + 6) _ 6 = _
  rw [BitVec.getLsbD_append, BitVec.getLsbD_append]
  simp

/-! ### Round trip -/

/-- The fields of an instruction's word name the instruction. -/
theorem readTad_encodeTad (i : TInstr) : readTad (encodeTad i) = some i := by
  cases i with
  | vec op f1 f2 f3 => cases op <;> simp [encodeTad, readTad, TVec.op]
  | dot f1 f2 f3 lane adv => simp [encodeTad, readTad, low_operand _ lane]
  | bcast f1 f2 lane => simp [encodeTad, readTad, low_operand _ lane]
  | vrnd f1 f2 fmt => simp [encodeTad, readTad, low_operand _ fmt]
  | loop f1 target => simp [encodeTad, readTad, low_operand _ target]
  | csend f1 n => simp [encodeTad, readTad, low_operand _ n]
  | rand f1 purpose => simp [encodeTad, readTad, low_operand _ purpose]
  | _ => simp [encodeTad, readTad]

/-- A word decodes to the instruction that its fields name when that is well formed and the word is its own. -/
theorem decodeTad_eq_some_iff {w : BitVec 32} {i : TInstr} :
    decodeTad w = some i ↔ i.wf = true ∧ encodeTad i = w := by
  constructor
  · intro h
    unfold decodeTad at h
    split at h
    · split at h
      case isTrue hgood =>
        cases h
        simpa using hgood
      case isFalse => cases h
    · cases h
  · rintro ⟨hwf, rfl⟩
    simp [decodeTad, readTad_encodeTad, hwf]

/-- Settles O6, from what decoding a word says of its instruction. -/
theorem tadpoleWordRoundTrip : Obligations.TadpoleWordRoundTrip :=
  ⟨fun _ hwf => decodeTad_eq_some_iff.2 ⟨hwf, rfl⟩, fun _ _ h => decodeTad_eq_some_iff.1 h⟩

end Sys2Proof.Machine
end

section
/-!
PROOF. The queue: every command answers a next state and leaves the queue to the step, which took the front of it (log
entries 1 and 2).
-/
namespace Sys2Proof.Machine

/-! ### What a command answers -/

/-- An answer that changes the complex alone. -/
def GoesOn (s : State) (r : R) : Prop := ∃ c, r = s.go c

theorem GoesOn.go (s : State) (c : Cx) : GoesOn s (s.go c) := ⟨c, rfl⟩

theorem GoesOn.ite {s : State} {p : Prop} [Decidable p] {a b : R} (ha : GoesOn s a) (hb : GoesOn s b) :
    GoesOn s (if p then a else b) := by
  split
  · exact ha
  · exact hb

/-- STATS_COMBINE goes on whatever the report of a tensor is. -/
theorem execStatsCombine_goesOn (tensor : BitVec 24) (s : State) : GoesOn s (execStatsCombine tensor s) := by
  unfold execStatsCombine
  -- Named apart, the report stays closed: opened, it counts a tensor's windows one parameter at a time.
  obtain ⟨report, hreport⟩ : ∃ f, f = Cx.reported := ⟨_, rfl⟩
  rw [← hreport]
  extract_lets c
  split
  · split
    · exact .ite (.go ..) (.go ..)
    · exact .go ..
  · exact .go ..

/-- Every command goes on: where its meaning branches, so does each branch (log entry 2). -/
theorem exec_goesOn (i : Instr) (s : State) : GoesOn s (exec i s) := by
  cases i
  case statsCombine tensor => exact execStatsCombine_goesOn tensor s
  -- What is left after this branches.
  all_goals try exact .go ..
  all_goals
    delta exec
    dsimp only
    delta execGradAdd execGatherReq execDoorbell execPollFlagRead execDescriptorFetch execCommandFetch
      execCompletionWrite execCommandTimeout execStreamPause execStreamReinit execApertureAccess execApertureBaseWrite
      execRegisterWrite execReadClear execFunctionLevelReset execEvtRingHeadWrite execEvtRingBaseWrite
      execEventArrival execIrqHoldoffExpiry execNanArrival execImageLoad execImageLoadDone execImageEnable
      execImageInitDone execImageDisable execPartialApply execTelemetrySnap execTelemetryClear execTelemetryTick
      execTestRawWrite execPass2Start execPass2End execCommitRemap execStashCopyDone execSlotRelease execWindowDrain
      execRFstat execNewtWindowJobWrite execNewtWindowGo execNewtWindowScratchpad execDotJob execAttendJob
      execTadpoleJob execChainRecord execGrant execGrantWindowEnd execRefreshDue execRefreshDone execRowSpare
      execChannelRetire execChannelRebuildDone execParityDelta execParityLogReplay execStackRebuild
      execLinkResetExpiry execRetrainPrimary execRetrainStandby execStackReplayBurst execLaneCheckFailure
      execRetrainDone execMargin execSlowMargin execMarginDwellEnd execPromotionDone execWriteBackStart
      execWriteBackDone execTenantKeyWrite execTenantSlotClear execNullFrame execNullSendTimer execAckTimeout
      execHello execHelloTimer execResetFrame execLaneTrainingDone execLinkUpTimeout execDepartWaitExpiry
      execFabQueuePush execRsBlocks execAgQuery execFetch execElectionSettle execHeartbeatTimer execHeartbeatTimeout
      execCollectionClose execSalvageTimeout execFabPushGo execModuleBringup execCoreAliveFall execBridgeHeartbeat
      execHeartbeatMiss execBridgeRestored execWatchdogExpiry execSramUncorrectable execFenceTwin execFenceReceived
      execFenceAnswerTimeout execFailover execOwnerChangeRequest execResetTwin execRejoin execResetComplex
      execJournalRecord execMirrorAck execPwrCtrlGo execDewIdleExpiry execThawDone execHubTemperature execRailWarning
      execDipHoldEnd execRailReset execPgInRise execPgInFall execAonRstRelease execStartupDone execPerst
      execSequencedFrame execStackRebuildDone
    repeat' first | with_reducible exact .go .. | with_reducible apply GoesOn.ite | extract_lets | split

/-! ### Steps -/

theorem step_of_nil {s : State} (h : s.pending = []) : step s = .next s := by
  simp [step, h]

theorem step_cons (i : Instr) (s : State) : step { s with pending := i :: s.pending } = exec i s := rfl

/-- A step answers a next state that has lost the front of the queue. -/
theorem step_pending (s : State) : ∃ t, step s = .next t ∧ t.pending = s.pending.tail := by
  cases hq : s.pending with
  | nil => exact ⟨s, step_of_nil hq, hq⟩
  | cons i rest =>
    obtain ⟨c, hexec⟩ := exec_goesOn i { s with pending := rest }
    exact ⟨_, by rw [step, hq]; exact hexec, rfl⟩

/-- Settles O3: the queue after a step is the tail of the one before, whose commands all stood in that. -/
theorem queueFirstInFirstOut : Obligations.QueueFirstInFirstOut := by
  refine ⟨step_pending, fun s t hwf hstep i hi => ?_⟩
  obtain ⟨u, hnext, htail⟩ := step_pending s
  obtain rfl : t = u := by
    rw [hstep] at hnext
    exact Host.Outcome.next.inj hnext
  exact hwf i (List.mem_of_mem_tail (htail ▸ hi))

/-- Settles O1: the step meets the command in front. -/
theorem stepRunsFront : Obligations.StepRunsFront := step_cons

/-- Settles O2. -/
theorem idleStep : Obligations.IdleStep := fun _ => step_of_nil

end Sys2Proof.Machine
end

section
/-!
PROOF. The tadpole's counters, pointers, loops, chain, random values and end, and its accesses through pointers (R285, R286,
R288, R292, R295 to R298).
-/
namespace Sys2Proof.Machine

/-! ### A row that its program has reached -/

section Rows

variable {s : State} {ch : Fin 640} {i : TInstr} {j : Job} {t : Tad}

/-- The command of an instruction that its program has reached acts by the instruction's meaning. -/
theorem exec_tadRow_runs {f : TadSem} (hrow : exec (i.row ch) s = s.go (s.cx.tadStep ch i f))
    (hruns : TadRuns s.cx ch i j t) : exec (i.row ch) s = s.go (f ch j t s.cx) := by
  rw [hrow, Cx.tadStep_runs hruns]

end Rows

/-! ### Control -/

/-- LOOP leaves its counter one lower and goes on behind the loop when the counter was 1 (Table 11.7). -/
theorem semLoop_eq (f1 : BitVec 3) (target : BitVec 8) (g : Nat) (j : Job) (t : Tad) (c : Cx) :
    semLoop f1 target g j t c = c.modNewt g fun n => { n with tad := some { t with
      pc := if t.sreg f1 = 1#32 then t.pc + 1 else target.toNat, s := t.s.set f1.toNat (t.sreg f1 - 1#32) } } := by
  by_cases hlast : t.sreg f1 = 1#32
  · simp [semLoop, hlast, Cx.tadNext, Tad.setS]
  · have hmore : t.sreg f1 - 1#32 ≠ 0#32 := fun h => hlast (sub_eq_zero.1 h)
    simp [semLoop, hlast, hmore, Tad.setS]

theorem semCrecv_empty (f1 : BitVec 3) {g : Nat} (j : Job) (t : Tad) {c : Cx} (h : (c.newt g).buffer = none) :
    semCrecv f1 g j t c = c.modNewt g fun n => { n with chainWait := true } := by
  simp [semCrecv, h]

theorem semCrecv_clean (f1 : BitVec 3) {g : Nat} (j : Job) (t : Tad) {c : Cx} {r : ChainRec}
    (h : (c.newt g).buffer = some r) (hclean : r.poison = false) : semCrecv f1 g j t c =
      ((c.modNewt g fun n => { n with buffer := none, chainWait := false }).tadNext g
        (t.setX f1 ((r.vals.take 64) ++ List.replicate (64 - r.vals.length) 0#32))).resumeSender g := by
  simp [semCrecv, h, hclean]

/-- Settles O29, from the meaning of each instruction where its program has reached it. -/
theorem tadpoleControlRows : Obligations.TadpoleControlRows := by
  intro s ch j t f1 f2 putTad
  refine ⟨fun imm => exec_tadRow_runs (f := semSets f1 imm) rfl, fun imm => exec_tadRow_runs (f := semAdda f1 imm) rfl,
    exec_tadRow_runs (f := semSeta f1 f2) rfl, fun target hruns => ?loop, fun q => exec_tadRow_runs (f := semRand f1 q) rfl,
    fun n => exec_tadRow_runs (f := semCsend f1 n) rfl, fun hruns hempty => ?empty, fun r hruns hfull hclean => ?record,
    exec_tadRow_runs (f := semEnd) rfl⟩
  case loop =>
    exact (exec_tadRow_runs rfl hruns).trans (congrArg s.go (semLoop_eq f1 target ch j t s.cx))
  case empty =>
    exact (exec_tadRow_runs rfl hruns).trans (congrArg s.go (semCrecv_empty f1 j t hempty))
  case record =>
    exact (exec_tadRow_runs rfl hruns).trans (congrArg s.go (semCrecv_clean f1 j t hfull hclean))

/-! ### Accesses through pointers -/

section Accesses

variable (f1 f2 f3 : BitVec 3) (lane : BitVec 6) (adv rto : Bool) {g : Nat} (j : Job) {t : Tad} {c : Cx}

theorem semLdv_go {p : Ptr} {r : ORef} (h : c.access g t f2 = .go p r) :
    semLdv f1 f2 adv g j t c =
      (c.keepFx g t.pc (c.load g r 0 64 (c.newt g).fx).2).tadNext g
        ((t.setX f1 (c.load g r 0 64 (c.newt g).fx).1).advance f2 adv) := by
  simp only [semLdv, h]

theorem semLdv_fault {off : Int} (h : c.access g t f2 = .fault off) :
    semLdv f1 f2 adv g j t c = c.tadFault g t f2.toNat off := by
  simp only [semLdv, h]

theorem semLdv_wait (h : c.access g t f2 = .wait) : semLdv f1 f2 adv g j t c = c.settleGrant g := by
  simp only [semLdv, h]

theorem semStv_go {p : Ptr} {r : ORef} (h : c.access g t f2 = .go p r) :
    let out := (t.xreg f1).map fun v => outBytes (if r.fmt > 5 then 5 else r.fmt) rto v
    let x := (c.newt g).fx.flag ((out.map (·.2)).foldl (· ||| ·) 0#8)
    semStv f1 f2 adv rto g j t c =
      ((c.newtWrite g r.scratch r.off (out.flatMap (·.1)) x.bad).keepFx g t.pc x).tadNext g (t.advance f2 adv) := by
  simp only [semStv, h]

theorem semDot_go {p q : Ptr} {r u : ORef} (hx : c.access g t f2 = .go p r) (hy : c.access g t f3 = .go q u) :
    let a := c.load g r 0 64 (c.newt g).fx
    let b := c.load g u 0 64 a.2
    let d := b.2.dot ((t.xreg f1).getD lane.toNat 0#32) a.1 b.1 r.off
    semDot f1 f2 f3 lane adv g j t c = (c.keepFx g t.pc d.2).tadNext g
      (((t.setX f1 ((t.xreg f1).set lane.toNat d.1)).advance f2 adv).advance f3 adv) := by
  simp only [semDot, hx, hy]

end Accesses

/-- Settles O30, from what an access through each pointer allows. -/
theorem tadpoleMemoryRows : Obligations.TadpoleMemoryRows := by
  intro s ch j t f1 f2 f3 adv
  refine ⟨fun p r hruns hgo => ?load, fun rto p r hruns hgo => ?store, fun lane p r q u hruns hx hy => ?dot,
    fun off hruns hfault => ?fault, fun hruns hwait => ?wait⟩
  case load => exact (exec_tadRow_runs rfl hruns).trans (congrArg s.go (semLdv_go f1 f2 adv j hgo))
  case store => exact (exec_tadRow_runs rfl hruns).trans (congrArg s.go (semStv_go f1 f2 adv rto j hgo))
  case dot => exact (exec_tadRow_runs rfl hruns).trans (congrArg s.go (semDot_go f1 f2 f3 lane adv j hx hy))
  case fault => exact (exec_tadRow_runs rfl hruns).trans (congrArg s.go (semLdv_fault f1 f2 adv j hfault))
  case wait => exact (exec_tadRow_runs rfl hruns).trans (congrArg s.go (semLdv_wait f1 f2 adv j hwait))

end Sys2Proof.Machine
end

section
/-!
PROOF. Submission of newt jobs through the window and the NWT_ registers (R280 to R283, R293, R294, R303, R304).
-/
namespace Sys2Proof.Machine

/-! ### Bytes of a number (R5) -/

@[simp] theorem length_leBytes (n v : Nat) : (leBytes n v).length = n := by
  induction n generalizing v with
  | zero => rfl
  | succ n ih => simp [leBytes, ih]

/-- Bytes of a number spell what fits them. -/
theorem leNat_leBytes (n v : Nat) : leNat (leBytes n v) = v % 256 ^ n := by
  induction n generalizing v with
  | zero => simp [leBytes, leNat, Nat.mod_one]
  | succ n ih => rw [leBytes, leNat, ih, BitVec.toNat_ofNat, Nat.pow_succ' (m := 256), Nat.mod_mul]

/-! ### A GO (R282) -/

/-- The newt of a channel may take jobs: the channel is in newt mode, stays there, and is not retired. -/
structure TakesJobs (n : Newt) : Prop where
  mode : n.mode = true
  stays : n.exiting = false
  present : n.retired = false

section Go

variable {c : Cx} {g : Nat} {desc : List Byte} {tag : W32} {path : Nat} (h : TakesJobs (c.newt g))
  (hgood : c.checkDesc g { desc := desc, tag := tag, path := path } = none)

include h hgood

theorem Cx.goJob_starts (hfree : (c.newt g).job = none) :
    c.goJob g desc tag path = c.startJob g { desc := desc, tag := tag, path := path } := by
  simp [Cx.goJob, h.mode, h.stays, h.present, hgood, hfree, Cx.takeJob]

theorem Cx.goJob_waits {k : Job} (hbusy : (c.newt g).job = some k) (hfree : (c.newt g).wait = none) :
    c.goJob g desc tag path =
      c.modNewt g fun n => { n with wait := some { desc := desc, tag := tag, path := path } } := by
  simp [Cx.goJob, h.mode, h.stays, h.present, hgood, hbusy, hfree, Cx.takeJob]

end Go

/-! ### The newt window (R280 to R283) -/

section Window

variable {s : State} {ch : Fin 640} (hopen : (s.cx.newt ch).window ≠ none)

include hopen

theorem window_isNone_false : (s.cx.newt ch).window.isNone = false :=
  Option.isNone_eq_false_iff.2 (Option.isSome_iff_ne_none.2 hopen)

theorem exec_newtWindowJobWrite_writes {off : Nat} {bs : List Byte} (hentry : off < 0x80) :
    exec (.newtWindowJobWrite ch off bs) s = s.go (s.cx.windowWrite ch off bs) := by
  change execNewtWindowJobWrite ch off bs s = _
  simp [execNewtWindowJobWrite, window_isNone_false hopen, hentry]

theorem exec_newtWindowGo_goes (v : W64) : exec (.newtWindowGo ch 8 v) s =
    s.go (s.cx.goJob ch (s.cx.newt ch).staged (v.setWidth 32) 0) := by
  have htag : BitVec.ofNat 32 (leNat (leBytes 8 v.toNat)) = v.setWidth 32 := by
    rw [leNat_leBytes, Nat.mod_eq_of_lt (b := 256 ^ 8) v.isLt, BitVec.ofNat_toNat]
  have hentry : windowEntry 0x80 8 = some 1 := rfl
  change execNewtWindowGo ch 8 v s = _
  simp [execNewtWindowGo, window_isNone_false hopen, Cx.windowWrite, hentry, htag]

theorem exec_newtWindowScratchpad_writes {off size : Nat} {bs : List Byte} (hview : 0x8000 ≤ off)
    (hentry : windowEntry off bs.length = some 3) (hready : (s.cx.newt ch).ready = true) :
    exec (.newtWindowScratchpad ch off size (some bs)) s = s.go (s.cx.newtWrite ch true (off - 0x8000) bs false) := by
  change execNewtWindowScratchpad ch off size (some bs) s = _
  simp [execNewtWindowScratchpad, window_isNone_false hopen, hview, Cx.windowWrite, hentry, hready]

theorem exec_newtWindowScratchpad_reads {off size : Nat} (hview : 0x8000 ≤ off)
    (hentry : windowEntry off size = some 3) (hready : (s.cx.newt ch).ready = true) :
    exec (.newtWindowScratchpad ch off size none) s =
      s.go (s.cx.emit (.read (homeDie (ch / 32)) (s.cx.newtBytes ch true (off - 0x8000) size))) := by
  change execNewtWindowScratchpad ch off size none s = _
  simp [execNewtWindowScratchpad, window_isNone_false hopen, hview, Cx.windowRead, hentry, hready]

end Window

/-- Settles O31, from what a GO does of a newt that takes jobs and from the entries of the window. -/
theorem newtJobsTaken : Obligations.NewtJobsTaken := by
  refine ⟨?stage, ?windowGo, ?go, ?waits, ?view, fun _ _ => rfl, fun _ _ => rfl⟩
  case stage =>
    intro s ch off bs hopen hentry hoff
    exact (exec_newtWindowJobWrite_writes hopen hoff).trans (by simp [Cx.windowWrite, hentry, State.go])
  case windowGo =>
    intro s ch v n j hopen hmode hstays hpresent hfree hgood
    exact (exec_newtWindowGo_goes hopen v).trans
      (congrArg s.go (Cx.goJob_starts ⟨hmode, hstays, hpresent⟩ hgood hfree))
  case go =>
    intro s ch tag n j hmode hstays hpresent hfree hgood
    exact congrArg s.go (Cx.goJob_starts ⟨hmode, hstays, hpresent⟩ hgood hfree)
  case waits =>
    intro s ch tag k n j hmode hstays hpresent hbusy hfree hgood
    exact congrArg s.go (Cx.goJob_waits ⟨hmode, hstays, hpresent⟩ hgood hbusy hfree)
  case view =>
    intro s ch off size bs hopen hready hview
    exact ⟨fun hentry => exec_newtWindowScratchpad_writes hopen hview hentry hready,
      fun hentry => exec_newtWindowScratchpad_reads hopen hview hentry hready⟩

end Sys2Proof.Machine
end

section
/-!
PROOF. Stack events: temperatures, spare rows, retirement, parity, loss and rebuild, and raw writes (R110, R302, R310, R312,
R313, R319, R320).
-/
namespace Sys2Proof.Machine

/-- A stack that is not in link reset leaves none. -/
theorem Cx.linkEdge_of_up {c0 : Cx} {st : Nat} (c : Cx) (h : (c0.stk st).linkReset = false) : c0.linkEdge st c = c := by
  simp [Cx.linkEdge, h]

/-! ### Temperatures (R310) -/

/-- A stack that has taken a channel's reading. -/
def Stack.sampled (k : Stack) (ch : Nat) (t : Byte) : Stack := { k with temps := kput k.temps ch t.toInt }

/-- Below 100 °C a stack that had not tripped does not trip; without a higher row no event is raised. -/
theorem exec_temperatureSample_cools {s : State} {ch : Fin 640} {t : Byte} {k : Stack}
    (hk : k = (s.cx.stk (ch.val / 32)).sampled (ch.val % 32) t) (hhot : k.hottest < 100)
    (htrip : (s.cx.stk (ch.val / 32)).thermalTrip = false)
    (hrow : tempRow (s.cx.stk (ch.val / 32)).row k.hottest ≤ (s.cx.stk (ch.val / 32)).row)
    (hup : (s.cx.stk (ch.val / 32)).linkReset = false) :
    exec (.temperatureSample ch t) s = s.go (s.cx.modStk (ch.val / 32) fun _ => { k with
      row := tempRow (s.cx.stk (ch.val / 32)).row k.hottest
      stackLimit := rowLimit (tempRow (s.cx.stk (ch.val / 32)).row k.hottest) }) := by
  change execTemperatureSample ch t s = _
  unfold execTemperatureSample
  extract_lets c st old x read hot row trip after c1 c2
  obtain rfl : k = read := hk
  have hnow : trip = false := by
    have hcold : ¬ 110 ≤ hot := by omega
    simp [trip, hcold, old, c, st, htrip]
  have hstack : after = { read with row := row, stackLimit := rowLimit row } := by
    simp [after, hnow, read, old, c, st, htrip]
  have hquiet : c2 = c1 := if_neg (Nat.not_lt.2 hrow)
  rw [hquiet, Cx.linkEdge_of_up _ hup]
  simp only [c1, hstack]
  rfl

/-! ### Spare rows (R312) -/

section RowSpare

variable {s : State} {ch : Fin 640} {bank row : Nat} {off : W32}

/-- Where a stack counts the errors of a row. -/
def rowKey (ch : Nat) (bank row : Nat) : Nat := (ch + 32 * bank) * 2 ^ 20 + row % 2 ^ 20

/-- The complex has counted a corrected error of the channel. -/
def Cx.corrected (c : Cx) (ch off : Nat) : Cx :=
  ((c.eccAt ch off).bump (stkReg (ch / 32) 0x40) 31 (homeDie (ch / 32))).modStk (ch / 32) fun x =>
    { x with ceChan := kput x.ceChan (ch % 32) (min 65535 (kget 0 x.ceChan (ch % 32) + 1)) }

/-- The complex has counted an uncorrectable error of the channel, whose codeword now reads as poison. -/
def Cx.uncorrected (c : Cx) (ch off : Nat) : Cx :=
  ((c.eccAt ch off).bump (stkReg (ch / 32) 0x44) 31 (homeDie (ch / 32))).poisonRange (chanKey ch (off / 64 * 64)) 64

/-- A spare row of the bank replaces a row, or the channel is retired when none is left. -/
def Cx.spareRow (c : Cx) (ch bank row : Nat) : Cx :=
  let c1 := c.modStk (ch / 32) fun x => { x with eccRows := kdel x.eccRows (rowKey (ch % 32) bank row) }
  let left := (c.stk (ch / 32)).sparesLeft (ch % 32) bank
  if left = 0 then c1.retireChannel (ch / 32) (ch % 32) 0
  else ((c1.modStk (ch / 32) fun x => { x with spares := kput x.spares (ch % 32 + 32 * bank) (left - 1) }).bump
    (stkReg (ch / 32) 0x48) 31 (homeDie (ch / 32))).chanEv 0x6005 0 ch [ch, bank, row, left - 1]

theorem exec_rowSpare_counts (htrained : (s.cx.stk (ch.val / 32)).trained = true)
    (hfew : kget 0 ((s.cx.corrected ch off.toNat).stk (ch.val / 32)).eccRows (rowKey (ch.val % 32) bank row) < 3) :
    exec (.rowSpare ch bank row off false) s = s.go ((s.cx.corrected ch off.toNat).modStk (ch.val / 32) fun x =>
      { x with eccRows := kput x.eccRows (rowKey (ch.val % 32) bank row)
                (kget 0 ((s.cx.corrected ch off.toNat).stk (ch.val / 32)).eccRows (rowKey (ch.val % 32) bank row) + 1) }) := by
  change execRowSpare ch bank row off false s = _
  simp only [execRowSpare, htrained, Bool.not_true, Bool.not_false, Bool.false_eq_true, if_false, Bool.true_and]
  exact if_pos (decide_eq_true (Nat.succ_lt_succ hfew))

theorem exec_rowSpare_fourth (htrained : (s.cx.stk (ch.val / 32)).trained = true)
    (hmany : 3 ≤ kget 0 ((s.cx.corrected ch off.toNat).stk (ch.val / 32)).eccRows (rowKey (ch.val % 32) bank row)) :
    exec (.rowSpare ch bank row off false) s = s.go ((s.cx.corrected ch off.toNat).spareRow ch bank row) := by
  change execRowSpare ch bank row off false s = _
  simp only [execRowSpare, htrained, Bool.not_true, Bool.not_false, Bool.false_eq_true, if_false, Bool.true_and]
  exact (if_neg fun hfew => absurd (of_decide_eq_true hfew) (Nat.not_lt.2 (Nat.succ_le_succ hmany))).trans
    (apply_ite s.go _ _ _).symm

theorem exec_rowSpare_uncorrectable (htrained : (s.cx.stk (ch.val / 32)).trained = true) :
    exec (.rowSpare ch bank row off true) s = s.go ((s.cx.uncorrected ch off.toNat).spareRow ch bank row) := by
  change execRowSpare ch bank row off true s = _
  simp only [execRowSpare, htrained, Bool.not_true, Bool.false_eq_true, if_false, if_true, Bool.false_and]
  exact (apply_ite s.go _ _ _).symm

end RowSpare

/-! ### Retirement and parity (R313, R319) -/

section Stacks

variable {s : State} {stk : Fin 20}

theorem exec_channelRetire_starts (hup : s.cx.stackUp stk = true) (hserved : s.cx.serves (s.cx.owner stk) = true) :
    exec (.channelRetire stk) s = s.go (s.cx.retireChannel stk (bits (s.cx.reg (stkReg stk 0x18)).toNat 4 0) 2) := by
  change execChannelRetire stk s = _
  simp [execChannelRetire, hup, hserved]

theorem exec_channelRebuildDone_ends {x : Nat} (hretired : (s.cx.stk stk).retired = some x)
    (hrebuilding : (s.cx.stk stk).rebuilding = true) (hkept : (s.cx.stk stk).lost = false)
    (hall : s.cx.peersOwe stk = false) : exec (.channelRebuildDone stk) s =
      s.go (((s.cx.endStopped stk).modStk stk fun y => { y with rebuilding := false }).chanEv 0x6006 2 (stk.val * 32 + x)
        ([stk.val * 32 + x, (s.cx.stk stk).retireCause] ++ (s.cx.stk stk).sources)) := by
  change execChannelRebuildDone stk s = _
  simp [execChannelRebuildDone, hretired, hrebuilding, hkept, hall]

theorem exec_parityDelta_applies {d : Delta} {rest : List Delta} (hdeltas : (s.cx.stk stk).deltas = d :: rest)
    (hup : (s.cx.stk stk).linkReset = false) : exec (.parityDelta stk) s =
      s.go ((s.cx.modStk stk fun k => { k with deltas := rest }).applyDelta stk d) := by
  change execParityDelta stk s = _
  simp [execParityDelta, hdeltas, hup]

/-- The deltas logged for a parity stack, in order, leave the logs and reach their granules. -/
theorem exec_parityLogReplay_applies (hup : (s.cx.stk stk).linkReset = false)
    (hidle : (s.cx.stk stk).rebuilding = false) (hkept : (s.cx.stk stk).lost = false) :
    let mine := fun d : Delta => decide (d.granule / 2 ^ 32 = stk.val)
    let ds := (List.range 20).flatMap fun w => (s.cx.stk w).log.filter mine
    let c := (List.range 20).foldl (fun (c : Cx) w => c.modStk w fun k =>
      { k with log := k.log.filter fun d => !mine d, logFull := k.logFull && !(k.log.any mine) }) s.cx
    exec (.parityLogReplay stk) s =
      s.go (ds.foldl (fun c d => c.applyDelta stk { d with granule := d.granule % 2 ^ 32 }) c) := by
  intro mine ds c
  change execParityLogReplay stk s = _
  unfold execParityLogReplay
  exact if_neg (by simp [hup, hidle, hkept])

theorem exec_linkResetExpiry_loses (htrained : (s.cx.stk stk).trained = true)
    (hreset : (s.cx.stk stk).linkReset = true) :
    exec (.linkResetExpiry stk) s = s.go (s.cx.loseStack stk 2) := by
  change execLinkResetExpiry stk s = _
  simp [execLinkResetExpiry, htrained, hreset]

/-! ### Rebuild of a stack (R320) -/

theorem exec_stackRebuild_starts (hcan : s.cx.rebuildable stk = true) (hidle : (s.cx.stk stk).rebuilding = false) :
    exec (.stackRebuild stk) s =
      s.go (s.cx.modStk stk fun k => { k with rebuilding := true, progress := 0 }) := by
  change execStackRebuild stk s = _
  simp [execStackRebuild, hcan, hidle]

end Stacks

@[simp] theorem Cx.restore_streams (c : Cx) (key : Nat) (bs : List Byte) : (c.restore key bs).streams = c.streams :=
  (foldl_keeps Cx.streams (fun c k => c.clearPoison_streams k) _ _).trans
    (foldl_keeps Cx.streams (fun _ _ => Cx.putByte_streams ..) _ _)

theorem Cx.unfenceWin_streams (c : Cx) (w : Nat) : (c.unfenceWin w).streams = c.streams := by
  simp [Cx.unfenceWin]

theorem Cx.stk_unfenceWin (c : Cx) (w k : Nat) : (c.unfenceWin w).stk k = c.stk k := by
  simp [Cx.unfenceWin, Cx.stk]

/-- A lost stack with the granules of its first rows restored where parity yields them. -/
def Cx.rebuilt (c : Cx) (stk rows : Nat) : Cx :=
  (List.range rows).foldl (fun d r => (List.range 32).foldl (fun d k =>
    match c.parityGranule stk r k with
    | some b => d.restore (granuleKey stk r k) b
    | none => d) d) c

theorem Cx.rebuilt_streams (c : Cx) (stk rows : Nat) : (c.rebuilt stk rows).streams = c.streams := by
  refine foldl_keeps Cx.streams (fun d r => foldl_keeps Cx.streams (fun d k => ?_) _ _) _ _
  split
  · exact Cx.restore_streams ..
  · rfl

/-- The windows ws of a rebuilt stack are unfenced and its rebuild is reported. -/
def Cx.endRebuild (c : Cx) (stk : Nat) (ws : List Nat) : Cx :=
  let o := (ws.foldl Cx.unfenceWin (c.modStk stk fun k =>
    { k with lost := false, rebuilding := false, lossFenced := [], progress := 786432 })).drawOpen 0x6009
  o.2.stkEv 0x6009 1 stk [stk, 786432, o.1.toNat]

theorem Cx.endRebuild_streams (c : Cx) (stk : Nat) (ws : List Nat) : (c.endRebuild stk ws).streams = c.streams :=
  (Cx.ev_streams ..).trans (foldl_keeps Cx.streams Cx.unfenceWin_streams ws _)

theorem Cx.stk_endRebuild (c : Cx) (stk : Nat) (ws : List Nat) : (c.endRebuild stk ws).stk stk =
    { c.stk stk with lost := false, rebuilding := false, lossFenced := [], progress := 786432 } :=
  (Cx.stk_ev ..).trans ((foldl_keeps (Cx.stk · stk) (fun d w => d.stk_unfenceWin w stk) ws _).trans
    (Cx.modStk_stk_self ..))

theorem exec_stackRebuildDone_ends {s : State} {stk : Fin 20} (hcan : s.cx.rebuildable stk = true)
    (hrebuilding : (s.cx.stk stk).rebuilding = true) :
    ∃ ws, exec (.stackRebuildDone stk) s = s.go ((s.cx.rebuilt stk 786432).endRebuild stk ws) := by
  change ∃ ws, execStackRebuildDone stk s = _
  unfold execStackRebuildDone
  exact ⟨_, if_neg (by simp [hcan, hrebuilding])⟩

/-! ### Raw writes (R110, R302) -/

theorem exec_testRawWrite_stores {s : State} {ch : Fin 640} {off : W32} {data : List Byte}
    (hselected : (s.cx.die (homeDie (ch.val / 32))).jtag = 6) (hdisabled : s.cx.enabled = false)
    (hreset : (s.cx.die (homeDie (ch.val / 32))).core = false) (hsome : data ≠ [])
    (hfits : off.toNat + data.length ≤ channelBytes) :
    let c := (List.range data.length).foldl (fun (c : Cx) i =>
      c.putByte (chanKey ch (off.toNat + i)) (data.getD i 0#8)) s.cx
    let words := (List.range ((off.toNat + data.length - 1) / 2048 + 1 - off.toNat / 2048)).flatMap fun i =>
      (List.range 32).map fun j => chanKey ch ((off.toNat / 2048 + i) * 2048 + 64 * j) / 64
    exec (.testRawWrite ch off data) s = s.go { c with
      eccUnknown := words.foldl nput c.eccUnknown, poison := words.foldl nput c.poison } := by
  intro c words
  change execTestRawWrite ch off data s = _
  unfold execTestRawWrite
  exact if_neg (by simp [hselected, hdisabled, hreset, hsome, hfits])

/-- Settles O40, clause by clause from what each command does in the case that the clause names. -/
theorem stackMaintenance : Obligations.StackMaintenance := by
  refine ⟨?temperature, ?corrected, ?uncorrectable, ?retire, ?retired, ?delta, ?replay, ?loss, ?rebuild, ?rebuilt, ?raw⟩
  case temperature =>
    intro s ch t k0 k hhot htrip hrow hup
    exact exec_temperatureSample_cools rfl hhot htrip hrow hup
  case corrected =>
    intro s ch bank row off st key c htrained
    refine ⟨fun hfew => exec_rowSpare_counts htrained hfew, fun hmany hleft => ?_, fun hmany hnone => ?_⟩
    · exact (exec_rowSpare_fourth htrained hmany).trans (congrArg s.go (if_neg hleft.ne'))
    · exact (exec_rowSpare_fourth htrained hmany).trans (congrArg s.go (if_pos hnone))
  case uncorrectable =>
    intro s ch bank row off st key c left htrained hleft
    have hleft' : left = ((s.cx.uncorrected ch off.toNat).stk st).sparesLeft (ch.val % 32) bank := by
      simp only [left, c, Cx.modStk_stk_self, Stack.sparesLeft]
      rfl
    rw [hleft'] at hleft ⊢
    exact (exec_rowSpare_uncorrectable htrained).trans (congrArg s.go (if_neg hleft.ne'))
  case retire =>
    intro s stk hup hserved
    exact exec_channelRetire_starts hup hserved
  case retired =>
    intro s stk x hretired hrebuilding hkept hall
    exact exec_channelRebuildDone_ends hretired hrebuilding hkept hall
  case delta =>
    intro s stk d rest hdeltas hup
    exact exec_parityDelta_applies hdeltas hup
  case replay =>
    intro s stk hup hidle hkept mine ds c
    exact exec_parityLogReplay_applies hup hidle hkept
  case loss =>
    intro s stk htrained hreset
    exact exec_linkResetExpiry_loses htrained hreset
  case rebuild =>
    intro s stk hcan hidle
    exact exec_stackRebuild_starts hcan hidle
  case rebuilt =>
    intro s stk hcan hrebuilding
    obtain ⟨ws, hexec⟩ := exec_stackRebuildDone_ends hcan hrebuilding
    refine ⟨_, hexec, rfl, ?_, ?_, ?_, (Cx.endRebuild_streams ..).trans (Cx.rebuilt_streams ..)⟩ <;>
      rw [Cx.stk_endRebuild]
  case raw =>
    intro s ch off data hselected hdisabled hreset hsome hfits c words
    exact exec_testRawWrite_stores hselected hdisabled hreset hsome hfits

end Sys2Proof.Machine
end

section
/-!
PROOF. Stack links and their margining (R306 to R309), and the moves of windows between a stack and the slow tier (R322,
R323).
-/
namespace Sys2Proof.Machine

/-! ### Retraining (R307, R308) -/

section Links

variable {s : State} {stk : Fin 20}

theorem Cx.retrainPrimary_starts {c : Cx} {k : Nat} (cause : Nat) (h : (c.stk k).retrainP = false) :
    c.retrainPrimary k cause = c.modStk k fun x => { x with
      retrainP := true, onStandby := true, primary := 1, cause := cause } := by
  simp [Cx.retrainPrimary, h]

/-- The standby link retrains unless it must wait for the primary link. -/
theorem Cx.retrainStandby_starts {c : Cx} {k : Nat} (cause : Nat) {failed : Bool} (h : (c.stk k).retrainS = false)
    (hfree : (c.stk k).retrainP = false ∨ failed = true) :
    c.retrainStandby k cause failed = c.modStk k fun x => { x with
      retrainS := true, standby := 1, standbyWaits := false, cause := cause } := by
  have hgo : ((c.stk k).retrainP && !failed) = false := by
    rcases hfree with h | h <;> simp [h]
  simp only [Cx.retrainStandby, h, hgo, Bool.false_eq_true, if_false]

theorem exec_retrainPrimary_starts (hserved : s.cx.ownerServes stk = true) :
    exec (.retrainPrimary stk) s = s.go (s.cx.retrainPrimary stk 2) := if_pos hserved

theorem exec_retrainStandby_starts (hserved : s.cx.ownerServes stk = true) : exec (.retrainStandby stk) s =
    s.go (s.cx.retrainStandby stk 2 ((s.cx.stk stk).standby = 0)) := if_pos hserved

theorem exec_stackReplayBurst_runs (hrun : 2 ≤ (s.cx.stk stk).primary) :
    exec (.stackReplayBurst stk) s = s.go (s.cx.retrainPrimary stk 0) := if_neg (Nat.not_lt.2 hrun)

theorem exec_laneCheckFailure_primary (hrun : 2 ≤ (s.cx.stk stk).primary) :
    exec (.laneCheckFailure stk false) s = s.go (s.cx.retrainPrimary stk 1) := if_neg (Nat.not_lt.2 hrun)

theorem exec_laneCheckFailure_standby (hrun : 2 ≤ (s.cx.stk stk).standby) :
    exec (.laneCheckFailure stk true) s = s.go (s.cx.retrainStandby stk 1 true) := if_neg (Nat.not_lt.2 hrun)

/-- A link's retraining is over: the complex e holds its new state, which is counted and reported. -/
def Cx.sayRetrained (c e : Cx) (stk : Nat) (standby : Bool) (failed dur : Nat) : Cx :=
  ((e.bump (stkReg stk 0x4C) 31 (homeDie stk)).stkEv 0x6001 1 stk
    [stk, b2n standby, (c.stk stk).cause, (trainedState standby failed).2, dur]).sayDegraded stk standby
      (trainedState standby failed).1

theorem exec_retrainDone_primary (failed dur : Nat) (hunder : (s.cx.stk stk).retrainP = true)
    (hends : (s.cx.stk stk).marginHolds = false) (halone : (s.cx.stk stk).standbyWaits = false) :
    exec (.retrainDone stk false failed dur) s = s.go (s.cx.linkEdge stk (s.cx.sayRetrained (s.cx.modStk stk fun k =>
      { k with retrainP := false, primary := (trainedState false failed).1, sparePrimary := (trainedState false failed).2
               onStandby := (trainedState false failed).1 = 0 }) stk false failed dur)) := by
  change execRetrainDone stk false failed dur s = _
  simp only [execRetrainDone, hunder, hends, halone, Bool.false_eq_true, if_false, Bool.not_false, Bool.not_true,
    Bool.and_self, Bool.and_false]
  rfl

theorem exec_retrainDone_standby (failed dur : Nat) (hunder : (s.cx.stk stk).retrainS = true) :
    exec (.retrainDone stk true failed dur) s = s.go (s.cx.linkEdge stk (s.cx.sayRetrained (s.cx.modStk stk fun k =>
      { k with retrainS := false, standby := (trainedState true failed).1, spareStandby := (trainedState true failed).2 })
        stk true failed dur)) := by
  change execRetrainDone stk true failed dur s = _
  simp only [execRetrainDone, hunder, Bool.false_eq_true, if_false, if_true, Bool.not_true, Bool.false_and]
  rfl

/-! ### Margining (R309) -/

theorem exec_margin_starts (hserved : s.cx.ownerServes stk = true) (hidle : (s.cx.stk stk).marginBusy = false) :
    let under := s.cx.enabled && !bit (s.cx.reg (stkReg stk 0x08)).toNat 10
    let c := s.cx.modStk stk fun k => { k with
      marginBusy := true, marginDone := false, marginErrors := 0, marginHolds := under }
    exec (.margin stk) s = s.go (if under then c.retrainPrimary stk 3 else c) :=
  if_neg (by simp [hserved, hidle])

theorem exec_slowMargin_starts {d : Side} (hserved : s.cx.serves d = true) (hidle : (s.cx.die d).marginBusy = false)
    (hdisabled : s.cx.enabled = false) : exec (.slowMargin d) s = s.go (s.cx.modDie d fun k => { k with
      marginBusy := true, marginDone := false, marginErrors := 0 }) := by
  change execSlowMargin d s = _
  simp [execSlowMargin, hserved, hidle, hdisabled]

theorem exec_marginDwellEnd_stack (errors : Nat) (hbusy : (s.cx.stk stk).marginBusy = true) :
    exec (.marginDwellEnd (.stack stk) errors) s = s.go (s.cx.modStk stk fun x => { x with
      marginBusy := false, marginDone := true, marginErrors := min errors (2 ^ 24 - 1), marginHolds := false }) :=
  if_pos hbusy

theorem exec_marginDwellEnd_slow {d : Side} (errors : Nat) (hbusy : (s.cx.die d).marginBusy = true) :
    exec (.marginDwellEnd (.slow d) errors) s = s.go (s.cx.modDie d fun x => { x with
      marginBusy := false, marginDone := true, marginErrors := min errors (2 ^ 24 - 1) }) :=
  if_pos hbusy

end Links

/-! ### Promotion and write-back (R322, R323) -/

section Tiers

variable {s : State} {w : BitVec 19} {v : Win}

/-- The image of a window can be promoted into a slot now. -/
structure Promotes (c : Cx) (w : Nat) (v : Win) (slot : Nat) : Prop where
  win : c.win? w = some v
  away : v.resident = false
  wanted : v.promoting = true
  free : c.stackBusy (winStack w) = false
  core : c.coreUp (homeDie (winStack w)) = true
  slot : c.freePromo (winStack w) = some slot
  slow : (c.die (homeDie (winStack w))).slowUp = true
  clean : c.hubPoisonIn (slowImageKey w v) slotBytes = none

/-- A window's image in a promotion slot, and the window resident there. -/
def Cx.promoted (c : Cx) (w : Nat) (v : Win) (slot : Nat) : Cx :=
  ((c.copyImage (stackKey (winStack w) (c.slotOff slot)) (c.bytes (slowImageKey w v) slotBytes)).tagSlot (winStack w) slot
    v.tenantTag).modWin w fun v => { v with stateSlot := slot, resident := true, promoting := false }

theorem exec_promotionDone_promotes {slot : Nat} (h : Promotes s.cx w.toNat v slot) :
    let c := s.cx.promoted w.toNat v slot
    exec (.promotionDone w true) s = s.go ((((c.submit (c.owner (winStack w.toNat)) (.flags w.toNat)).saveEntry
      w.toNat).serveGathers).serveGrads) := by
  intro c
  change execPromotionDone w true s = _
  simp only [execPromotionDone, h.win, h.away, h.wanted, h.free, h.core, h.slot, h.slow, h.clean, Bool.not_true,
    Bool.or_self, Option.isSome_none, Bool.false_eq_true, if_false]
  rfl

theorem exec_writeBackStart_starts (hwin : s.cx.win? w.toNat = some v) (hmay : s.cx.canWriteBack w.toNat v = true)
    (hidle : v.writingBack = false) : exec (.writeBackStart w) s =
      s.go (s.cx.modWin w.toNat fun v => { v with writingBack := true }) := by
  change execWriteBackStart w s = _
  simp only [execWriteBackStart, hwin, hmay, hidle, Bool.not_false, Bool.and_self, if_true]

/-- A window's image back in the slow tier, with its poison, and its state slot retired. -/
def Cx.writtenBack (c : Cx) (w : Nat) (v : Win) : Cx :=
  let src := stackKey (winStack w) (c.slotOff v.stateSlot)
  ((((c.poke (slowImageKey w v) (c.hubBytes src slotBytes)).carryPoison src (slowImageKey w v) slotBytes).retire
    (winStack w) v.stateSlot).modWin w fun v => { v with resident := false, writingBack := false })

theorem exec_writeBackDone_leaves (hwin : s.cx.win? w.toNat = some v) (hmay : s.cx.canWriteBack w.toNat v = true)
    (hunder : v.writingBack = true) :
    let c := s.cx.writtenBack w.toNat v
    exec (.writeBackDone w) s =
      s.go ((c.submit (c.owner (winStack w.toNat)) (.flags w.toNat)).saveEntry w.toNat) := by
  intro c
  change execWriteBackDone w s = _
  simp only [execWriteBackDone, hwin, hmay, hunder, Bool.not_true, Bool.false_eq_true, if_false]
  rfl

end Tiers

/-- Settles O41, from the start and the end of a retraining and of a margin, and from the moves of a window's image. -/
theorem stackLinksAndTiers : Obligations.StackLinksAndTiers := by
  refine ⟨?primary, ?standby, ?fails, ?standbyFails, ?primaryDone, fun s stk failed dur hunder => ?standbyDone, ?margin, ?slow,
    fun s stk errors hbusy => ?dwell, fun s d errors hbusy => ?slowDwell, ?promotion, ?start, ?done⟩
  case primary =>
    intro s stk hserved hidle
    exact (exec_retrainPrimary_starts hserved).trans (congrArg s.go (Cx.retrainPrimary_starts 2 hidle))
  case standby =>
    intro s stk hserved hidle hfree
    exact (exec_retrainStandby_starts hserved).trans (congrArg s.go (Cx.retrainStandby_starts 2 hidle (.inl hfree)))
  case fails =>
    intro s stk hrun hidle
    exact ⟨(exec_stackReplayBurst_runs hrun).trans (congrArg s.go (Cx.retrainPrimary_starts 0 hidle)),
      (exec_laneCheckFailure_primary hrun).trans (congrArg s.go (Cx.retrainPrimary_starts 1 hidle))⟩
  case standbyFails =>
    intro s stk hrun hidle
    exact (exec_laneCheckFailure_standby hrun).trans (congrArg s.go (Cx.retrainStandby_starts 1 hidle (.inr rfl)))
  case primaryDone =>
    intro s stk failed dur hunder hends halone
    exact exec_retrainDone_primary failed dur hunder hends halone
  case standbyDone => exact exec_retrainDone_standby failed dur hunder
  case margin =>
    intro s stk hserved hidle
    exact exec_margin_starts hserved hidle
  case slow =>
    intro s d hserved hidle hdisabled
    exact exec_slowMargin_starts hserved hidle hdisabled
  case dwell => exact exec_marginDwellEnd_stack errors hbusy
  case slowDwell => exact exec_marginDwellEnd_slow errors hbusy
  case promotion =>
    intro s w v slot st hwin haway hwanted hfree hcore hslot hslow hclean
    exact exec_promotionDone_promotes ⟨hwin, haway, hwanted, hfree, hcore, hslot, hslow, hclean⟩
  case start =>
    intro s w v hwin hmay hidle
    exact exec_writeBackStart_starts hwin hmay hidle
  case done =>
    intro s w v st hwin hmay hunder
    have hdone := exec_writeBackDone_leaves hwin hmay hunder
    rw [Cx.writtenBack] at hdone
    exact hdone

end Sys2Proof.Machine
end

section
/-!
PROOF. Frames on an UP link, acks and credits (R334, R336 to R341).
-/
namespace Sys2Proof.Machine

/-! ### Ports -/

/-- An update of a port acts on that port as it stands. -/
theorem Cx.modFp_congr {c : Cx} {p : Nat} {f g : FabPort → FabPort} (h : f (c.fp p) = g (c.fp p)) :
    c.modFp p f = c.modFp p g := by
  rw [Cx.modFp, h, Cx.modFp]

@[simp] theorem Cx.fp_emit (c : Cx) (o : Out) (p : Nat) : (c.emit o).fp p = c.fp p := rfl

/-! ### Resets (R342) -/

/-- The reset of a link that is UP. -/
def Cx.dropLink (c : Cx) (p cause : Nat) : Cx :=
  ((c.bump (fabOff p 0x4C) 31 (portDie p)).emit (.ctl p 9 [cause])).modFp p fun q =>
    { q with st := .reset, wasUp := true, sawHello := false, timeouts := 0, resetting := cause + 1 }

theorem Cx.resetLink_up {c : Cx} {p : Nat} (cause : Nat) (h : (c.fp p).st = .up) :
    c.resetLink p cause = c.dropLink p cause := by
  have hstarts : c.resetLink p cause = c.startReset p cause := by
    simp [Cx.resetLink, h]
  have hport : (((c.bump (fabOff p 0x4C) 31 (portDie p)).emit (.ctl p 9 [cause])).fp p).st = .up := by
    rw [Cx.fp_emit, Cx.fp_bump, h]
  rw [hstarts, Cx.startReset, Cx.dropLink]
  refine Cx.modFp_congr ?_
  rw [hport]
  rfl

/-- A reset of a link touches no other port. -/
theorem Cx.fp_resetLink_ne (c : Cx) {p r : Nat} (cause : Nat) (h : r ≠ p) : (c.resetLink p cause).fp r = c.fp r := by
  simp only [Cx.resetLink]
  split_ifs
  · rfl
  · rfl
  · simp only [Cx.startReset, Cx.modFp_fp_ne _ _ h, Cx.fp_emit, Cx.fp_bump]

/-! ### Acks (R340) -/

section Acks

variable {c : Cx} {p : Nat} {f : Frame}

theorem Cx.takeAck_none (h : f.ackValid = false) : c.takeAck p f = c := by
  simp [Cx.takeAck, h]

/-- An ack of a frame not yet sent is a protocol error. -/
theorem Cx.takeAck_unsent (hvalid : f.ackValid = true) (hnewer : newerEq f.ack (c.fp p).nextSeq = true) :
    c.takeAck p f = c.protocolError p 0 := by
  simp [Cx.takeAck, hvalid, hnewer]

/-- A valid ack that is not older than the newest one frees the frames that are not newer than it. -/
theorem Cx.takeAck_frees (hvalid : f.ackValid = true) (hsent : newerEq f.ack (c.fp p).nextSeq = false)
    (hfresh : ∀ a, (c.fp p).newestAck = some a → seqCmp f.ack a ≠ .older) :
    c.takeAck p f = c.modFp p fun q => { q with
      newestAck := some f.ack, replay := (c.fp p).replay.filter fun t => newer t.seq f.ack
      timeouts := if ((c.fp p).replay.filter fun t => newer t.seq f.ack).length < q.replay.length then 0
        else q.timeouts } := by
  have hnew : ((c.fp p).newestAck.any fun a => seqCmp f.ack a == .older) = false := by
    rw [Option.any_eq_false]
    intro a ha
    simpa using hfresh a ha
  simp only [Cx.takeAck, hvalid, hsent, hnew, Bool.not_true, Bool.false_eq_true, if_false]

/-- An ack touches no other port. -/
theorem Cx.fp_takeAck_ne (c : Cx) {p q : Nat} (f : Frame) (h : q ≠ p) : (c.takeAck p f).fp q = c.fp q := by
  simp only [Cx.takeAck]
  split_ifs
  · rfl
  · rw [Cx.protocolError, Cx.fp_resetLink_ne _ _ h, Cx.fp_ev]
  · rfl
  · exact Cx.modFp_fp_ne _ _ h

end Acks

/-! ### Credits (R337, R338) -/

/-- A frame names one of the four channels. -/
theorem creditVc_lt (f : Frame) : f.creditVc < 4 := Nat.mod_lt _ (by decide)

theorem getD_setNth_self {l : List Nat} {i : Nat} (v : Nat) (h : i < l.length) : (setNth l i v).getD i 0 = v := by
  simp [setNth, h]

theorem getD_setNth_ne (l : List Nat) {i k : Nat} (v : Nat) (h : k ≠ i) : (setNth l i v).getD k 0 = l.getD k 0 := by
  simp [setNth, h.symm]

/-- Settles O44: an ack from its three cases, a credit total from the two lists that it sets. -/
theorem acksAndCredits : Obligations.AcksAndCredits := by
  refine ⟨?frees, ?unsent, fun c p f => Cx.takeAck_none, ?credit,
    fun c p q f hq => ⟨Cx.modFp_fp_ne _ _ hq, Cx.fp_takeAck_ne c f hq⟩⟩
  case frees =>
    intro c p f hvalid hsent hfresh
    rw [Cx.takeAck_frees hvalid hsent hfresh, Cx.modFp_fp_self]
    exact ⟨rfl, rfl, rfl, rfl, rfl⟩
  case unsent =>
    intro c p f _ hvalid hnewer hup
    have hstill : ((c.ev 0x700A 7 1 (portDie p) p [p, 0]).fp p).st = .up := by rw [Cx.fp_ev, hup]
    rw [Cx.takeAck_unsent hvalid hnewer, Cx.protocolError, Cx.resetLink_up 3 hstill, Cx.dropLink, Cx.modFp_fp_self]
    exact ⟨rfl, rfl⟩
  case credit =>
    intro c p f havail htotal
    rw [Cx.takeCredit, Cx.modFp_fp_self]
    exact ⟨getD_setNth_self _ (havail ▸ creditVc_lt f), getD_setNth_self _ (htotal ▸ creditVc_lt f),
      fun v hv => getD_setNth_ne _ _ hv⟩

/-! ### Frames (R334, R338, R339) -/

section Frames

variable {s : State} {p : Fin 12} {f : Frame}

theorem exec_nullFrame_takes (hup : (s.cx.fp p).st = .up) (hgood : f.good = true) (htype : f.type = 0) :
    exec (.nullFrame p f) s = s.go (s.cx.takeControl p f) := by
  change execNullFrame p f s = _
  simp [execNullFrame, hup, hgood, htype]

/-- A frame that fails R334 is only counted. -/
theorem exec_frame_bad (hbad : f.good = false) : exec (.nullFrame p f) s = s.go (s.cx.badFrame p) ∧
    exec (.sequencedFrame p f) s = s.go (s.cx.badFrame p) :=
  ⟨if_pos (by simp [hbad]), if_pos (by simp [hbad])⟩

/-- A sequenced frame whose control fields left the link UP is held against rx_next. -/
theorem exec_sequencedFrame_takes (hup : (s.cx.fp p).st = .up) (hgood : f.good = true) (htype : f.type = 1 ∨ f.type = 2)
    (hstill : ((s.cx.takeControl p f).fp p).st = .up) :
    exec (.sequencedFrame p f) s = s.go ((s.cx.takeControl p f).takeSequenced p f) := by
  change execSequencedFrame p f s = _
  simp [execSequencedFrame, hup, hgood, htype, hstill]

theorem Cx.takeSequenced_next {c : Cx} {p : Nat} (h : f.seq = (c.fp p).rxNext) :
    c.takeSequenced p f = (c.modFp p fun q => { q with
      rxNext := q.rxNext + 1#12, accepted := true, ackPending := true, nakSent := false }).assemble p f := by
  simp only [Cx.takeSequenced, (seqCmp_eq_equal_iff_eq _ _).2 h]

theorem Cx.takeSequenced_older {c : Cx} {p : Nat} (h : seqCmp f.seq (c.fp p).rxNext = .older) :
    c.takeSequenced p f = (c.bump (fabOff p 0x54) 31 (portDie p)).modFp p fun q => { q with ackPending := true } := by
  simp only [Cx.takeSequenced, h]

/-- The first newer frame asks for a nak, the others are only counted. -/
theorem Cx.takeSequenced_newer {c : Cx} {p : Nat} (h : seqCmp f.seq (c.fp p).rxNext = .newer) :
    c.takeSequenced p f = (c.bump (fabOff p 0x58) 31 (portDie p)).modFp p fun q =>
      if (c.fp p).nakSent then q else { q with nakPending := true, nakSent := true } := by
  simp only [Cx.takeSequenced, h]
  exact Cx.modFp_congr (by rw [Cx.fp_bump])

end Frames

/-- Settles O43: a bad frame, a NULL frame, and a sequenced one by its place against rx_next. -/
theorem framesTaken : Obligations.FramesTaken := by
  refine ⟨fun s p f _ hbad => exec_frame_bad hbad, fun s p f => exec_nullFrame_takes, ?sequenced⟩
  intro s p f hup hgood htype d hstill
  have hexec := exec_sequencedFrame_takes hup hgood htype hstill
  refine ⟨fun hnext => ?next, fun holder => ?older, fun hnewer hfirst => ?first, fun hnewer hagain => ?again⟩
  case next => exact hexec.trans (congrArg s.go (Cx.takeSequenced_next hnext))
  case older => exact hexec.trans (congrArg s.go (Cx.takeSequenced_older holder))
  case first =>
    refine ⟨_, hexec, ?_⟩
    simp [Cx.takeSequenced_newer hnewer, show (d.fp p).nakSent = false from hfirst, d]
  case again =>
    refine hexec.trans (congrArg s.go ((Cx.takeSequenced_newer hnewer).trans ?_))
    exact Cx.modFp_congr (if_pos hagain)

end Sys2Proof.Machine
end

section
/-!
PROOF. Timers, resets and the end of a link (R338, R341 to R346), and its training and HELLO (R332, R343, R344, R353).
-/
namespace Sys2Proof.Machine

/-! ### Timers and resets -/

section Timers

variable {s : State} {p : Fin 12}

theorem exec_nullSendTimer_sends (hup : (s.cx.fp p).st = .up) (hdue : (s.cx.fp p).ackPending = true ∨
      (s.cx.fp p).nakPending = true ∨ (s.cx.fp p).totals ≠ (s.cx.fp p).reported) :
    exec (.nullSendTimer p) s = s.go ((s.cx.modFp p FabPort.reportedBy).emit
      (.frame p ((s.cx.fp p).header 0 0 0#12 0) none 0)) := by
  have hsend : ((s.cx.fp p).ackPending || (s.cx.fp p).nakPending
      || (s.cx.fp p).totals != (s.cx.fp p).reported) = true := by
    simpa [or_assoc] using hdue
  exact if_pos (by simp [hup, hsend])

/-- The held frames have gone out again once more without a freeing ack. -/
def Cx.replayedOnTimeout (c : Cx) (p : Nat) : Cx :=
  (((c.bump (fabOff p 0x48) 31 (portDie p)).bump (fabOff p 0x44) 31 (portDie p)).modFp p fun q =>
    { q with timeouts := q.timeouts + 1 }).replayAll p

theorem exec_ackTimeout_replays (hup : (s.cx.fp p).st = .up) (hheld : (s.cx.fp p).replay ≠ []) :
    exec (.ackTimeout p) s = s.go (if 8 ≤ (s.cx.fp p).timeouts + 1 then (s.cx.replayedOnTimeout p).resetLink p 0
      else s.cx.replayedOnTimeout p) :=
  if_pos (by simp [hup, hheld])

theorem exec_resetFrame_resets {f : Frame} (hgood : f.good = true) (htype : f.type = 9) :
    exec (.resetFrame p f) s = s.go (s.cx.resetLink p 4) := by
  change execResetFrame p f s = _
  simp [execResetFrame, hgood, htype]

theorem exec_uncorrectedBlockBurst_resets {n : Nat} (hmany : 1000 < n) : exec (.uncorrectedBlockBurst p n) s =
    s.go ((s.cx.bump (fabOff p 0x50) 31 (portDie p) n).resetLink p 1) :=
  congrArg s.go (if_pos hmany)

theorem exec_uncorrectedBlockBurst_counts {n : Nat} (hfew : n ≤ 1000) :
    exec (.uncorrectedBlockBurst p n) s = s.go (s.cx.bump (fabOff p 0x50) 31 (portDie p) n) :=
  congrArg s.go (if_neg (Nat.not_lt.2 hfew))

theorem exec_departWaitExpiry_departs (hdeparting : (s.cx.fp p).departing = true) : exec (.departWaitExpiry p) s =
    s.go ((((s.cx.portSend p (s.cx.localMsg 0x2A 1 0#64 0#64 [] [])).modFp p fun q => { q.cold [0, 0, 0, 0] with
      st := .down, departing := false, queue := [], wasUp := false, bootstrap := true }).ev
      0x7002 7 1 (portDie p) p [p.val, 1]).endDisable) :=
  if_neg (by simp [hdeparting])

end Timers

/-- Settles O45, from the timers and from the reset of a link that is UP. -/
theorem linkTimersAndResets : Obligations.LinkTimersAndResets := by
  refine ⟨fun s p hup hdue => exec_nullSendTimer_sends hup hdue,
    fun s p hup hheld => exec_ackTimeout_replays hup hheld, ?resets,
    fun s p n => exec_uncorrectedBlockBurst_counts, fun s p => exec_departWaitExpiry_departs, ?depart⟩
  case resets =>
    intro s p f hup c
    have hburst (n : Nat) : ((s.cx.bump (fabOff p 0x50) 31 (portDie p) n).fp p).st = .up := by rw [Cx.fp_bump, hup]
    exact ⟨fun hgood htype => (exec_resetFrame_resets hgood htype).trans (congrArg s.go (Cx.resetLink_up 4 hup)),
      congrArg s.go (Cx.resetLink_up 5 hup), congrArg s.go (Cx.resetLink_up 2 hup), fun n hmany =>
      (exec_uncorrectedBlockBurst_resets hmany).trans (congrArg s.go (Cx.resetLink_up 1 (hburst n)))⟩
  case depart =>
    intro s p m hop harrived
    exact congrArg s.go (Cx.onMsg_arrived _ hop harrived)

/-! ### Training (R332, R344) -/

section Training

variable {s : State} {p : Fin 12}

/-- The lanes of the port train. -/
def LinkSt.trains (st : LinkSt) : Prop := st = .training ∨ st = .reset

theorem LinkSt.trains_guard {st : LinkSt} (h : st.trains) : (st != .training && st != .reset) = false := by
  rcases h with rfl | rfl <;> rfl

theorem exec_laneTrainingDone_greets {l : LaneForm} (htrains : (s.cx.fp p).st.trains)
    (hboot : (s.cx.fp p).bootstrap = true) (h4 : (s.cx.fp p).force4 = true → l.width4 = true)
    (h56 : (s.cx.fp p).force56 = true → l.speed56 = true) :
    exec (.laneTrainingDone p (some l)) s = s.go ((s.cx.modFp p fun q => { q with
      st := .hello, width4 := l.width4, speed56 := l.speed56, sawHello := false }).sendHello p) := by
  have hwidth : (!(s.cx.fp p).force4 || l.width4) = true := by
    cases hf : (s.cx.fp p).force4
    · rfl
    · simp [h4 hf]
  have hspeed : (!(s.cx.fp p).force56 || l.speed56) = true := by
    cases hf : (s.cx.fp p).force56
    · rfl
    · simp [h56 hf]
  change execLaneTrainingDone p (some l) s = _
  simp only [execLaneTrainingDone, LinkSt.trains_guard htrains, hboot, hwidth, hspeed, Bool.true_or, Bool.and_self,
    Bool.false_eq_true, if_false, if_true]

theorem exec_laneTrainingDone_none (htrains : (s.cx.fp p).st.trains) :
    exec (.laneTrainingDone p none) s = s.go (s.cx.noTraining p) :=
  if_neg (ne_true_of_eq_false (LinkSt.trains_guard htrains))

/-- Lanes that trained wide do not serve a port that is forced to width 4. -/
theorem exec_laneTrainingDone_wide {l : LaneForm} (htrains : (s.cx.fp p).st.trains)
    (hforce : (s.cx.fp p).force4 = true) (hwide : l.width4 = false) :
    exec (.laneTrainingDone p (some l)) s = s.go (s.cx.noTraining p) := by
  change execLaneTrainingDone p (some l) s = _
  simp only [execLaneTrainingDone, LinkSt.trains_guard htrains, hforce, hwide, Bool.not_true, Bool.or_self, Bool.and_false,
    Bool.false_and, Bool.false_eq_true, if_false]

/-! ### HELLO (R344) -/

theorem exec_helloTimer_sends (hhello : (s.cx.fp p).st = .hello) :
    exec (.helloTimer p) s = s.go (s.cx.sendHello p) := by
  change execHelloTimer p s = _
  simp [execHelloTimer, hhello]

end Training

/-- Byte field of a partner's HELLO (Table 13.6). -/
def Frame.helloField (f : Frame) (o n : Nat) : Nat := leNat f.payload / 256 ^ o % 256 ^ n

/-- The HELLO comes from the partner that the port knew. -/
def FabPort.knows (q : FabPort) (f : Frame) : Bool :=
  BitVec.ofNat 64 (Frame.helloField f 0 8) = q.partnerUid && bits (Frame.helloField f 12 1) 3 0 = q.partnerPort

/-- A port that has heard a partner, the same as before or another one. -/
def FabPort.heard (q : FabPort) (f : Frame) (same : Bool) : FabPort :=
  { q with
    sawHello := true
    partnerUid := BitVec.ofNat 64 (Frame.helloField f 0 8)
    partnerPort := bits (Frame.helloField f 12 1) 3 0
    partnerNode := if bit (Frame.helloField f 8 4) 17 then some (BitVec.ofNat 17 (Frame.helloField f 8 4)) else none
    minor := min (Frame.helloField f 14 1) 1
    wasUp := q.wasUp && same }

/-- The port has heard its partner, and has answered the first HELLO. -/
def Cx.heardHello (c : Cx) (p : Nat) (f : Frame) : Cx :=
  let d := c.modFp p fun q => q.heard f ((c.fp p).knows f)
  if (c.fp p).sawHello then d else d.sendHello p

theorem Cx.fp_heardHello (c : Cx) (p : Nat) (f : Frame) : (c.heardHello p f).fp p = (c.fp p).heard f ((c.fp p).knows f) := by
  simp only [Cx.heardHello]
  split
  · exact Cx.modFp_fp_self ..
  · exact (Cx.fp_emit ..).trans (Cx.modFp_fp_self ..)

theorem Cx.fabMinor_bootstrap {c : Cx} {p : Nat} (h : (c.fp p).bootstrap = true) : c.fabMinor p = 1 := by
  simp [Cx.fabMinor, h]

/-- A HELLO of a listed major on a port with bootstrap settings: with seen set it brings the link UP. -/
theorem exec_hello_bootstrap {s : State} {p : Fin 12} {f : Frame} (hgood : f.good = true)
    (hhello : (s.cx.fp p).st = .hello) (htype : f.type = 8) (hboot : (s.cx.fp p).bootstrap = true)
    (hmajor : Frame.helloField f 13 1 = 3) :
    let c := s.cx.heardHello p f
    let g := Frame.helloField f
    exec (.hello p f) s = if bit (g 15 1) 2 then
        s.go ((c.ev 0x2006 7 0 (portDie p) p [1, p.val, 3, c.fabMinor p, g 13 1, g 14 1, min (g 14 1) 1]).linkUp p
          ((s.cx.fp p).wasUp && (s.cx.fp p).knows f && bit (g 15 1) 1) [g 18 1, g 19 1, g 20 1, g 21 1])
      else s.go c := by
  intro c g
  change execHello p f s = _
  have hknown : (leNat f.payload / 256 ^ 13 % 256 ^ 1 != 3
      || decide (min (leNat f.payload / 256 ^ 14 % 256 ^ 1) 1 < 0)) = false := by
    rw [Bool.or_eq_false_iff]
    exact ⟨by simpa [Frame.helloField] using hmajor, by simp⟩
  have hstarted : ((s.cx.fp p).st != .hello || f.type != 8) = false := by simp [hhello, htype]
  have hlimit : min 1 0xFF = 1 := rfl
  simp only [execHello, hgood, hstarted, hboot, hlimit, hknown, Bool.not_true, Bool.false_eq_true, if_false, if_true]
  rfl

/-! ### The end of a reset (R343, R353) -/

section Failing

variable {s : State} {p : Fin 12}

/-- A port that has failed, with its change reported. -/
def Cx.dropPort (c : Cx) (p : Nat) : Cx :=
  ((c.modFp p fun q => { q with
    st := .failed, resetting := 0, wasUp := false, replay := [], queue := [] }).pushBroken p).linkChange p

/-- Without a push under way nothing but the port fails. -/
theorem Cx.dropPort_of_no_push {c : Cx} (p : Nat) (h : c.img.push = none) :
    c.dropPort p = (c.modFp p fun q => { q with
      st := .failed, resetting := 0, wasUp := false, replay := [], queue := [] }).linkChange p := by
  simp [Cx.dropPort, Cx.pushBroken, h]

/-- The reset of the port's link is under way. -/
theorem reset_guard (hunder : (s.cx.fp p).resetting ≠ 0) (hreset : (s.cx.fp p).st = .reset) :
    ¬ (((s.cx.fp p).resetting = 0 || (s.cx.fp p).st == .up || (s.cx.fp p).st == .failed) = true) := by
  simp [hunder, hreset]

theorem exec_linkUpTimeout_clean (hunder : (s.cx.fp p).resetting ≠ 0) (hreset : (s.cx.fp p).st = .reset)
    (hnone : (s.cx.fp p).heldMsgs = []) :
    exec (.linkUpTimeout p) s = s.go ((s.cx.dropPort p).failPort p [] (s.cx.fp p).unsent) := by
  refine (if_neg (reset_guard hunder hreset)).trans ?_
  rw [hnone]
  rfl

theorem exec_linkUpTimeout_salvages {n : BitVec 17} (hunder : (s.cx.fp p).resetting ≠ 0)
    (hreset : (s.cx.fp p).st = .reset) (hheld : (s.cx.fp p).heldMsgs ≠ []) (hnode : (s.cx.fp p).partnerNode = some n) :
    exec (.linkUpTimeout p) s =
      s.go ((s.cx.dropPort p).askSalvage p n (s.cx.fp p).heldMsgs (s.cx.fp p).unsent) := by
  refine (if_neg (reset_guard hunder hreset)).trans ?_
  rw [hnode, List.isEmpty_eq_false_iff.2 hheld]
  rfl

end Failing

/-- Settles O46, from the forms that the lanes train in, the partner's HELLO, and the end of a reset. -/
theorem linkTraining : Obligations.LinkTraining := by
  refine ⟨fun s p l => exec_laneTrainingDone_greets, fun s p l htrains => ⟨exec_laneTrainingDone_none htrains, fun hforce hwide =>
    exec_laneTrainingDone_wide htrains hforce hwide⟩, fun s p => exec_helloTimer_sends, ?hello, ?timeout⟩
  case hello =>
    intro s p f hgood hhello htype q v g uid same node minor c d hboot hmajor
    have hexec := exec_hello_bootstrap hgood hhello htype hboot hmajor
    have hminor : (s.cx.heardHello p f).fabMinor p = 1 :=
      Cx.fabMinor_bootstrap (by rw [Cx.fp_heardHello]; exact hboot)
    simp only [hminor] at hexec
    exact ⟨fun hseen => hexec.trans (if_pos hseen), fun hunseen => hexec.trans (if_neg (ne_true_of_eq_false hunseen))⟩
  case timeout =>
    intro s p hunder hreset hpush q c
    have hdrop : s.cx.dropPort p = c := Cx.dropPort_of_no_push p hpush
    refine ⟨fun hnone => (exec_linkUpTimeout_clean hunder hreset hnone).trans ?_,
      fun n hheld hnode => (exec_linkUpTimeout_salvages hunder hreset hheld hnode).trans ?_⟩
    · rw [hdrop]
      rfl
    · rw [hdrop]
      rfl

end Sys2Proof.Machine
end

section
/-!
PROOF. Discovery of the fabric: election, heartbeats, reports, and the tables that the root gives out (R347 to R349, R352).
-/
namespace Sys2Proof.Machine

/-- The discovery state after a node event is the one before it. -/
@[simp] theorem Cx.nodeEv_fab (c : Cx) (code sev : Nat) (fs : List Nat) : (c.nodeEv code sev fs).fab = c.fab :=
  Cx.ev_fab ..

/-! ### Election and its end (R347) -/

section Election

variable {s : State} {k : Nat × Nat}

/-- What the settled election leaves in the discovery state. -/
def Fabric.settled (f : Fabric) (k : Nat × Nat) (own : Bool) : Fabric :=
  { f with
    st := 2, root := own, rootUid := BitVec.ofNat 64 k.2, changed := false, topos := []
    dist := if own then 0 else f.dist, parent := if own then 0 else f.parent }

/-- The election settles: the events that tell it leave the discovery state. -/
theorem exec_electionSettle_settled (hbest : s.cx.fab.best = some k) (hst : s.cx.fab.st = 1) :
    ∃ t, exec .electionSettle s = .next t ∧ t.pending = s.pending ∧
      t.cx.fab = s.cx.fab.settled k (decide (s.cx.offer = some k)) := by
  have hguard : ¬ ((s.cx.fab.st != 1) = true) := by simp [hst]
  change ∃ t, execElectionSettle s = .next t ∧ _
  simp only [execElectionSettle, hbest, if_neg hguard]
  refine ⟨_, rfl, rfl, ?_⟩
  simp only [apply_ite Cx.fab, Cx.nodeEv_fab, ite_self]
  rfl

end Election

/-! ### What a message of discovery does at a node that takes part -/

section Reports

variable {s : State} {p : Fin 13} {m : Msg} (harrived : s.cx.arrived p m = true)
  (hpart : (s.cx.consume p m).fab.st ≠ 0)

include harrived hpart

theorem exec_elect_adopts (hop : m.op.toNat = 0x20) (hbetter : (s.cx.consume p m).betterElect p
      (m.fields.getD 0 0, m.fields.getD 1 0) (m.fields.getD 2 0) = true) :
    exec (.elect p m) s = s.go (((s.cx.consume p m).setFab fun f => { f with
      best := some (m.fields.getD 0 0, m.fields.getD 1 0), dist := m.fields.getD 2 0 + 1, parent := p, st := 1
      root := false, changed := true }).sendElectAll) := by
  change execElect p m s = _
  rw [execElect, Cx.onMsg_arrived _ hop harrived]
  exact congrArg s.go (if_neg (by rw [hbetter]; simp [hpart]))

theorem exec_heartbeat_passesOn (hop : m.op.toNat = 0x25) (hroot : (s.cx.consume p m).fab.root = false)
    (hparent : (s.cx.consume p m).fab.parent = p) :
    let c := s.cx.consume p m
    let d := (c.upPorts.filter (· != p.val)).foldl (fun c q => c.sendDisc q 0x25 m.fields) c
    exec (.heartbeat p m) s = s.go (d.sendDisc d.fab.parent 0x21 d.ownTopo.fields) := by
  change execHeartbeat p m s = _
  rw [execHeartbeat, Cx.onMsg_arrived _ hop harrived]
  exact congrArg s.go (if_neg (by simp [hpart, hroot, hparent]))

/-- The node remembers the child port of a report. -/
def Cx.heardTopo (c : Cx) (p : Nat) (m : Msg) : Cx :=
  c.setFab fun f => { f with via := kput f.via (readTopo m.fields).uid p }

/-- A report: collected at a root that collects, passed to the parent elsewhere. -/
theorem exec_topo_heard (hop : m.op.toNat = 0x21) :
    let d := (s.cx.consume p m).heardTopo p m
    exec (.topo p m) s = s.go (if d.fab.root then
        if d.fab.st = 2 then d.setFab fun f => { f with topos := putTopo f.topos (readTopo m.fields) } else d
      else d.sendDisc d.fab.parent 0x21 m.fields) := by
  change execTopo p m s = _
  rw [execTopo, Cx.onMsg_arrived _ hop harrived]
  exact congrArg s.go (if_neg hpart)

theorem exec_linkChange_heard (hop : m.op.toNat = 0x26) :
    let c := s.cx.consume p m
    exec (.linkChange p m) s = s.go (if c.fab.root then c.setFab fun f => { f with st := 2, topos := [] }
      else c.sendDisc c.fab.parent 0x26 m.fields) := by
  change execLinkChange p m s = _
  rw [execLinkChange, Cx.onMsg_arrived _ hop harrived]
  exact congrArg s.go (if_neg hpart)

end Reports

/-! ### Heartbeats by time (R348, R349) -/

section Beats

variable {s : State}

theorem exec_heartbeatTimer_root (hroot : s.cx.fab.root = true) : exec .heartbeatTimer s =
    s.go (s.cx.upPorts.foldl (fun c p => c.sendDisc p 0x25 [c.fab.rootUid.toNat]) s.cx) :=
  if_pos hroot

theorem exec_heartbeatTimeout_lost (hpart : s.cx.fab.st ≠ 0) (hroot : s.cx.fab.root = false) :
    exec .heartbeatTimeout s = s.go ((s.cx.setFab fun f => { f with
      st := 1, best := s.cx.offer, dist := 0, parent := 0, rootUid := 0#64 }).sendElectAll) :=
  if_neg (by simp [hpart, hroot])

end Beats

/-- Settles O48, from what each message of discovery does at a node that takes part and from the election's end. -/
theorem electionRuns : Obligations.ElectionRuns := by
  refine ⟨?elect, ?own, ?other, fun s => exec_heartbeatTimer_root, ?beat, ?topo, ?change,
    fun s => exec_heartbeatTimeout_lost⟩
  case elect =>
    intro s p m hop harrived c k dist hpart hbetter
    exact exec_elect_adopts harrived hpart hop hbetter
  case own =>
    intro s k hbest hst hoffer
    obtain ⟨t, hexec, hpending, hfab⟩ := exec_electionSettle_settled hbest hst
    rw [hoffer, decide_eq_true rfl] at hfab
    exact ⟨t, hexec, hpending, by rw [hfab]; exact ⟨rfl, rfl, rfl, rfl, rfl⟩⟩
  case other =>
    intro s k hbest hst hoffer
    obtain ⟨t, hexec, hpending, hfab⟩ := exec_electionSettle_settled hbest hst
    rw [decide_eq_false hoffer] at hfab
    exact ⟨t, hexec, hpending, by rw [hfab]; exact ⟨rfl, rfl, rfl, rfl⟩⟩
  case beat =>
    intro s p m hop harrived c hpart hroot hparent
    exact exec_heartbeat_passesOn harrived hpart hop hroot hparent
  case topo =>
    intro s p m hop harrived c t f
    refine ⟨fun hst hroot => ?_, fun hpart hroot => ?_⟩
    · have hpart : c.fab.st ≠ 0 := by simp [hst]
      exact (exec_topo_heard harrived hpart hop).trans (congrArg s.go ((if_pos hroot).trans (if_pos hst)))
    · exact (exec_topo_heard harrived hpart hop).trans (congrArg s.go (if_neg (ne_true_of_eq_false hroot)))
  case change =>
    intro s p m hop harrived c hpart
    exact ⟨fun hroot => (exec_linkChange_heard harrived hpart hop).trans (congrArg s.go (if_pos hroot)), fun hroot =>
      (exec_linkChange_heard harrived hpart hop).trans (congrArg s.go (if_neg (ne_true_of_eq_false hroot)))⟩

/-! ### Tables (R348, R349, R352) -/

theorem Cx.installTables_fab (c : Cx) (t : NewTables) : (c.installTables t).fab = { c.fab with
    id := t.id, group := t.group, member := t.member, epoch := t.epoch, newTables := none, st := 4 } := by
  rw [Cx.installTables, Cx.nodeEv_fab]
  dsimp only
  split
  · split
    · rfl
    · exact Cx.nodeEv_fab ..
  · exact Cx.nodeEv_fab ..
  · rfl

theorem Cx.tryInstall_complete (c : Cx) {t : NewTables} (hassigned : t.assigned = true)
    (hgroup : t.parts.contains 0 = true) (hmember : t.parts.contains 1 = true) :
    c.tryInstall t = (c.installTables t).sendDisc (c.installTables t).fab.parent 0x24
      [(c.installTables t).fab.uid.toNat, t.epoch.toNat] :=
  if_pos (by rw [hassigned, hgroup, hmember]; rfl)

/-- A message of the root that names this node is handled here. -/
theorem Cx.rootMsg_own {c : Cx} {m : Msg} (f : Cx → Cx) (hown : m.fields.getD 0 0 = c.fab.uid.toNat) :
    c.rootMsg m f = f c :=
  if_pos hown

/-- The root's collection with its own report. -/
def Cx.closedTopos (c : Cx) : List TopoRec := putTopo c.fab.topos c.ownTopo

/-- Nodes that the root awaits acknowledgements of. -/
def Cx.awaited (c : Cx) : List Nat := (c.closedTopos.filter fun x => x.uid != c.fab.uid.toNat).map (·.uid)

/-- What the close of a collection leaves in the discovery state: the ids, and the acks to come. -/
def Fabric.collected (f : Fabric) (epoch : W32) (ids : List (Nat × Nat)) (acks : List Nat) : Fabric :=
  { f with nextEpoch := epoch, assigned := ids, acks := acks, st := if acks.isEmpty then 4 else 3 }

/-- The close of a collection: whatever is sent, the ids are those of the reports, and the others' acks are awaited. -/
theorem exec_collectionClose_root {s : State} (hroot : s.cx.fab.root = true) (hst : s.cx.fab.st = 2) :
    ∃ t f, exec .collectionClose s = .next t ∧ t.pending = s.pending ∧
      t.cx.fab = Fabric.collected f (s.cx.fab.nextEpoch + 1#32) (assignIds s.cx.closedTopos) s.cx.awaited := by
  have hguard : ¬ ((!s.cx.fab.root || s.cx.fab.st != 2) = true) := by simp [hroot, hst]
  simp only [Cx.awaited, Fabric.collected, List.isEmpty_map]
  exact ⟨_, _, if_neg hguard, rfl, rfl⟩

section Tables

variable {s : State} {p : Fin 13} {m : Msg} (harrived : s.cx.arrived p m = true)

include harrived

theorem exec_assign_own (hop : m.op.toNat = 0x22) (hpart : (s.cx.consume p m).fab.st ≠ 0)
    (hown : m.fields.getD 0 0 = (s.cx.consume p m).fab.uid.toNat) :
    let c := s.cx.consume p m
    exec (.assign p m) s = s.go (c.tryInstall { c.newTablesFor (BitVec.ofNat 32 (m.fields.getD 1 0)) with
      assigned := true, nodes := m.fields.getD 4 0
      id := if m.fields.getD 2 0 = 0 then none else some (BitVec.ofNat 17 (m.fields.getD 3 0)) }) := by
  change execAssign p m s = _
  rw [execAssign, Cx.onMsg_arrived _ hop harrived]
  exact congrArg s.go ((if_neg hpart).trans (Cx.rootMsg_own _ hown))

theorem exec_table_own (hop : m.op.toNat = 0x23) (hpart : (s.cx.consume p m).fab.st ≠ 0)
    (hown : m.fields.getD 0 0 = (s.cx.consume p m).fab.uid.toNat) :
    let c := s.cx.consume p m
    let t := c.newTablesFor (BitVec.ofNat 32 (m.fields.getD 1 0))
    exec (.table p m) s = s.go (if m.fields.getD 2 0 = 0
      then c.tryInstall { t with parts := nput t.parts 0, group := routeEntries 512 m.data }
      else c.tryInstall { t with parts := nput t.parts 1, member := routeEntries 256 m.data }) := by
  change execTable p m s = _
  rw [execTable, Cx.onMsg_arrived _ hop harrived]
  exact congrArg s.go ((if_neg hpart).trans (Cx.rootMsg_own _ hown))

/-- An acknowledgement of the epoch that the root has given out. -/
theorem exec_tableAck_epoch (hop : m.op.toNat = 0x24) (hroot : (s.cx.consume p m).fab.root = true)
    (hst : (s.cx.consume p m).fab.st = 3)
    (hepoch : m.fields.getD 1 0 = (s.cx.consume p m).fab.nextEpoch.toNat) :
    let c := s.cx.consume p m
    let acks := c.fab.acks.filter (· != m.fields.getD 0 0)
    exec (.tableAck p m) s = s.go (c.setFab fun f => { f with acks := acks, st := if acks.isEmpty then 4 else 3 }) := by
  have hpart : (s.cx.consume p m).fab.st ≠ 0 := by simp [hst]
  have hatRoot : ¬ ((!(s.cx.consume p m).fab.root) = true) := by simp [hroot]
  have hcurrent : ¬ (((s.cx.consume p m).fab.st != 3 ||
      m.fields.getD 1 0 != (s.cx.consume p m).fab.nextEpoch.toNat) = true) := by rw [hepoch]; simp [hst]
  change execTableAck p m s = _
  rw [execTableAck, Cx.onMsg_arrived _ hop harrived]
  exact congrArg s.go ((if_neg hpart).trans ((if_neg hatRoot).trans (if_neg hcurrent)))

end Tables

/-- Settles O49, from the close of a collection and from what the messages of the root do at the node they name. -/
theorem tablesInstalled : Obligations.TablesInstalled := by
  refine ⟨?close, ?assign, ?table, ?install, ?ack⟩
  case close =>
    intro s hroot hst c
    obtain ⟨t, f, hexec, hpending, hfab⟩ := exec_collectionClose_root hroot hst
    refine ⟨t, hexec, hpending, ?_⟩
    rw [hfab]
    dsimp only [Fabric.collected]
    exact ⟨rfl, rfl, fun hsome => if_neg (ne_true_of_eq_false (List.isEmpty_eq_false_iff.2 hsome)),
      fun hnone => if_pos (List.isEmpty_iff.2 hnone)⟩
  case assign =>
    intro s p m hop harrived c hpart hown
    exact exec_assign_own harrived hop hpart hown
  case table =>
    intro s p m hop harrived c t hpart hown
    exact ⟨fun hgroup => (exec_table_own harrived hop hpart hown).trans (congrArg s.go (if_pos hgroup)),
      fun hmember => (exec_table_own harrived hop hpart hown).trans (congrArg s.go (if_neg hmember))⟩
  case install =>
    intro c t hassigned hgroup hmember
    rw [Cx.installTables_fab]
    exact ⟨by rw [Cx.tryInstall_complete c hassigned hgroup hmember, Cx.installTables_fab], rfl, rfl, rfl, rfl⟩
  case ack =>
    intro s p m hop harrived c hroot hst hepoch acks
    exact exec_tableAck_epoch harrived hop hroot hst hepoch

end Sys2Proof.Machine
end

section
/-!
PROOF. Power states, the governor, hub temperatures and supplies (R386 to R390, R394 to R398, R405).
-/
namespace Sys2Proof.Machine

/-- Two updates of a die that agree on what it is now. -/
theorem Cx.modDie_congr {c : Cx} {d : Side} {f g : Die → Die} (h : f (c.die d) = g (c.die d)) :
    c.modDie d f = c.modDie d g := by
  cases d
  · exact congrArg (fun k => { c with dieA := k }) h
  · exact congrArg (fun k => { c with dieB := k }) h

/-! ### Power states (R386 to R390) -/

section Power

variable {s : State} {d : Side}

/-- A change of state is told with the old state, the new one and the cause. -/
theorem Cx.setPower_changes {c : Cx} {p q : Power} (cause : Nat) (hold : (c.die d).power = p) (hne : (p == q) = false) :
    c.setPower d q cause = (c.modDie d fun k => { k with power := q }).ev 0x9001 10 0 d d.num
      [d.num, p.num, q.num, cause] := by
  rw [Cx.setPower, hold]
  exact if_neg (ne_true_of_eq_false hne)

/-- A running die enters Dew; a request for it waits no longer. -/
theorem Cx.enterDew_run {c : Cx} (cause : Nat) (hrun : (c.die d).power = .run) :
    c.enterDew d cause = ((c.modDie d fun k => { k with dewPending := false }).modDie d fun k =>
      { k with power := .dew }).ev 0x9001 10 0 d d.num [d.num, 3, 1, cause] :=
  Cx.setPower_changes (p := .run) cause (by rw [Cx.modDie_die_self]; exact hrun) rfl

theorem exec_pwrCtrlGo_waiting (hwaits : (s.cx.die d).dewPending = true) : exec (.pwrCtrlGo d) s = s.go s.cx :=
  if_pos (by rw [hwaits, Bool.or_true])

/-- A go on a powered die without a request that waits: target 2 is refused, another one is asked for. -/
theorem exec_pwrCtrlGo_target (haon : (s.cx.die d).aon = true) (hfree : (s.cx.die d).dewPending = false) :
    let t := bits (s.cx.reg (pwrBase d + 4)).toNat 1 0
    let r := s.cx.requestPower d t 5
    exec (.pwrCtrlGo d) s = if t = 2 then s.go (s.cx.hostAccess d 0 (pwrBase d + 4) 4 true) else
      match r.2 with
      | some k => s.go (r.1.pwrEv 0x9007 1 d [t, k])
      | none => s.go r.1 :=
  if_neg (by rw [haon, hfree]; decide)

/-- A running die that is asked for Dew enters it when it is idle, and else remembers the request. -/
theorem Cx.requestPower_dew {c : Cx} (cause : Nat) (hrun : (c.die d).power = .run) :
    c.requestPower d 1 cause =
      (if c.idle d then c.enterDew d cause else c.modDie d fun k => { k with dewPending := true }, none) := by
  rw [Cx.requestPower]
  exact hrun

theorem exec_pwrCtrlGo_dew (haon : (s.cx.die d).aon = true) (hfree : (s.cx.die d).dewPending = false)
    (htarget : bits (s.cx.reg (pwrBase d + 4)).toNat 1 0 = 1) (hrun : (s.cx.die d).power = .run) :
    exec (.pwrCtrlGo d) s =
      s.go (if s.cx.idle d then s.cx.enterDew d 5 else s.cx.modDie d fun k => { k with dewPending := true }) := by
  refine (exec_pwrCtrlGo_target haon hfree).trans ?_
  rw [htarget, Cx.requestPower_dew 5 hrun]
  rfl

theorem Cx.dewIdleUs_powerRec (c : Cx) : (c.img.cfg.map fun g => g.power.dewIdleUs).getD 0 = c.powerRec.dewIdleUs := by
  unfold Cx.powerRec
  cases c.img.cfg <;> rfl

theorem exec_dewIdleExpiry_enters (hrun : (s.cx.die d).power = .run) (hup : s.cx.coreUp d = true)
    (hidle : s.cx.idle d = true)
    (hasked : (s.cx.die d).dewPending = true ∨ (s.cx.enabled = true ∧ s.cx.powerRec.dewIdleUs ≠ 0)) :
    exec (.dewIdleExpiry d) s = s.go (s.cx.enterDew d 0) := by
  refine if_pos ?_
  rw [Cx.dewIdleUs_powerRec, hrun, hup, hidle]
  simpa using hasked

theorem exec_wake_dew {cause : BitVec 4} (hdew : (s.cx.die d).power = .dew) :
    exec (.wake d cause) s = s.go (((s.cx.modDie d fun k => { k with wakeCause := cause.toNat }).modDie d fun k =>
      { k with power := .thaw }).ev 0x9001 10 0 d d.num [d.num, 1, 2, cause.toNat]) := by
  refine congrArg s.go ((if_pos (by rw [hdew]; rfl)).trans ?_)
  exact Cx.setPower_changes (p := .dew) _ (by rw [Cx.modDie_die_self]; exact hdew) rfl

theorem exec_thawDone_runs {us : W16} (hthaw : (s.cx.die d).power = .thaw) (hcore : (s.cx.die d).core = true) :
    exec (.thawDone d us) s = s.go ((((s.cx.modDie d fun k => { k with thawUs := us.toNat }).modDie d fun k =>
      { k with power := .run }).ev 0x9001 10 0 d d.num [d.num, 2, 3, (s.cx.die d).wakeCause]).trainPcie d).resumeCheck := by
  refine (if_pos (by rw [hthaw, hcore]; rfl)).trans ?_
  rw [Cx.setPower_changes (p := .thaw) _ (by rw [Cx.modDie_die_self]; exact hthaw) rfl]
  rfl

end Power

/-! ### The governor (R394) -/

section Governor

variable {s : State}

theorem length_addSample_le (l : List Nat) (x : Nat) : (addSample l x).length ≤ 100 := by
  rw [addSample, List.length_drop, List.length_append, List.length_singleton]
  omega

/-- The readings of both hub dies join their windows. -/
def Cx.sampleDies (c : Cx) (a b : Nat) : Cx :=
  (c.modDie .A fun k => { k with samples := addSample k.samples a }).modDie .B fun k =>
    { k with samples := addSample k.samples b }

/-- The readings of the stacks join theirs. -/
def Cx.sampleStacks (c : Cx) (l : List Nat) : Cx :=
  (List.range (min 20 l.length)).foldl (fun c i =>
    c.modStk i fun k => { k with watts := addSample k.watts (l.getD i 0) }) c

/-- Whatever a stack's record does not hold stays while the stacks are sampled. -/
theorem Cx.sampleStacks_keeps {β : Type} (g : Cx → β) (hg : ∀ (c : Cx) i f, g (c.modStk i f) = g c) (c : Cx) (l : List Nat) :
    g (c.sampleStacks l) = g c :=
  foldl_keeps g (fun c i => hg c i _) _ c

theorem exec_governorSample_joins (tile a b : Nat) (l : List Nat) : exec (.governorSample tile a b l) s =
    s.go ((({ s.cx with gov := { s.cx.gov with samples := addSample s.cx.gov.samples tile } } : Cx).sampleDies a b
      ).sampleStacks l) := rfl

theorem turnAt_hold {x high low : Nat} (hlow : low ≤ x) (hhigh : x ≤ high) : turnAt x high low = .hold := by
  rw [turnAt, if_neg (Nat.not_lt.2 hhigh), if_neg (Nat.not_lt.2 hlow)]

/-- The controllers of the hub dies take a step each. -/
def Cx.capDies (c : Cx) (cap : Nat) : Cx :=
  (c.modDie .A fun k => { k with capSteps := (shareTurn (Config.projected k.samples) cap).steps k.capSteps 8 }).modDie
    .B fun k => { k with capSteps := (shareTurn (Config.projected k.samples) cap).steps k.capSteps 8 }

/-- The controllers of the stacks take a step each. -/
def Cx.capStacks (c : Cx) (cap : Nat) : Cx :=
  (List.range 20).foldl (fun (c : Cx) i => c.modStk i fun k =>
    { k with capSteps := (shareTurn (Config.projected k.watts) cap).steps k.capSteps 10 }) c

/-- Whatever a stack's record does not hold stays while the stacks' controllers step. -/
theorem Cx.capStacks_keeps {β : Type} (g : Cx → β) (hg : ∀ (c : Cx) i f, g (c.modStk i f) = g c) (c : Cx) (cap : Nat) :
    g (c.capStacks cap) = g c :=
  foldl_keeps g (fun c i => hg c i _) _ c

/-- Inside the band the tile's controller changes nothing: the step counts as one without a limit. -/
theorem exec_governorStep_holds
    (hlow : 4 * (s.cx.powerRec.tileCap - 60) ≤ Config.projected s.cx.gov.samples)
    (hhigh : Config.projected s.cx.gov.samples ≤ 4 * (s.cx.powerRec.tileCap - 40)) :
    exec .governorStep s = s.go ((({ s.cx with gov := { s.cx.gov with
      projected := Config.projected s.cx.gov.samples, idleSteps := min 10 (s.cx.gov.idleSteps + 1) } } : Cx).capDies
        s.cx.powerRec.hubCap).capStacks s.cx.powerRec.stackCap) := by
  change execGovernorStep s = _
  simp only [execGovernorStep, turnAt_hold hlow hhigh]
  rfl

end Governor

/-! ### Hub temperatures (R395) -/

theorem exec_hubTemperature_hot {s : State} {d : Side} {t : Byte} (hhot : 105 ≤ t.toInt) (hbelow : t.toInt < 113)
    (hcool : (s.cx.die d).thermal = false) :
    exec (.hubTemperature d t) s = s.go ((s.cx.modDie d fun k => { k with
      temp := t.toInt, thermal := true, thermal115 := false }).ev 0x9005 10 1 d d.num [d.num, t.toNat]) := by
  have huntripped : (decide (115 ≤ t.toInt) || ((s.cx.die d).thermal115 && decide (113 < t.toInt))) = false := by
    rw [decide_eq_false (by omega), decide_eq_false (by omega), Bool.and_false, Bool.or_false]
  change execHubTemperature d t s = _
  simp only [execHubTemperature, decide_eq_true hhot, Bool.true_or, huntripped, hcool]
  rfl

/-- Settles O54, from each command's effect on the dies and, for the governor, the band in which it holds. -/
theorem powerStatesChange : Obligations.PowerStatesChange := by
  refine ⟨fun s d => exec_pwrCtrlGo_waiting, ?go, ?idle, fun s d cause => exec_wake_dew,
    fun s d us => exec_thawDone_runs, ?sample, ?step, fun s d t => exec_hubTemperature_hot⟩
  case go =>
    intro s d haon hfree t
    refine ⟨fun htarget hrun hidle => ?_, fun htarget hrun hbusy => ?_, fun htarget => ?_⟩
    · rw [exec_pwrCtrlGo_dew haon hfree htarget hrun, if_pos hidle, Cx.enterDew_run 5 hrun]
      rfl
    · exact (exec_pwrCtrlGo_dew haon hfree htarget hrun).trans (congrArg s.go (if_neg (ne_true_of_eq_false hbusy)))
    · exact (exec_pwrCtrlGo_target haon hfree).trans (if_pos htarget)
  case idle =>
    intro s d hrun hup hidle hasked
    refine ⟨_, exec_dewIdleExpiry_enters hrun hup hidle hasked, ?_, rfl, ?_⟩
    · rw [Cx.enterDew_run 0 hrun, Cx.die_ev, Cx.modDie_die_self]
    · rw [Cx.enterDew_run 0 hrun, Cx.ev_mem, Cx.modDie_mem, Cx.modDie_mem]
  case sample =>
    intro s tile a b l hlength
    have hsamples := Cx.sampleStacks_keeps (fun c => c.gov.samples) (fun _ _ _ => rfl)
      (({ s.cx with gov := { s.cx.gov with samples := addSample s.cx.gov.samples tile } } : Cx).sampleDies a b) l
    exact ⟨_, exec_governorSample_joins tile a b l, rfl, hsamples,
      (congrArg List.length hsamples).trans_le (length_addSample_le ..),
      Cx.sampleStacks_keeps Cx.mem (fun _ _ _ => rfl) .., Cx.sampleStacks_keeps Cx.regs (fun _ _ _ => rfl) ..⟩
  case step =>
    intro s p x hlow hhigh
    exact ⟨_, exec_governorStep_holds hlow hhigh, rfl, Cx.capStacks_keeps (fun c => c.gov.projected) (fun _ _ _ => rfl) ..,
      Cx.capStacks_keeps (fun c => c.gov.admission) (fun _ _ _ => rfl) ..,
      Cx.capStacks_keeps (fun c => c.dieA.hubSteps) (fun _ _ _ => rfl) ..⟩

/-! ### Supplies (R396 to R398) -/

section Supplies

variable {s : State} {d : Side} {rail : Nat}

theorem exec_railWarning_first {mv : Nat} (haon : (s.cx.die d).aon = true) (hquiet : (s.cx.die d).hold = none)
    (hrail : rail ≤ 10) :
    exec (.railWarning d rail mv) s = s.go ((s.cx.bump (pwrBase d + 0x60) 31 d).modDie d fun k => { k with
      rails := kput k.rails rail mv, warn := nput k.warn rail, below := nput k.below rail, minRail := rail, minMv := mv
      hold := some { rail := rail, minMv := mv, crossings := 1, usBelow := 0 } }) := by
  have hkept : ((s.cx.bump (pwrBase d + 0x60) 31 d).die d).hold = none := by rw [Cx.die_bump, hquiet]
  change execRailWarning d rail mv s = _
  simp only [execRailWarning, haon, hquiet]
  refine congrArg s.go (Cx.modDie_congr ?_)
  simp only [hkept, if_pos hrail]
  rfl

theorem exec_railAboveWarning_adds {us : Nat} (hbelow : (s.cx.die d).below.contains rail = true) :
    exec (.railAboveWarning d rail us) s = s.go (s.cx.modDie d fun k => { k with
      below := ndel k.below rail, hold := k.hold.map fun h => { h with usBelow := h.usBelow + us } }) :=
  congrArg s.go (Cx.modDie_congr (if_pos hbelow))

theorem exec_deferredCommitRelease_releases (hclear : (s.cx.die d).below = []) :
    exec (.deferredCommitRelease d) s = s.go (s.cx.modDie d fun k => { k with deferred := false }) :=
  congrArg s.go (Cx.modDie_congr (if_pos (List.isEmpty_iff.2 hclear)))

/-- The end of a hold: the commits are deferred, and counted, while some rail of the die is still below warning. -/
theorem exec_dipHoldEnd_reports {h : Hold} (hhold : (s.cx.die d).hold = some h) :
    let waits := !(s.cx.die d).below.isEmpty
    exec (.dipHoldEnd d) s = s.go ((s.cx.modDie d fun k => { k with hold := none, deferred := k.deferred || waits }).ev
      0x9002 10 1 d d.num
      [d.num, h.rail, h.minMv, h.crossings, h.usBelow, if waits then s.cx.heldCommits d else 0]) := by
  change execDipHoldEnd d s = _
  rw [execDipHoldEnd, hhold]
  rfl

theorem exec_railReset_effect {mv : Nat} (haon : (s.cx.die d).aon = true) : exec (.railReset d rail mv) s =
    s.go (((s.cx.modDie d fun k => { k with rails := kput k.rails rail mv }).ev
      0x9003 10 3 d d.num [d.num, rail, mv]).railEffect d rail) :=
  if_pos haon

theorem exec_pgInFall_crosses (hreq : (s.cx.die d).pwrReq = true) (hpower : (s.cx.die d).power ≠ .frost) :
    exec (.pgInFall d) s = s.go ([5, 6, 7, 8, 9, 10].foldl
      (fun (c : Cx) r => c.railDown d r (kget 0 (c.die d).rails r)) (s.cx.modDie d fun k => { k with pgIn := false })) :=
  if_pos (by rw [hreq, Bool.true_and, bne_iff_ne]; exact hpower)

end Supplies

/-- Settles O55, from each supply command's effect on its die. -/
theorem suppliesDip : Obligations.SuppliesDip := by
  refine ⟨fun s d rail mv => exec_railWarning_first, ?above, ?holdEnd, ?release, fun s d rail mv => exec_railReset_effect,
    fun s d => exec_pgInFall_crosses⟩
  case above =>
    intro s d rail us hbelow
    exact ⟨_, exec_railAboveWarning_adds hbelow, rfl, congrArg Die.below (Cx.modDie_die_self ..),
      congrArg Die.hold (Cx.modDie_die_self ..), Cx.modDie_die_twin ..⟩
  case holdEnd =>
    intro s d h hhold
    refine ⟨fun hclear => (exec_dipHoldEnd_reports hhold).trans ?_, fun hlow => (exec_dipHoldEnd_reports hhold).trans ?_⟩
    · simp only [hclear, List.isEmpty_nil, Bool.not_true, Bool.or_false]
      rfl
    · simp only [List.isEmpty_eq_false_iff.2 hlow, Bool.not_false, Bool.or_true, if_true]
      rfl
  case release =>
    intro s d hclear
    exact ⟨_, exec_deferredCommitRelease_releases hclear, rfl, by rw [Cx.modDie_die_self], by rw [Cx.modDie_die_self]⟩

end Sys2Proof.Machine
end
